-- ==== Sys2Proof/Word.lean ====
section
/-!
DEFINITION. The word types of the SW8 model and nothing else: bit fields, byte order and the like are in
Sys2Proof/Machine/Bits.lean.
-/
namespace Sys2Proof

/-- A byte of memory, of a ring, of a record or of a Terti flit (spec 00, R1). -/
abbrev Byte := BitVec 8

/-- A 16-bit status, detail or part code (spec 00 Table 0-6, spec 01 Table 1-4). -/
abbrev Half := BitVec 16

/-- A 32-bit register, epoch, position identity, step number or version. -/
abbrev Word := BitVec 32

/-- A 64-bit register, handle or address argument. -/
abbrev Quad := BitVec 64

end Sys2Proof
end

