-- ==== Sys2Proof/Syntax.lean ====
section
/-!
DEFINITION. The commands of the SW8 block: one constructor of Instr for each row of spec/opcode_table.json, with the
operands that the environment (host software, device firmware, partners, clocks and sensors) supplies. A value that the
spec makes the outcome of a physical process (a training, a measurement, a bit error) is an operand: log entry 3.
-/
namespace Sys2Proof

/-- The memories in which a bit error may strike (spec 07 R134, spec 08 R151). -/
inductive Site where
  | spad (d : Fin 4)
  | hub
  | stack (k : Fin 8)
deriving DecidableEq, Repr

/-- What a bit error does to one protected unit. -/
inductive UpsetKind where
  /-- A single-bit error in an 8 B word (spec 07 R134). -/
  | single
  /-- An uncorrectable syndrome in an 8 B word (spec 07 R134). -/
  | double
  /-- A stack codeword with `t` unflagged symbol errors, the core dies whose bursts report inner-uncorrectable
  severity, and the data a miscorrection would give when one is possible (spec 08 R151). -/
  | symbols (t : Nat) (dies : List (Fin 16)) (mis : List Byte)
  /-- A plain read of this twin-region word through port A meets a same-cycle write through port B and gets undefined
  data (spec 07 R136). -/
  | collide
deriving DecidableEq, Repr

/-- One bit error: the memory, the index of the protected unit in it (8 B word, or 64 B codeword of a stack), and what
it does. A command that reads memory carries the errors that struck before its reads. -/
structure Upset where
  site : Site
  unit : Nat
  kind : UpsetKind
deriving DecidableEq, Repr

/-- How one attempt at one instance of a boot step ended (spec 16 R298): its status, its detail, and the faults the
attempt found (failing columns as (bank, bit) pairs, failing lanes as (lane, direction) pairs, good wavelengths). -/
structure Attempt where
  status : Half
  detail : Half
  faults : List (Nat × Nat)
deriving DecidableEq, Repr

/-- The engines that start queued instructions and complete them by ENGINE_INSTRUCTION_COMPLETE (spec 06 R117). -/
inductive Engine where
  | vxe | mov | trn | rng
deriving DecidableEq, Repr

/-- Who makes a register access: host software over BAR0, or device firmware on the MCP (spec 21 R345, R346). -/
inductive Agent where
  | host | mcp
deriving DecidableEq, Repr

/-- The hottest present temperature of each zone, in degrees Celsius (spec 17 Table 17-3). -/
structure Temps where
  dieZones : List Nat
  hubZone : Nat
  stackZones : List Nat
  oeZones : List Nat
deriving DecidableEq, Repr

/-- The direction of a stage link or of a fibre. -/
inductive Dir where
  | fwd | bwd
deriving DecidableEq, Repr

/-- Where an image enters the boot window from (spec 16 R302). -/
inductive BootPath where
  | host | mp
deriving DecidableEq, Repr

/-- A failing read of a march: element index, operation index, offset, and the failing (bank, bit) columns
(spec 07 R146). -/
structure MarchFail where
  element : Nat
  op      : Nat
  offset  : Nat
  columns : List (Nat × Nat)
deriving DecidableEq, Repr

/-- A request of Gasyn's debug protocol over MP (spec 18 R330). -/
inductive DebugRequest where
  | halt (core : Fin 4)
  | stepCore (core : Fin 4)
  | inspect (core : Fin 4)
  | readRegister (off : Nat)
  | writeRegister (off : Nat) (data : Quad)
  | readMemory (site : Site) (addr : Nat)
  | writeMemory (site : Site) (addr : Nat) (data : Byte)
  | scan (d : Fin 4)
  | blowFuses (bank : Nat) (addr : Nat) (data : List Byte)
deriving DecidableEq, Repr

/-- What a CXL.cache RdCurr of host memory returned: the bytes, or none for an error or poison (spec 15 R292). -/
abbrev HostData := Option (List Byte)

/-- The commands of the block: one constructor per row of spec/opcode_table.json. -/
inductive Instr where
  -- power, reset and boot (spec 16)
  | pwrOkRise
  | pwrOkFall
  | rstNAssert (ticks : Nat)
  | rstNRelease (s0 s1 s2 : Word)
  | bs01Supply (r : List (List Attempt))
  | bs02Clocks (r : List (List Attempt))
  | bs03Security (r : List (List Attempt))
  | bs04HubSram (r : List (List Attempt))
  | bs05Image (r : List (List Attempt))
  | bs06Firmware (r : List (List Attempt))
  | bs07Mgmt (r : List (List Attempt))
  | bs08DiePower (r : List (List Attempt))
  | bs09Scratchpad (r : List (List Attempt))
  | bs10Bundles (r : List (List Attempt))
  | bs11Stacks (r : List (List Attempt))
  | bs12StackRepair (r : List (List Attempt))
  | bs13Ports (r : List (List Attempt))
  | bs14Service (r : List (List Attempt))
  | bootStepTimeout
  | bootRestart
  | ldgCtrlClear (v : Word)
  -- clock loss (spec 01)
  | refOscLost
  | fclkLockLost
  | gclkLockLost
  | aonOscStopped
  | aclkLockLost (d : Fin 4)
  | mclkLockLost (k : Fin 8)
  | clkFaultWrite (v : Word)
  -- sequencer and engines (spec 03 to 06)
  | seqDispatch (d : Fin 4) (u : List Upset)
  | mmul (d : Fin 4) (u : List Upset)
  | mmulComplete (d : Fin 4) (bank : Fin 2) (u : List Upset)
  | vew (d : Fin 4) (u : List Upset)
  | vcvt (d : Fin 4) (u : List Upset)
  | vtadd (d : Fin 4) (u : List Upset)
  | vred (d : Fin 4) (u : List Upset)
  | vpermPerm (d : Fin 4) (u : List Upset)
  | vpermGather (d : Fin 4) (u : List Upset)
  | voptSgdMom (d : Fin 4) (u : List Upset)
  | voptAdamw (d : Fin 4) (u : List Upset)
  | movCopy (d : Fin 4) (u : List Upset)
  | movFill (d : Fin 4) (u : List Upset)
  | movHubop (d : Fin 4) (u : List Upset)
  | trnTranspose (d : Fin 4) (u : List Upset)
  | trnPanel (d : Fin 4) (u : List Upset)
  | trnUnpanel (d : Fin 4) (u : List Upset)
  | rngUniform (d : Fin 4) (u : List Upset)
  | rngBernoulli (d : Fin 4) (u : List Upset)
  | rngNormal (d : Fin 4) (u : List Upset)
  | engineInstructionComplete (d : Fin 4) (e : Engine)
  | waitTimeout (d : Fin 4)
  | semaphoreAddPortB (d : Fin 4) (sem : Fin 128) (v : Word)
  -- memories and coherence (spec 07 to 09, 15)
  | spadCeWriteback (site : Site) (word : Nat)
  | hostMemRead (addr len busy : Nat) (own : Bool) (u : List Upset)
  | hostMemWrite (addr : Nat) (data : List Byte) (busy : Bool) (u : List Upset)
  | backInvalidateResponse (line : Nat) (dirty : HostData)
  | homeFilterInvalAck (line : Nat)
  | remoteCacheFillArrival (d : Fin 4) (line : Nat)
  | remoteCacheInvalidate (d : Fin 4) (line : Nat)
  | stkCeWriteback (k : Fin 8) (group : Nat)
  | patrolScrubRead (k : Fin 8) (u : List Upset)
  | eraseWindowEnd (k : Fin 8)
  | stackNoResponse (k : Fin 8)
  | pseudoChannelRetrainFail (k : Fin 8)
  -- die fabric (spec 09)
  | bundleEntryReceive (b : Fin 80) (tag : Nat) (crcOk : Bool)
  | eyeMeasurement (b : Fin 80) (widths : List Nat)
  | crcWindowEnd (b : Fin 80)
  | castling (b : Fin 80)
  | castlingSwitch (b : Fin 80)
  | castlingComplete (b : Fin 80) (pass : Bool)
  | bundleRetrain (b : Fin 80)
  | bundleRetrainComplete (b : Fin 80) (bad : List Nat)
  | lclkMissing (d : Fin 4) (bs : List (Fin 80))
  | dieHubClockLoss (d : Fin 4)
  | dieFenceResetHold (d : Fin 4)
  | dieFenceComplete (d : Fin 4)
  -- Terti ports (spec 10)
  | tertiFlitReceive (p : Fin 24) (lam : Fin 8) (fecOk : Bool) (flit : List Byte)
  | tertiFlitTransmit (p : Fin 24)
  | ackTimeoutReplay (p : Fin 24)
  | ctlParam (p : Fin 24)
  | ctlSync (p : Fin 24)
  | ctlFfeReq (p : Fin 24)
  | ctlLambdaNotice (p : Fin 24)
  | ctlRttProbe (p : Fin 24)
  | ctlRttEcho (p : Fin 24) (rtt : Nat)
  | ctlRepeat (p : Fin 24)
  | portEnableWrite (p : Fin 24) (v : Word)
  | tertiTrainingComplete (p : Fin 24) (tx rx : BitVec 8)
  | trainingStepTimeout (p : Fin 24) (stage : Nat) (rxSide : Bool) (lam : Fin 8)
  | ctleAdaptTick (p : Fin 24)
  | ffeReqCount (p : Fin 24) (lam : Fin 8) (tap : Nat) (delta : Int)
  | laserBiasTick (p : Fin 24) (low : BitVec 8)
  | wavelengthFail (p : Fin 24) (rxSide : Bool) (lam : Fin 8)
  | wavelengthWindowEnd (p : Fin 24)
  | tertiRetrainComplete (p : Fin 24) (ok : Bool)
  | portLossOfLight (p : Fin 24)
  | portReacquire (p : Fin 24)
  | replayWindowEnd (p : Fin 24)
  | messageHoldExpiry (p : Fin 24) (vc : Fin 8)
  | quarantineWindowEnd (p : Fin 24)
  | nackSend (p : Fin 24)
  | nack (p : Fin 24)
  | expectWrite (p : Fin 24) (v : Word)
  | mgmtMessage (p : Fin 24)
  -- stage links, queues and weight versions (spec 12)
  | fwdAct (p : Fin 24)
  | bwdGrad (p : Fin 24)
  | mbDrop (p : Fin 24)
  | qcredit (p : Fin 24)
  | qcreditPeriodic
  | stageLinkSend (role : Fin 4) (dir : Dir)
  | shardReq (p : Fin 24)
  | shardData (p : Fin 24)
  | shardFail (p : Fin 24)
  | gatherLimitExpiry (d : Fin 4)
  | spBlock (p : Fin 24)
  | mbqBind
  | take (d : Fin 4)
  | fwdDone (d : Fin 4)
  | bwdDone (d : Fin 4)
  | stashAlloc (d : Fin 4)
  | stashMap (d : Fin 4)
  | drop (d : Fin 4)
  | injectEval (d : Fin 4)
  | slotOutputAcked (slot : Fin 16)
  | slotDroppedRelease (slot : Fin 16)
  | lookup (d : Fin 4)
  | openPending (d : Fin 4)
  | gather (d : Fin 4)
  -- commit votes (spec 14)
  | voteHubop (d : Fin 4)
  | vote (p : Fin 24)
  | voteLimitExpiry (role : Fin 4)
  | decision (p : Fin 24)
  | decideWaitExpiry (role : Fin 4)
  | decisionReq (p : Fin 24)
  -- gradient tally (spec 13)
  | arm (d : Fin 4)
  | start (d : Fin 4)
  | disarm (d : Fin 4)
  | tally (p : Fin 24) (mismatch : List Nat)
  | tallyCopy (p : Fin 24)
  | tallyDeadlineExpiry (j : Fin 64)
  -- copies, fills and promotion (spec 14)
  | pair (p : Fin 24)
  | pairAck (p : Fin 24)
  | copyData (p : Fin 24)
  | copyDone (p : Fin 24)
  | fillReq (p : Fin 24)
  | fillData (p : Fin 24)
  | fillFail (p : Fin 24)
  | fillLimitExpiry
  | digestReq (p : Fin 24)
  | digestData (p : Fin 24)
  | promoteLocate
  | promoteRecord
  | promoteFill
  | promoteVerify
  | promoteRejoin
  | reshardCutover
  -- maintenance (spec 19)
  | marbAdmit
  | marbStallOverrun (id : Nat)
  | marchComplete (id : Nat) (fails : List MarchFail)
  | scrubComplete (id : Nat)
  | thermalCalibrationComplete (id : Nat)
  | dieResetDrainEnd (d : Fin 4)
  | dieResetAbandon (d : Fin 4)
  | dieResetRejoin (d : Fin 4) (bad : List (Nat × Nat)) (lostStacks : List (Fin 8))
  -- host rings (spec 15)
  | descriptorFetch (q : Fin 32) (batch : List HostData)
  | sqTail (q : Fin 32) (v : Half)
  | cqHead (q : Fin 32) (v : Half)
  | sqEnable (q : Fin 32) (v : Word)
  | cqEnable (q : Fin 32) (v : Word)
  | completionRecordWrite (q : Fin 32)
  | cqInterruptTimer (q : Fin 32)
  | progressRecordTimer (h : Quad)
  | hostLinkDown
  -- host commands (spec 15 Table 15-11); h is the handle of the outstanding command that runs
  | cmdNop (h : Quad)
  | cancel (h : Quad)
  | portRelease (h : Quad)
  | loadProgram (h : Quad) (src : HostData)
  | runProgram (h : Quad)
  | setIdentity (h : Quad)
  | roleInstall (h : Quad) (src : HostData)
  | roleRemove (h : Quad) (src : HostData)
  | wvtInstall (h : Quad) (src : HostData)
  | groupInstall (h : Quad) (src : HostData)
  | groupRemove (h : Quad)
  | groupAdopt (h : Quad)
  | buddyPair (h : Quad)
  | holdCopy (h : Quad)
  | promote (h : Quad) (src : HostData)
  | fill (h : Quad) (src : HostData)
  | checkpointDrain (h : Quad)
  | reshard (h : Quad) (rearm moves : HostData)
  | march (h : Quad) (src : HostData)
  | scrub (h : Quad)
  | calibrateBundleRetrain (h : Quad)
  | calibrateCastling (h : Quad)
  | calibrateOpticalReeq (h : Quad)
  | calibrateThermal (h : Quad)
  | fuseRead (h : Quad)
  | dieReset (h : Quad)
  | powerActive (h : Quad)
  | powerIdle (h : Quad)
  | powerDieOff (h : Quad)
  | powerWatch (h : Quad)
  | attest (h : Quad)
  | lifecycle (h : Quad) (src : HostData)
  -- power and thermal (spec 17)
  | pwcModeWrite (v : Word)
  | powerTransitionStart (pending : Bool)
  | dieOffExitComplete (d : Fin 4) (bad : List (Nat × Nat)) (lostStacks : List (Fin 8))
  | padHoldWrite (v : Word)
  | dvfsLoopTick
  | droopCeilingRecovery (d : Fin 4)
  | powerMeasureTick (vinMv currentMa : Nat)
  | capLoopTick
  | thermalLoopTick (t : Temps)
  | thermalTrip
  | thermalTripRestart (t : Temps)
  | oeOvertemp (k : Fin 7)
  | oeCooled (k : Fin 7)
  | dieRailFault (d : Fin 4)
  | stackRailFault (k : Fin 8)
  | brownout (overVolt : Bool)
  | brownoutRestart (vinMv : Nat)
  | watchSample (overrun : Bool) (t : Temps) (vinMv : Nat) (mgtInRange : Bool)
  | wakeLightFrame (preambleOk : Bool) (slot : BitVec 12) (code : BitVec 4) (crcOk : Bool)
  -- security (spec 18)
  | tamperEvent (light voltage clock : Bool)
  | vaultWipeComplete (bad : Option Nat)
  | mpDebugRequest (r : DebugRequest)
  -- registers (spec 20, 21)
  | rcRegisterRead (a : Agent) (off : Nat) (size : Nat)
  | wideRegisterRead (a : Agent) (off : Nat) (size : Nat)
  | stashBudgetWrite (role : Fin 4) (v : Quad)
  | registerWrite (a : Agent) (off : Nat) (size : Nat) (v : Quad)
  -- rows the table adds at its end
  | hostLinkUp
  | h2dSnoop (line : Nat)
  | fuseReadComplete
  | bootImageArrival (src : BootPath) (image : List Byte)
  | aonOscillatorReturn
  | droopSensorTrip (d : Fin 4)
  | lightReturn (p : Fin 24)
deriving DecidableEq, Repr

end Sys2Proof
end

