-- ==== Sys2Proof/Decode.lean ====
section
/-!
DEFINITION. The words of the command table. No row of spec/opcode_table.json gives bits: the commands are events and
register accesses, not encodings, so no word spells one. (The 128-bit instructions that a die's sequencer reads from its
program are parsed in Sys2Proof/Machine/Operands.lean, the host's 64 B descriptors in the host port's commands.)
-/
namespace Sys2Proof

/-- The command that a word spells by the table's bits: none, as no row has bits. -/
def decodeTableWord (_nbits _w : Nat) : Option Instr := none

end Sys2Proof
end

