-- ==== Sys2Proof/Config.lean ====
section
/-!
DEFINITION. The free values: constants without a body for what the spec leaves open, so that nothing proved here rests on a
value of theirs. Log entry 1 says how each is drawn, log entry 7 the approximations, log entry 8 the cryptographic functions.
-/
namespace Sys2Proof.Config

/-- The k-th free number drawn by the block, reduced by its user to the range it needs (log entry 1). -/
opaque freeNat : Nat → Nat

/-- Which of the results that spec 05 R97 and spec 06 R121 allow the hardware's one fixed function gives: by function and
input (log entry 7). -/
opaque approxPick : Nat → Nat → Nat

/-- SHA-384 of a byte string (spec 16 R301; the algorithm is named and not printed; log entry 8). -/
opaque sha384 : List Byte → BitVec 384

/-- Whether an RSA-3072 PSS signature verifies: modulus, exponent, message, signature (spec 16 R301; log entry 8). -/
opaque rsaVerifies : List Byte → List Byte → List Byte → List Byte → Bool

/-- Whether an SLH-DSA-SHA2-192s signature verifies: public key, message, signature (spec 16 R301; log entry 8). -/
opaque slhVerifies : List Byte → List Byte → List Byte → Bool

/-- An RSA-3072 PSS signature of a quote made with the device key (spec 18 R327; log entry 8). -/
opaque rsaSigns : List Byte → List Byte

/-- An SLH-DSA signature of a quote made with the device key (spec 18 R327; log entry 8). -/
opaque slhSigns : List Byte → List Byte

/-- The bytes of a fuse bank (spec 18 Table 18-3), by the bank and what it holds: the layout is not given (log entry 6). -/
opaque fuseBytes : Nat → List Nat → List Byte

/-- The repaired columns after a debugger has blown bytes at an address of bank 3 (spec 18 R330; the layout is not given; log entry 6). -/
opaque blowColumns : List (Nat × Nat × Nat) → Nat → List Byte → List (Nat × Nat × Nat)

/-- The bad lanes after bytes have been blown in bank 4 (log entry 6). -/
opaque blowLanes : List (Nat × Nat) → Nat → List Byte → List (Nat × Nat)

/-- The voltage-frequency tables after bytes have been blown in bank 5 (log entry 6). -/
opaque blowVf : List (List Nat) → Nat → List Byte → List (List Nat)

end Sys2Proof.Config
end

