-- ==== Sys2Proof/Machine/Bits.lean ====
section
/-!
DEFINITION. Helpers without hardware meaning of their own: bit fields of registers, little-endian byte fields (spec 00 R1),
sparse lists by rising key, fixed vectors by index, and the CRC-32C of spec 10 and spec 16.
-/
namespace Sys2Proof.Machine

/-! ## Bit fields -/

/-- A bit field of a register or instruction word: its highest and its lowest bit, as the spec writes [high:low]. -/
abbrev Fld := Nat × Nat

/-- How many bits a field has. -/
def fwidth (f : Fld) : Nat := f.1 - f.2 + 1

/-- The value of a field. -/
def fget {w : Nat} (f : Fld) (v : BitVec w) : Nat := (v.extractLsb' f.2 (fwidth f)).toNat

/-- The bits of a field, all ones. -/
def fmask (w : Nat) (f : Fld) : BitVec w := ((BitVec.allOnes (fwidth f)).setWidth w) <<< f.2

/-- The register with one field set and the others unchanged. -/
def fput {w : Nat} (f : Fld) (x : Nat) (v : BitVec w) : BitVec w :=
  (v &&& ~~~(fmask w f)) ||| (((BitVec.ofNat (fwidth f) x).setWidth w) <<< f.2)

/-- Whether any bit of a field is set. -/
def fon {w : Nat} (f : Fld) (v : BitVec w) : Bool := fget f v != 0

/-- A counter field raised by `n`, saturating at its largest value (spec 20 R341). -/
def fsat {w : Nat} (f : Fld) (n : Nat) (v : BitVec w) : BitVec w :=
  fput f (min (fget f v + n) (2 ^ fwidth f - 1)) v

/-- A counter field raised by `n`, wrapping. -/
def fwrap {w : Nat} (f : Fld) (n : Nat) (v : BitVec w) : BitVec w := fput f (fget f v + n) v

/-- A one-bit field set from a truth value. -/
def fflag {w : Nat} (f : Fld) (b : Bool) (v : BitVec w) : BitVec w := fput f (if b then 1 else 0) v

/-- A field value read as a two's complement number of the field's width. -/
def fint {w : Nat} (f : Fld) (v : BitVec w) : Int := (v.extractLsb' f.2 (fwidth f)).toInt

/-- Bit `i` of a natural number. -/
def nbit (v i : Nat) : Bool := v / 2 ^ i % 2 == 1

/-- Bits `hi` down to `lo` of a natural number. -/
def nbits (v hi lo : Nat) : Nat := v / 2 ^ lo % 2 ^ (hi - lo + 1)

/-- One for true, zero for false. -/
def b2n (b : Bool) : Nat := if b then 1 else 0

/-- The positions of the set bits of a mask. -/
def maskBits {w : Nat} (m : BitVec w) : List Nat := (List.range w).filter fun i => m.getLsbD i

/-- The mask with the listed bits set. -/
def maskOf (w : Nat) (l : List Nat) : BitVec w := l.foldl (fun m i => m ||| BitVec.twoPow w i) 0

/-! ## Bytes -/

/-- The number that little-endian bytes hold (spec 00 R1). -/
def leNat : List Byte → Nat
  | [] => 0
  | b :: r => b.toNat + 256 * leNat r

/-- The `n` little-endian bytes of a number. -/
def natLe : Nat → Nat → List Byte
  | 0, _ => []
  | n + 1, x => BitVec.ofNat 8 x :: natLe n (x / 256)

/-- `n` bytes from offset `o`, short where the list ends. -/
def slice {α : Type} (l : List α) (o n : Nat) : List α := (l.drop o).take n

/-- The little-endian field of `n` bytes at offset `o`. -/
def leAt (l : List Byte) (o n : Nat) : Nat := leNat (slice l o n)

/-- The list cut or filled with zeros to `n` bytes. -/
def padTo (n : Nat) (l : List Byte) : List Byte := l.take n ++ List.replicate (n - l.length) 0

/-- The list with the bytes from offset `o` on replaced. -/
def patch (l : List Byte) (o : Nat) (x : List Byte) : List Byte :=
  l.take o ++ x.take (l.length - o) ++ l.drop (o + x.length)

/-- Whether every byte of the list is zero. -/
def allZero (l : List Byte) : Bool := l.all (· == 0)

/-- Pieces of `n` elements, at most `fuel` of them. -/
def chunks {α : Type} (n : Nat) : Nat → List α → List (List α)
  | 0, _ => []
  | _ + 1, [] => []
  | f + 1, l => l.take n :: chunks n f (l.drop n)

/-- A number rounded up to a multiple of `n`. -/
def roundUp (n x : Nat) : Nat := (x + n - 1) / n * n

/-! ## CRC-32C (spec 10 R183, spec 16 Table 16-4) -/

/-- One bit of the reflected Castagnoli polynomial division. -/
def crcBit (c : Word) : Word :=
  if c.getLsbD 0 then (c >>> 1) ^^^ 0x82F63B78#32 else c >>> 1

/-- One byte into the remainder. -/
def crcByte (c : Word) (b : Byte) : Word :=
  crcBit (crcBit (crcBit (crcBit (crcBit (crcBit (crcBit (crcBit (c ^^^ b.setWidth 32))))))))

/-- CRC-32C of a byte string: initial value and final exclusive-or all ones. -/
def crc32c (l : List Byte) : Word := ~~~(l.foldl crcByte 0xFFFFFFFF#32)

/-! ## Sparse lists by rising key -/

/-- The value under a key. -/
def sget {α : Type} : List (Nat × α) → Nat → Option α
  | [], _ => none
  | (k, v) :: r, i => if k = i then some v else if i < k then none else sget r i

/-- Set the value under a key, keeping the keys rising. -/
def sput {α : Type} : List (Nat × α) → Nat → α → List (Nat × α)
  | [], i, x => [(i, x)]
  | (k, v) :: r, i, x =>
    if k = i then (i, x) :: r
    else if i < k then (i, x) :: (k, v) :: r
    else (k, v) :: sput r i x

/-- Remove a key. -/
def sdel {α : Type} : List (Nat × α) → Nat → List (Nat × α)
  | [], _ => []
  | (k, v) :: r, i => if k = i then r else if i < k then (k, v) :: r else (k, v) :: sdel r i

/-- Set or remove: the unlisted value is removed. -/
def sset {α : Type} [DecidableEq α] (dflt : α) (l : List (Nat × α)) (i : Nat) (x : α) : List (Nat × α) :=
  if x = dflt then sdel l i else sput l i x

/-- Whether the keys rise strictly. -/
def rising {α : Type} : List (Nat × α) → Bool
  | [] => true
  | [_] => true
  | a :: b :: r => decide (a.1 < b.1) && rising (b :: r)

/-! ## Vectors by index -/

/-- The element at an index. -/
def vget {α : Type} {n : Nat} (v : Vector α n) (i : Fin n) : α := v[i.1]

/-- The vector with one element replaced. -/
def vset {α : Type} {n : Nat} (v : Vector α n) (i : Fin n) (x : α) : Vector α n := v.set i.1 x i.2

/-- The vector with a function applied to one element. -/
def vmod {α : Type} {n : Nat} (v : Vector α n) (i : Fin n) (f : α → α) : Vector α n := vset v i (f (vget v i))

/-- The vector with a function of index and element applied to every element. -/
def vmap {α : Type} {n : Nat} (v : Vector α n) (f : Fin n → α → α) : Vector α n :=
  (List.finRange n).foldl (fun u i => vmod u i (f i)) v

/-- The index as a member of `Fin n`, if it is one. -/
def fin? (n i : Nat) : Option (Fin n) := if h : i < n then some ⟨i, h⟩ else none

/-- All indices. -/
def allFin (n : Nat) : List (Fin n) := List.finRange n

/-- The first element of a list that a partial function accepts, with its value. -/
def firstSome {α β : Type} (l : List α) (f : α → Option β) : Option β :=
  match l with
  | [] => none
  | a :: r => match f a with
    | some b => some b
    | none => firstSome r f

/-- Remove the first element that satisfies a predicate. -/
def dropFirst {α : Type} (p : α → Bool) : List α → List α
  | [] => []
  | a :: r => if p a then r else a :: dropFirst p r

/-- Replace the elements that satisfy a predicate. -/
def updateWhere {α : Type} (p : α → Bool) (f : α → α) (l : List α) : List α :=
  l.map fun a => if p a then f a else a

/-- Put an element before the first element of a sorted list that it may precede. -/
def insertBy {α : Type} (le : α → α → Bool) (a : α) : List α → List α
  | [] => [a]
  | b :: r => if le a b then a :: b :: r else b :: insertBy le a r

/-- Sort a list; elements that compare equal keep their order. -/
def sortBy {α : Type} (le : α → α → Bool) : List α → List α
  | [] => []
  | a :: r => insertBy le a (sortBy le r)

/-- The last `n` elements. -/
def keepLast {α : Type} (n : Nat) (l : List α) : List α := l.drop (l.length - n)

end Sys2Proof.Machine
end

