-- ==== Sys2Proof/Machine/Num.lean ====
section
/-!
DEFINITION. The numbers of spec 02: exact values, decoding and encoding of every format, rounding modes, Philox-4x32-10, and
the exact arithmetic that the engines round once.
-/
namespace Sys2Proof.Machine

/-! ## Exact values (spec 02, Conversion) -/

/-- A decoded value. `fin neg m e st` is ±m·2^e with m positive; with `st` it is larger in magnitude than that by less than
2^e (a quotient or root that has no finite expansion). `nan neg tag` carries a tag of Table 2-4, 0x7F being canonical. -/
inductive Val where
  | zero (neg : Bool)
  | fin (neg : Bool) (m : Nat) (e : Int) (st : Bool)
  | inf (neg : Bool)
  | nan (neg : Bool) (tag : Nat)
deriving DecidableEq, Repr

/-- The flags of an instruction in the bit order of VXE.STAT (spec 05 Table 5-9). -/
abbrev Fl := BitVec 8

def flInvalid : Fl := 0x01#8
def flOverflow : Fl := 0x02#8
def flUnderflow : Fl := 0x04#8
def flEmpty : Fl := 0x08#8
def flOor : Fl := 0x10#8
def flPoisoned : Fl := 0x20#8
def flNanprop : Fl := 0x40#8
def flSkipped : Fl := 0x80#8

/-- The canonical NaN (spec 02 R23, R27). -/
def canonNan : Val := .nan false 0x7F

/-- The number of significant bits. -/
def bitLen (x : Nat) : Nat := if x = 0 then 0 else Nat.log2 x + 1

/-- Two to an integer power, times a natural number, when the power is not negative. -/
def shl (m : Nat) (k : Int) : Nat := m * 2 ^ k.toNat

/-! ## Rounding (spec 02 R34, R35, Table 2-9) -/

/-- How a finite value is rounded. -/
inductive Rm where
  | rne | rtz | sr
deriving DecidableEq, Repr

/-- A rounding field: the mode and whether it saturates; none for the reserved codes. -/
def rndOf : Nat → Option (Rm × Bool)
  | 0 => some (.rne, false)
  | 1 => some (.rtz, false)
  | 2 => some (.sr, false)
  | 4 => some (.rne, true)
  | 5 => some (.rtz, true)
  | 6 => some (.sr, true)
  | _ => none

/-- The magnitude m·2^e (and a little more with `st`) as a multiple of 2^q, rounded; `u` is the drawn word (R35). -/
def roundMag (rm : Rm) (u m : Nat) (e : Int) (st : Bool) (q : Int) : Nat :=
  if q ≤ e then shl m (e - q)
  else
    let s := (q - e).toNat
    let t := m / 2 ^ s
    let r := m % 2 ^ s
    match rm with
    | .rtz => t
    | .rne =>
      if 2 ^ s < 2 * r || (2 ^ s == 2 * r && (st || t % 2 == 1)) then t + 1 else t
    | .sr => if u < r * 2 ^ 32 / 2 ^ s then t + 1 else t

/-- The magnitude rounded to `p` significant bits at unbounded exponent: significand below 2^p, and its exponent. -/
def roundSig (p : Nat) (rm : Rm) (u m : Nat) (e : Int) (st : Bool) : Nat × Int :=
  let q := e + (bitLen m : Int) - (p : Int)
  let n := roundMag rm u m e st q
  if n = 2 ^ p then (n / 2, q + 1) else (n, q)

/-! ## Decoding (spec 02 R38, Tables 2-3, 2-5, 2-6, R29, R31) -/

/-- The tag that a NaN fraction of 7 or 23 bits holds. -/
def tagOfFrac (fb f : Nat) : Nat :=
  if fb = 7 then f
  else if f / 128 = 0x8000 ∧ 1 ≤ f % 128 ∧ f % 128 ≤ 0x7E then f % 128 else 0x7F

/-- A floating-point encoding with `eb` exponent bits and `fb` fraction bits. -/
def decFloat (eb fb x : Nat) : Val :=
  let s := nbit x (eb + fb)
  let e := nbits x (eb + fb - 1) fb
  let f := x % 2 ^ fb
  if e = 0 then .zero s
  else if e = 2 ^ eb - 1 then (if f = 0 then .inf s else .nan s (tagOfFrac fb f))
  else .fin s (2 ^ fb + f) ((e : Int) - ((2 ^ (eb - 1) - 1 : Nat) : Int) - (fb : Int)) false

def decT16 (x : Nat) : Val := decFloat 8 7 x
def decW32 (x : Nat) : Val := decFloat 8 23 x
def decW32X (x : Nat) : Val := decFloat 10 23 x

/-- A pip element (P8 with 4 exponent and 3 fraction bits, P4 with 2 and 1) under a face (R29). -/
def decPip (eb fb x face : Nat) : Val :=
  let s := nbit x (eb + fb)
  let e := nbits x (eb + fb - 1) fb
  let f := x % 2 ^ fb
  let sc : Int := (face : Int) - 127
  let bias : Int := ((2 ^ (eb - 1) - 1 : Nat) : Int)
  if face = 0xFF then .nan false 0x08
  else if x = 2 ^ (eb + fb) then .nan false 0x07
  else if e = 0 then (if f = 0 then .zero false else .fin s f (1 - bias - (fb : Int) + sc) false)
  else .fin s (2 ^ fb + f) ((e : Int) - bias - (fb : Int) + sc) false

def decP8 (x face : Nat) : Val := decPip 4 3 x face
def decP4 (x face : Nat) : Val := decPip 2 1 x face

/-- An integer as a value. -/
def ofInt (n : Int) (e : Int) : Val :=
  if n = 0 then .zero false else .fin (decide (n < 0)) n.natAbs e false

/-- A two's complement integer of `w` bits. -/
def sInt (w x : Nat) : Int := if x < 2 ^ (w - 1) then (x : Int) else (x : Int) - 2 ^ w

/-- An I8, U8, I4 or U4 element. -/
def decInt (w : Nat) (signed : Bool) (x : Nat) : Val := ofInt (if signed then sInt w x else (x : Int)) 0

/-! ## Encoding (spec 02 R39 to R43) -/

/-- The fraction of a NaN. -/
def fracOfTag (fb tag : Nat) : Nat :=
  if fb = 7 then tag else if tag = 0x7F then 0x7FFFFF else 0x400000 + tag

/-- The sign bit of a format with `k` bits below it. -/
def signBit (neg : Bool) (k : Nat) : Nat := if neg then 2 ^ k else 0

/-- Encoding into T16 (`fb` = 7) or W32 (`fb` = 23) (R34, R39). -/
def encFloat (fb : Nat) (rm : Rm) (sat : Bool) (u : Nat) : Val → Nat × Fl
  | .zero s => (signBit s (8 + fb), 0)
  | .nan s t => (signBit s (8 + fb) + 255 * 2 ^ fb + fracOfTag fb t, 0)
  | .inf s =>
    (signBit s (8 + fb) + (if sat then 255 * 2 ^ fb - 1 else 255 * 2 ^ fb), 0)
  | .fin s m e st =>
    let (n, q) := roundSig (fb + 1) rm u m e st
    let x : Int := q + (fb : Int)
    if 127 < x then
      (signBit s (8 + fb) + (if sat then 255 * 2 ^ fb - 1 else 255 * 2 ^ fb), flOverflow)
    else if x < -126 then (signBit s (8 + fb), flUnderflow)
    else (signBit s (8 + fb) + (x + 127).toNat * 2 ^ fb + (n - 2 ^ fb), 0)

def encT16 (rm : Rm) (sat : Bool) (u : Nat) (v : Val) : Nat × Fl := encFloat 7 rm sat u v
def encW32 (rm : Rm) (sat : Bool) (u : Nat) (v : Val) : Nat × Fl := encFloat 23 rm sat u v

/-- A value rounded to 24 significant bits and brought into the W32X range, with no flag (spec 04 R71, R72, R74). -/
def roundX (rm : Rm) (u : Nat) : Val → Val
  | .fin s m e st =>
    let (n, q) := roundSig 24 rm u m e st
    let x : Int := q + 23
    if 511 < x then .fin s (2 ^ 24 - 1) 488 false
    else if x < -510 then .zero s
    else .fin s n q false
  | v => v

/-- The value rounded to 24 significant bits at unbounded exponent (spec 03 R59, step 3). -/
def round24 (v : Val) : Val :=
  match v with
  | .fin s m e st => let (n, q) := roundSig 24 .rne 0 m e st; .fin s n q false
  | v => v

/-- A W32X encoding of a value that `roundX` gave. -/
def encW32X (v : Val) : BitVec 34 :=
  match v with
  | .zero s => BitVec.ofNat 34 (signBit s 33)
  | .inf s => BitVec.ofNat 34 (signBit s 33 + 1023 * 2 ^ 23)
  | .nan s t => BitVec.ofNat 34 (signBit s 33 + 1023 * 2 ^ 23 + fracOfTag 23 t)
  | .fin s m e st =>
    let (n, q) := roundSig 24 .rtz 0 m e st
    BitVec.ofNat 34 (signBit s 33 + (q + 23 + 511).toNat * 2 ^ 23 + (n - 2 ^ 23))

/-- Encoding into an integer format of `w` bits (R41). -/
def encInt (w : Nat) (signed : Bool) (rm : Rm) (u : Nat) : Val → Nat × Fl :=
  let lo : Int := if signed then -(2 ^ (w - 1) : Nat) else 0
  let hi : Int := if signed then (2 ^ (w - 1) : Nat) - 1 else (2 ^ w : Nat) - 1
  let put (n : Int) : Nat := (n % (2 ^ w : Nat)).toNat
  fun v => match v with
  | .zero _ => (0, 0)
  | .nan _ _ => (0, flInvalid)
  | .inf s => (put (if s then lo else hi), flInvalid)
  | .fin s m e st =>
    let a : Int := (roundMag rm u m e st 0 : Nat)
    let n := if s then -a else a
    if n < lo then (put lo, flOverflow) else if hi < n then (put hi, flOverflow) else (put n, 0)

/-- The magnitude m·2^e compared with k·2^x: at most. -/
def magLe (m : Nat) (e : Int) (st : Bool) (k : Nat) (x : Int) : Bool :=
  let d := min e x
  let a := shl m (e - d)
  let b := shl k (x - d)
  if st then decide (a < b) else decide (a ≤ b)

/-- The face code of a block (R40, steps 1 and 2): `maxp` and the exponent of its leading bit. -/
def faceOf (maxp : Nat) (lead : Int) (vs : List Val) : Nat :=
  let best := vs.foldl (fun (b : Option (Nat × Int × Bool)) v =>
    match v, b with
    | .fin _ m e st, none => some (m, e, st)
    | .fin _ m e st, some (m', e', st') =>
      if magLe m e false m' e' && !(st && !st' && magLe m' e' false m e) then b else some (m, e, st)
    | _, b => b) none
  match best with
  | none => 0x7F
  | some (m, e, st) =>
    let x0 : Int := e + (bitLen m : Int) - 1 - lead
    let x := if magLe m e st maxp x0 then x0 else x0 + 1
    (max 0 (min 0xFE (x + 127))).toNat

/-- One pip element under a face code (R40, steps 3 to 6). -/
def encPip (eb fb maxp : Nat) (rm : Rm) (sat : Bool) (u face : Nat) : Val → Nat × Fl :=
  let nanCode := 2 ^ (eb + fb)
  let top := 2 ^ (eb + fb) - 1
  fun v => match v with
  | .zero _ => (0, 0)
  | .nan _ _ => (nanCode, 0)
  | .inf s => if sat then (signBit s (eb + fb) + top, 0) else (nanCode, flInvalid)
  | .fin s m e st =>
    let e' : Int := e - ((face : Int) - 127)
    let bias : Int := ((2 ^ (eb - 1) - 1 : Nat) : Int)
    let qmin : Int := 1 - bias - (fb : Int)
    let q : Int := max (e' + (bitLen m : Int) - 1 - (fb : Int)) qmin
    let n := roundMag rm u m e' st q
    if !magLe n q false maxp 0 then
      (if sat then (signBit s (eb + fb) + top, flOverflow) else (nanCode, flOverflow))
    else if n = 0 then (0, 0)
    else
      let (n, q) := if n = 2 ^ (fb + 1) then (n / 2, q + 1) else (n, q)
      let code := if n < 2 ^ fb then n else (q + (fb : Int) + bias).toNat * 2 ^ fb + (n - 2 ^ fb)
      (signBit s (eb + fb) + code, 0)

def faceP8 (vs : List Val) : Nat := faceOf 480 8 vs
def faceP4 (vs : List Val) : Nat := faceOf 6 2 vs
def encP8 (rm : Rm) (sat : Bool) (u face : Nat) (v : Val) : Nat × Fl := encPip 4 3 480 rm sat u face v
def encP4 (rm : Rm) (sat : Bool) (u face : Nat) (v : Val) : Nat × Fl := encPip 2 1 6 rm sat u face v

/-- The largest TL64 element (spec 02 R33). -/
def tlMax : Int := 2 ^ 63 - 1

/-- An integer brought into the TL64 range, and whether that changed it. -/
def tlClamp (n : Int) : Int × Bool :=
  if tlMax < n then (tlMax, true) else if n < -tlMax then (-tlMax, true) else (n, false)

/-- The flags of a TL64 header (Table 2-8). -/
def tlNan : Byte := 0x01#8
def tlPinf : Byte := 0x02#8
def tlNinf : Byte := 0x04#8
def tlSat : Byte := 0x08#8
def tlDoubling : Byte := 0x10#8

/-- A value onto a grid: the element, whether it is poisoned, and the header flags it sets (R42). -/
def encTl (g : Int) : Val → Int × Bool × Byte
  | .zero _ => (0, false, 0)
  | .nan _ _ => (0, true, tlNan)
  | .inf s => (0, true, if s then tlNinf else tlPinf)
  | .fin s m e st =>
    let a : Int := (roundMag .rne 0 m e st g : Nat)
    let (n, c) := tlClamp (if s then -a else a)
    (n, false, if c then tlSat else 0)

/-! ## Exact arithmetic (spec 02 R24 to R26, spec 05 R93, R96) -/

/-- A result and the tag of the NaN it created; 0 where it created none. -/
abbrev Res := Val × Nat

def mkNan (tag : Nat) : Res := (.nan false tag, tag)

def isNan : Val → Bool
  | .nan _ _ => true
  | _ => false

def vneg : Val → Val
  | .zero s => .zero !s
  | .fin s m e st => .fin (!s) m e st
  | .inf s => .inf !s
  | .nan s t => .nan (!s) t

def vsign : Val → Bool
  | .zero s => s
  | .fin s _ _ _ => s
  | .inf s => s
  | .nan s _ => s

/-- The exact product. -/
def mulV (a b : Val) : Res :=
  match a, b with
  | .nan _ _, _ => (a, 0)
  | _, .nan _ _ => (b, 0)
  | .inf _, .zero _ => mkNan 0x01
  | .zero _, .inf _ => mkNan 0x01
  | .fin s m e st, .fin s' m' e' st' => (.fin (s != s') (m * m') (e + e') (st || st'), 0)
  | .inf _, _ => (.inf (vsign a != vsign b), 0)
  | _, .inf _ => (.inf (vsign a != vsign b), 0)
  | _, _ => (.zero (vsign a != vsign b), 0)

/-- The exact sum of two finite values. -/
def addFin (s : Bool) (m : Nat) (e : Int) (s' : Bool) (m' : Nat) (e' : Int) : Val :=
  let d := min e e'
  let x : Int := if s then -(shl m (e - d) : Nat) else (shl m (e - d) : Nat)
  let y : Int := if s' then -(shl m' (e' - d) : Nat) else (shl m' (e' - d) : Nat)
  ofInt (x + y) d

/-- The exact sum (R25, R26). -/
def addV (a b : Val) : Res :=
  match a, b with
  | .nan _ _, _ => (a, 0)
  | _, .nan _ _ => (b, 0)
  | .inf s, .inf s' => if s = s' then (a, 0) else mkNan 0x02
  | .inf _, _ => (a, 0)
  | _, .inf _ => (b, 0)
  | .zero s, .zero s' => (.zero (s && s'), 0)
  | .zero _, _ => (b, 0)
  | _, .zero _ => (a, 0)
  | .fin s m e _, .fin s' m' e' _ => (addFin s m e s' m' e', 0)

/-- The difference, where a NaN second operand keeps its sign (Table 5-6). -/
def subV (a b : Val) : Res := addV a (if isNan b then b else vneg b)

/-- The fused product and sum. A NaN operand comes first in operand order (R25), before a NaN that the product creates. -/
def fmaV (a b c : Val) : Res :=
  if isNan a then (a, 0) else if isNan b then (b, 0) else if isNan c then (c, 0)
  else
    let (p, t) := mulV a b
    if t = 0 then addV p c else (p, t)

/-- The quotient to 128 bits, with whether something remains. -/
def divFin (m : Nat) (e : Int) (m' : Nat) (e' : Int) : Nat × Int × Bool :=
  let k := 128 + bitLen m'
  let n := m * 2 ^ k
  (n / m', e - e' - (k : Int), n % m' != 0)

/-- The quotient (Table 5-6). -/
def divV (a b : Val) : Res :=
  let s := vsign a != vsign b
  match a, b with
  | .nan _ _, _ => (a, 0)
  | _, .nan _ _ => (b, 0)
  | .zero _, .zero _ => mkNan 0x03
  | .inf _, .inf _ => mkNan 0x0A
  | .inf _, _ => (.inf s, 0)
  | _, .inf _ => (.zero s, 0)
  | .zero _, _ => (.zero s, 0)
  | _, .zero _ => (.inf s, 0)
  | .fin _ m e _, .fin _ m' e' _ =>
    let (q, x, st) := divFin m e m' e'
    (.fin s q x st, 0)

/-- The integer square root by binary digits. -/
def isqrtAux : Nat → Nat → Nat → Nat
  | 0, _, r => r
  | k + 1, n, r => if (r + 2 ^ k) * (r + 2 ^ k) ≤ n then isqrtAux k n (r + 2 ^ k) else isqrtAux k n r

/-- The square root of a finite magnitude to about 128 bits, with whether something remains. -/
def sqrtFin (m : Nat) (e : Int) : Nat × Int × Bool :=
  let k : Nat := 256 + (if (e - 256) % 2 = 0 then 0 else 1)
  let n := m * 2 ^ k
  let r := isqrtAux ((bitLen n + 1) / 2 + 1) n 0
  (r, (e - (k : Int)) / 2, r * r != n)

/-- The square root (Table 5-6). -/
def sqrtV : Val → Res
  | .nan s t => (.nan s t, 0)
  | .zero s => (.zero s, 0)
  | .inf s => if s then mkNan 0x04 else (.inf false, 0)
  | .fin s m e _ =>
    if s then mkNan 0x04
    else let (r, x, st) := sqrtFin m e; (.fin false r x st, 0)

/-- Comparison of two values that are not NaN: an integer below, at or above zero; zeros of either sign are equal. -/
def cmpV (a b : Val) : Int :=
  let key : Val → Int × Nat × Int := fun v => match v with
    | .zero _ => (0, 0, 0)
    | .inf s => (if s then -2 else 2, 0, 0)
    | .fin s m e _ => (if s then -1 else 1, m, e)
    | .nan _ _ => (0, 0, 0)
  let (ka, ma, ea) := key a
  let (kb, mb, eb) := key b
  if ka ≠ kb then ka - kb
  else if ka = 0 ∨ ka = 2 ∨ ka = -2 then 0
  else
    let d := min ea eb
    let x : Int := (shl ma (ea - d) : Nat)
    let y : Int := (shl mb (eb - d) : Nat)
    if ka = 1 then x - y else y - x

/-- The lesser, −0 below +0 (Table 5-6). -/
def minV (a b : Val) : Val :=
  if isNan a then a else if isNan b then b
  else
    let c := cmpV a b
    if c < 0 then a else if 0 < c then b else if vsign a then a else if vsign b then b else a

/-- The greater, +0 above −0 (Table 5-6). -/
def maxV (a b : Val) : Val :=
  if isNan a then a else if isNan b then b
  else
    let c := cmpV a b
    if 0 < c then a else if c < 0 then b else if !vsign a then a else if !vsign b then b else a

/-! ## Philox-4x32-10 (spec 02 R36) -/

/-- One round on (c0, c1, c2, c3) with the key of the round. -/
def philoxRound (c : Nat × Nat × Nat × Nat) (k0 k1 : Nat) : Nat × Nat × Nat × Nat :=
  let (c0, c1, c2, c3) := c
  let p0 := 0xD2511F53 * c0
  let p1 := 0xCD9E8D57 * c2
  ((p1 / 2 ^ 32) ^^^ c1 ^^^ k0, p1 % 2 ^ 32, (p0 / 2 ^ 32) ^^^ c3 ^^^ k1, p0 % 2 ^ 32)

/-- `n` rounds, the key rising after each. -/
def philoxRounds : Nat → Nat × Nat × Nat × Nat → Nat → Nat → Nat × Nat × Nat × Nat
  | 0, c, _, _ => c
  | n + 1, c, k0, k1 =>
    philoxRounds n (philoxRound c k0 k1) ((k0 + 0x9E3779B9) % 2 ^ 32) ((k1 + 0xBB67AE85) % 2 ^ 32)

/-- The generator with the key and counter of Table 2-10. -/
def philox (seed : BitVec 128) (stream x y z : Nat) : Nat × Nat × Nat × Nat :=
  let s := seed.toNat
  philoxRounds 10
    (x % 2 ^ 32, y % 2 ^ 32, (z % 2 ^ 32) ^^^ nbits s 95 64, (stream % 2 ^ 32) ^^^ nbits s 127 96)
    (nbits s 31 0) (nbits s 63 32)

/-- The stream identifier of Table 2-11: the use in bits [31:28], the stream field below. -/
def streamId (use field : Nat) : Nat := use * 2 ^ 28 + field % 2 ^ 28

/-- Word 0 of the draw. -/
def draw (seed : BitVec 128) (use field x y z : Nat) : Nat := (philox seed (streamId use field) x y z).1

end Sys2Proof.Machine
end

