-- ==== Sys2Proof/Machine/Approx.lean ====
section
/-!
DEFINITION. The functions that spec 05 R97 and spec 06 R121 (NORMAL) give within a bound: the exact result to about 100
bits in fixed point, and the one fixed function of the hardware as a free value that lies within the bound (log entry 7).
-/
namespace Sys2Proof.Machine

/-- Fractional bits of the fixed-point evaluation. -/
def fpP : Nat := 384

/-- One in fixed point. -/
def fpOne : Int := 2 ^ fpP

def fpMul (a b : Int) : Int := a * b / fpOne
def fpDiv (a b : Int) : Int := a * fpOne / b

/-- A power series by its term ratio: the sum of terms t, t·r(k), t·r(k)·r(k+1) and so on. -/
def fpSeries (ratio : Nat → Int → Int) : Nat → Nat → Int → Int → Int
  | 0, _, _, acc => acc
  | f + 1, k, t, acc => let t' := ratio k t; fpSeries ratio f (k + 1) t' (acc + t')

/-- e^r by its series, for a small r. -/
def fpExpSmall (r : Int) : Int := fpSeries (fun k t => fpMul t r / ((k : Int) + 1)) 120 0 fpOne fpOne

/-- The inverse hyperbolic tangent of z by its odd powers, for |z| at most 1/3. -/
def fpAtanh (z : Int) : Int :=
  let z2 := fpMul z z
  let rec go : Nat → Nat → Int → Int → Int
    | 0, _, _, acc => acc
    | f + 1, k, p, acc => go f (k + 2) (fpMul p z2) (acc + p / ((k : Int)))
  go 140 1 z 0

/-- The inverse tangent of 1/n by its odd powers. -/
def fpAtanInv (n : Int) : Int :=
  let rec go : Nat → Nat → Int → Int → Int
    | 0, _, _, acc => acc
    | f + 1, k, p, acc => go f (k + 2) (-(p / (n * n))) (acc + p / ((k : Int)))
  go 300 1 (fpOne / n) 0

/-- ln 2 and π in fixed point. -/
def fpLn2 : Int := 2 * fpAtanh (fpOne / 3)
def fpPi : Int := 4 * (4 * fpAtanInv 5 - fpAtanInv 239)

/-- The square root in fixed point. -/
def fpSqrt (x : Int) : Int :=
  let n := (x * fpOne).toNat
  (isqrtAux ((bitLen n + 1) / 2 + 1) n 0 : Nat)

/-- A finite value in fixed point, held within ±2^17 (beyond that every encoding of the results below is the same). -/
def fpOf (s : Bool) (m : Nat) (e : Int) : Int :=
  let a : Int := if 17 ≤ e + (bitLen m : Int) then 2 ^ 17 * fpOne else (roundMag .rtz 0 m e false (-(fpP : Int)) : Nat)
  if s then -a else a

/-- A reference result: an integer times a power of two. -/
abbrev Ref := Int × Int

/-- e^x and 2^x for x in fixed point. -/
def refExp (x : Int) : Ref := (fpExpSmall (x % fpLn2), x / fpLn2 - (fpP : Int))
def refExp2 (x : Int) : Ref := (fpExpSmall (fpMul (x % fpOne) fpLn2), x / fpOne - (fpP : Int))

/-- ln of a positive m·2^e. -/
def refLn (m : Nat) (e : Int) : Int :=
  let l := bitLen m
  let f : Int := (roundMag .rtz 0 m (1 - (l : Int)) false (-(fpP : Int)) : Nat)
  (e + (l : Int) - 1) * fpLn2 + 2 * fpAtanh (fpDiv (f - fpOne) (f + fpOne))

/-- A reference result as an integer quotient p/q of positive q, to 384 bits. -/
def refQuot (p q : Int) : Ref :=
  let k := fpP + bitLen q.natAbs
  (p * 2 ^ k / q, -(k : Int))

/-- tanh x for x in fixed point and not tiny. -/
def refTanh (x : Int) : Ref :=
  let a : Int := x.natAbs
  if 1000 * fpOne ≤ a then (if x < 0 then -1 else 1, 0)
  else
    let (m, k) := refExp (2 * a)
    let p : Int := if 0 ≤ k then m * 2 ^ k.toNat else m
    let q : Int := if 0 ≤ k then 1 else 2 ^ (-k).toNat
    let (n, y) := refQuot (p - q) (p + q)
    (if x < 0 then -n else n, y)

/-- 1/(1 + e^−x) for x in fixed point. -/
def refSigmoid (x : Int) : Ref :=
  let (m, k) := refExp (x.natAbs : Int)
  let p : Int := if 0 ≤ k then m * 2 ^ k.toNat else m
  let q : Int := if 0 ≤ k then 1 else 2 ^ (-k).toNat
  if x < 0 then refQuot q (p + q) else refQuot p (p + q)

/-- x·Φ(x) for x in fixed point: x itself above 14, 0 below −14 (where the bound is absolute). -/
def refGelu (x : Int) : Ref :=
  if 14 * fpOne < x then (x, -(fpP : Int))
  else if x < -(14 * fpOne) then (0, 0)
  else
    let x2 := fpMul x x
    let rec go : Nat → Nat → Int → Int → Int
      | 0, _, _, acc => acc
      | f + 1, n, p, acc => go f (n + 1) (-(fpMul p x2) / (2 * ((n : Int) + 1))) (acc + p / (2 * (n : Int) + 1))
    let s := go 700 0 x 0
    let phi := fpOne / 2 + fpDiv s (fpSqrt (2 * fpPi))
    (fpMul x phi, -(fpP : Int))

/-- cos of an angle in fixed point, from −7 to 7. -/
def fpCos (x : Int) : Int :=
  let x2 := fpMul x x
  fpSeries (fun k t => -(fpMul t x2) / ((2 * (k : Int) + 1) * (2 * (k : Int) + 2))) 120 0 fpOne fpOne

/-- The bound within which the result lies: in units of the last place, or absolute as a power of two. -/
inductive Bound where
  | ulps (n : Nat)
  | absolute (k : Int)
deriving DecidableEq, Repr

/-- The magnitude of a reference as significant bits, for its unit in the last place. -/
def refUlp (r : Ref) : Int := r.2 + (bitLen r.1.natAbs : Int) - 24

/-- Whether s·m·2^e lies within the bound of the reference, to within the reference's own error of 2^−80 of the bound. -/
def within (b : Bound) (r : Ref) (s : Bool) (m : Nat) (e : Int) : Bool :=
  let lim : Int × Int := match b with
    | .ulps n => (((n * 2 ^ 80 + 1 : Nat) : Int), refUlp r - 80)
    | .absolute k => (2 ^ 80 + 1, k - 80)
  let d := min (min r.2 e) lim.2
  let y := r.1 * 2 ^ (r.2 - d).toNat
  let c : Int := (m * 2 ^ (e - d).toNat : Nat)
  let z := (if s then -c else c) - y
  decide ((z.natAbs : Int) ≤ lim.1 * 2 ^ (lim.2 - d).toNat)

/-- The one fixed function: a 24-bit significand and exponent that the hardware's designers chose, within the bound; where
the free pick is not within it, the nearest value. A value of this shape lies within the bound for every pick. -/
def approxV (fn key : Nat) (b : Bound) (r : Ref) : Val :=
  let p := Config.approxPick fn key
  let m := p % 2 ^ 24
  let s := nbit p 24
  let e : Int := sInt 24 (p / 2 ^ 25 % 2 ^ 24)
  let near : Val := match ofInt r.1 r.2 with
    | .fin s m e _ => let (n, q) := roundSig 24 .rne 0 m e false; .fin s n q false
    | v => v
  if -400000 ≤ e ∧ e ≤ 400000 ∧ within b r s m e then (if m = 0 then .zero false else .fin s m e false) else near

/-- RECIP, RSQRT and functions 0x0C to 0x12 of Table 5-6, with their special values and the bounds of Table 5-7. -/
def approxFn (fn key : Nat) (x : Val) : Res :=
  match x with
  | .nan _ _ => (x, 0)
  | _ =>
  let neg := vsign x
  match fn with
  | 0x09 => match x with
    | .zero s => (.inf s, 0)
    | .inf s => (.zero s, 0)
    | .fin s m e _ =>
      let (q, y, _) := divFin 1 0 m e
      (approxV fn key (.ulps 1) (if s then -(q : Int) else (q : Int), y), 0)
    | v => (v, 0)
  | 0x0B => match x with
    | .zero s => (.inf s, 0)
    | .inf s => if s then mkNan 0x04 else (.zero false, 0)
    | .fin s m e _ =>
      if s then mkNan 0x04
      else
        let (r, y, _) := sqrtFin m e
        let (q, z, _) := divFin 1 0 r y
        (approxV fn key (.ulps 1) ((q : Int), z), 0)
    | v => (v, 0)
  | 0x0C | 0x0D => match x with
    | .inf s => (if s then .zero false else .inf false, 0)
    | .fin s m e _ =>
      let r := if fn = 0x0C then refExp (fpOf s m e) else refExp2 (fpOf s m e)
      (approxV fn key (.ulps (if fn = 0x0C then 2 else 1)) r, 0)
    | _ => (approxV fn key (.ulps (if fn = 0x0C then 2 else 1)) (1, 0), 0)
  | 0x0E | 0x0F => match x with
    | .zero _ => (.inf true, 0)
    | .inf s => if s then mkNan 0x05 else (.inf false, 0)
    | .fin _ m e _ =>
      if neg then mkNan 0x05
      else
        let l := refLn m e
        let r : Ref := if fn = 0x0E then (l, -(fpP : Int)) else (fpDiv l fpLn2, -(fpP : Int))
        let inside := magLe 1 (-1) false m e && magLe m e false 2 0
        (approxV fn key (if inside then .absolute (-22) else .ulps 2) r, 0)
    | v => (v, 0)
  | 0x10 => match x with
    | .inf s => (.fin s 1 0 false, 0)
    | .zero s => (.zero s, 0)
    | .fin s m e _ =>
      let r : Ref := if e + (bitLen m : Int) < -60 then (if s then -(m : Int) else (m : Int), e) else refTanh (fpOf s m e)
      (approxV fn key (.ulps 2) r, 0)
    | v => (v, 0)
  | 0x11 => match x with
    | .inf s => (if s then .zero false else .fin false 1 0 false, 0)
    | .zero _ => (approxV fn key (.ulps 2) (1, -1), 0)
    | .fin s m e _ => (approxV fn key (.ulps 2) (refSigmoid (fpOf s m e)), 0)
    | v => (v, 0)
  | _ => match x with
    | .inf s => (if s then .zero true else .inf false, 0)
    | .zero s => (.zero s, 0)
    | .fin s m e _ =>
      let r : Ref :=
        if e + (bitLen m : Int) < -60 then (if s then -(m : Int) else (m : Int), e - 1)
        else if 17 ≤ e + (bitLen m : Int) then (if s then (0, 0) else ((m : Int), e))
        else refGelu (fpOf s m e)
      let below := neg && !magLe m e false 4 0
      (approxV fn key (if below then .absolute (-30) else .ulps 4) r, 0)
    | v => (v, 0)

/-- RNG NORMAL (spec 06 Table 6-4): √(−2 ln a)·cos(2πb) with a = (u + 1)·2^−32 and b = u'·2^−32, within 4 ulp. -/
def normalV (u u' : Nat) : Val :=
  let l := refLn (u + 1) (-32)
  let c := if u' = 2 ^ 30 ∨ u' = 3 * 2 ^ 30 then 0 else fpCos (2 * fpPi * (u' : Int) / 2 ^ 32)
  let r : Ref := (fpMul (fpSqrt (-2 * l)) c, -(fpP : Int))
  if r.1 = 0 then .zero false else approxV 0x82 (u * 2 ^ 32 + u') (.ulps 4) r

end Sys2Proof.Machine
end

