-- ==== Sys2Proof/Machine/Fields.lean ====
section
/-!
DEFINITION. The fields of the registers, named after the tables of the spec that give them.
-/
namespace Sys2Proof.Machine

/-! PWC.CLK_FAULT (Table 1-8) -/

/-- FIRST_DOMAIN. -/
def clkFaultFirstDomain : Fld := (23, 16)
/-- ACLK_DIES. -/
def clkFaultAclkDies : Fld := (15, 8)
/-- AON_FALLBACK. -/
def clkFaultAonFallback : Fld := (7, 7)
/-- REF_LOST. -/
def clkFaultRefLost : Fld := (6, 6)
/-- FCLK_LOST. -/
def clkFaultFclkLost : Fld := (5, 5)
/-- GCLK_LOST. -/
def clkFaultGclkLost : Fld := (4, 4)
/-- AON_LOST. -/
def clkFaultAonLost : Fld := (3, 3)
/-- ACLK_LOST. -/
def clkFaultAclkLost : Fld := (2, 2)
/-- MCLK_LOST. -/
def clkFaultMclkLost : Fld := (1, 1)

/-! MXA.DESC_BASE (one per compute die) (Table 3-2) -/

/-- BASE. -/
def descBaseBase : Fld := (27, 12)

/-! MXA.TSW0 and MXA.TSW1 (Table 3-8) -/

/-- INV_COUNT. -/
def tswInvCount : Fld := (31, 16)
/-- BUSY. -/
def tswBusy : Fld := (7, 7)
/-- TALLY. -/
def tswTally : Fld := (6, 6)
/-- NANPROP. -/
def tswNanprop : Fld := (5, 5)
/-- POISONED. -/
def tswPoisoned : Fld := (4, 4)
/-- SATURATED. -/
def tswSaturated : Fld := (3, 3)
/-- UNDERFLOW. -/
def tswUnderflow : Fld := (2, 2)
/-- OVERFLOW. -/
def tswOverflow : Fld := (1, 1)
/-- INVALID. -/
def tswInvalid : Fld := (0, 0)

/-! MXA.EXC (one per compute die) (Table 3-9) -/

/-- VALID. -/
def mxaExcValid : Fld := (63, 63)
/-- CAUSE. -/
def mxaExcCause : Fld := (62, 61)
/-- BANK. -/
def mxaExcBank : Fld := (60, 60)
/-- EPI. -/
def mxaExcEpi : Fld := (59, 59)
/-- K. -/
def mxaExcK : Fld := (58, 39)
/-- ROW. -/
def mxaExcRow : Fld := (38, 30)
/-- COL. -/
def mxaExcCol : Fld := (29, 21)
/-- PC. -/
def mxaExcPc : Fld := (15, 0)

/-! MXA.TGRID (one per compute die) (Table 4-3) -/

/-- VALID. -/
def tgridValid : Fld := (16, 16)
/-- GRID. -/
def tgridGrid : Fld := (15, 0)

/-! VXE.STAT (one per compute die) (Table 5-9) -/

/-- SKIPPED. -/
def vxeStatSkipped : Fld := (7, 7)
/-- NANPROP. -/
def vxeStatNanprop : Fld := (6, 6)
/-- POISONED. -/
def vxeStatPoisoned : Fld := (5, 5)
/-- OOR. -/
def vxeStatOor : Fld := (4, 4)
/-- EMPTY. -/
def vxeStatEmpty : Fld := (3, 3)
/-- UNDERFLOW. -/
def vxeStatUnderflow : Fld := (2, 2)
/-- OVERFLOW. -/
def vxeStatOverflow : Fld := (1, 1)
/-- INVALID. -/
def vxeStatInvalid : Fld := (0, 0)

/-! VXE.EXC (one per compute die) (Table 5-10) -/

/-- VALID. -/
def vxeExcValid : Fld := (63, 63)
/-- TAG. -/
def vxeExcTag : Fld := (62, 56)
/-- LANE. -/
def vxeExcLane : Fld := (55, 44)
/-- OPC. -/
def vxeExcOpc : Fld := (39, 32)
/-- FN. -/
def vxeExcFn : Fld := (31, 24)
/-- PC. -/
def vxeExcPc : Fld := (15, 0)

/-! SEQ.FAULT (one per compute die) (Table 6-8) -/

/-- VALID. -/
def seqFaultValid : Fld := (63, 63)
/-- CAUSE. -/
def seqFaultCause : Fld := (55, 48)
/-- OPC. -/
def seqFaultOpc : Fld := (47, 40)
/-- FN. -/
def seqFaultFn : Fld := (39, 32)
/-- ENGINE. -/
def seqFaultEngine : Fld := (31, 24)
/-- PC. -/
def seqFaultPc : Fld := (23, 0)

/-! SPAD.ECC (one per compute die); HUBSRAM.ECC has the same layout (Table 7-1) -/

/-- UE_COUNT. -/
def eccUeCount : Fld := (63, 32)
/-- CE_COUNT. -/
def eccCeCount : Fld := (31, 0)

/-! SPAD.UE (one per compute die); HUBSRAM.UE has the same layout (Table 7-2) -/

/-- VALID. -/
def spadUeValid : Fld := (63, 63)
/-- WORD. -/
def spadUeWord : Fld := (27, 3)

/-! TWIN.COLLIDE (one per compute die) (Table 7-4) -/

/-- POISONED. -/
def collidePoisoned : Fld := (63, 32)
/-- BUSY. -/
def collideBusy : Fld := (31, 0)

/-! STK.UE (one per stack) (Table 8-3) -/

/-- VALID. -/
def stkUeValid : Fld := (63, 63)
/-- GROUP. -/
def stkUeGroup : Fld := (38, 8)

/-! STK.SCRUB (one per stack) (Table 8-4) -/

/-- PERIOD_H. -/
def scrubPeriodH : Fld := (23, 16)
/-- PASSES. -/
def scrubPasses : Fld := (15, 0)

/-! STK.CFG (one per stack) (Table 8-5) -/

/-- ERASE_LIMIT. -/
def stkCfgEraseLimit : Fld := (15, 8)
/-- DECODE. -/
def stkCfgDecode : Fld := (1, 0)

/-! STK.STATUS (one per stack) (Table 8-9) -/

/-- ERASED_DIE. -/
def stkErasedDie : Fld := (23, 20)
/-- ERASED. -/
def stkErased : Fld := (19, 19)
/-- LOST. -/
def stkLost : Fld := (18, 18)
/-- RATE. -/
def stkRate : Fld := (17, 16)
/-- LOST_CAUSE. -/
def stkLostCause : Fld := (15, 8)

/-! FAB.BUNDLE_STATUS (one per bundle, HB and NB) (Table 9-5) -/

/-- STATE. -/
def bunState : Fld := (31, 28)
/-- HALF_SEL. -/
def bunHalfSel : Fld := (27, 27)
/-- SPARES_FREE. -/
def bunSparesFree : Fld := (26, 24)
/-- LAST_LANE. -/
def bunLastLane : Fld := (23, 16)
/-- CASTLE_COUNT. -/
def bunCastleCount : Fld := (15, 8)

/-! FAB.LANE_MAP (one per bundle) (Table 9-6) -/

/-- S3. -/
def laneMapS3 : Fld := (31, 24)
/-- S2. -/
def laneMapS2 : Fld := (23, 16)
/-- S1. -/
def laneMapS1 : Fld := (15, 8)
/-- S0. -/
def laneMapS0 : Fld := (7, 0)

/-! FAB.BUNDLE_ERR (one per bundle) (Table 9-7) -/

/-- REPLAYS. -/
def bunErrReplays : Fld := (63, 32)
/-- CRC_ERR. -/
def bunErrCrcErr : Fld := (31, 0)

/-! FAB.DIE_STATE (one per compute die) (Table 9-8) -/

/-- NB_HALVES. -/
def dieNbHalves : Fld := (28, 24)
/-- HB_HALVES. -/
def dieHbHalves : Fld := (21, 16)
/-- CAUSE. -/
def dieCause : Fld := (15, 8)
/-- STATE. -/
def dieState : Fld := (3, 0)

/-! FAB.CASTLE_CFG (one per package) (Table 9-9) -/

/-- AUTO. -/
def castleAuto : Fld := (30, 30)
/-- CRC_LIMIT. -/
def castleCrcLimit : Fld := (23, 16)
/-- CONSEC. -/
def castleConsec : Fld := (15, 12)
/-- MARGIN_MIN. -/
def castleMarginMin : Fld := (7, 0)

/-! TERTI.PORT_CFG (one per port) (Table 10-13) -/

/-- QUAR_LIMIT. -/
def portQuarLimit : Fld := (31, 24)
/-- GRACE. -/
def portGrace : Fld := (23, 16)
/-- VC_EN. -/
def portVcEn : Fld := (15, 8)
/-- MAX_MSG. -/
def portMaxMsg : Fld := (7, 4)
/-- RATE. -/
def portRate : Fld := (3, 2)
/-- ENABLE. -/
def portEnable : Fld := (1, 1)

/-! TERTI.PORT_STATUS (one per port) (Table 10-14) -/

/-- STATE. -/
def pstState : Fld := (31, 28)
/-- LAMBDA_UP. -/
def pstLambdaUp : Fld := (27, 20)
/-- LAMBDA_AGING. -/
def pstLambdaAging : Fld := (19, 12)
/-- RATE_ACT. -/
def pstRateAct : Fld := (11, 10)

/-! TERTI.PORT_PARTNER (one per port) (Table 10-15) -/

/-- SEEN. -/
def partnerSeen : Fld := (63, 32)
/-- EXPECT. -/
def partnerExpect : Fld := (31, 0)

/-! TERTI.VC_WEIGHT (one per port) (Table 10-16) -/

/-- FILL. -/
def weightFill : Fld := (23, 20)
/-- SP. -/
def weightSp : Fld := (19, 16)
/-- TP. -/
def weightTp : Fld := (15, 12)
/-- DP. -/
def weightDp : Fld := (11, 8)
/-- BWD. -/
def weightBwd : Fld := (7, 4)
/-- FWD. -/
def weightFwd : Fld := (3, 0)

/-! TERTI.VLOG_STAT (one per port) (Table 10-17) -/

/-- TOTAL. -/
def vlogTotal : Fld := (63, 32)
/-- NACK_DROPPED. -/
def vlogNackDropped : Fld := (31, 16)
/-- WINDOW_WEIGHT. -/
def vlogWindowWeight : Fld := (15, 8)

/-! TERTI.LINK_ERR (one per port) (Table 10-18) -/

/-- FEC_UNCORR. -/
def linkErrFecUncorr : Fld := (63, 48)
/-- CRC_ERR. -/
def linkErrCrcErr : Fld := (47, 32)
/-- REPLAYS. -/
def linkErrReplays : Fld := (31, 16)
/-- RETRAINS. -/
def linkErrRetrains : Fld := (15, 0)

/-! JOB.ROLE0–JOB.ROLE3 (Table 11-3) -/

/-- ROLE_EPOCH. -/
def roleRoleEpoch : Fld := (63, 32)
/-- VALID. -/
def roleValid : Fld := (31, 31)
/-- STAGE. -/
def roleStage : Fld := (15, 0)

/-! GRP.STATUS0–GRP.STATUS63 (Table 11-6) -/

/-- GROUP. -/
def grpGroup : Fld := (31, 16)
/-- CAUSE. -/
def grpCause : Fld := (11, 8)
/-- STAGED. -/
def grpStaged : Fld := (7, 7)
/-- STATE. -/
def grpState : Fld := (3, 0)

/-! MBQ.STASH_CFG0–MBQ.STASH_CFG3 (Table 11-7) -/

/-- BUDGET. -/
def stashCfgBudget : Fld := (63, 32)
/-- PER_MB_INIT. -/
def stashCfgPerMbInit : Fld := (31, 0)

/-! MBQ.STASH_USE0–MBQ.STASH_USE3 (Table 11-8) -/

/-- PEAK. -/
def stashUsePeak : Fld := (63, 32)
/-- USED. -/
def stashUseUsed : Fld := (31, 0)

/-! MBQ.STASH_MB0–MBQ.STASH_MB3 (Table 11-9) -/

/-- PER_MB_MAX. -/
def stashMbPerMbMax : Fld := (63, 32)
/-- OVERRUN. -/
def stashMbOverrun : Fld := (31, 16)

/-! SLE.UP0–SLE.UP3 and SLE.DOWN0–SLE.DOWN3 (Table 12-1) -/

/-- STATE. -/
def sleState : Fld := (127, 124)
/-- EPOCH. -/
def sleEpoch : Fld := (95, 64)
/-- PARTNER. -/
def slePartner : Fld := (63, 32)
/-- PORT3. -/
def slePort3 : Fld := (31, 24)
/-- PORT2. -/
def slePort2 : Fld := (23, 16)
/-- PORT1. -/
def slePort1 : Fld := (15, 8)
/-- PORT0. -/
def slePort0 : Fld := (7, 0)

/-! MBQ.ROLE_CFG0–MBQ.ROLE_CFG3 (Table 12-3) -/

/-- SCHED. -/
def rcfgSched : Fld := (63, 62)
/-- VMODE. -/
def rcfgVmode : Fld := (61, 61)
/-- FQ_DEPTH. -/
def rcfgFqDepth : Fld := (60, 56)
/-- BQ_DEPTH. -/
def rcfgBqDepth : Fld := (55, 51)
/-- FSEM. -/
def rcfgFsem : Fld := (50, 44)
/-- BSEM. -/
def rcfgBsem : Fld := (43, 37)
/-- DIES. -/
def rcfgDies : Fld := (36, 33)
/-- MB_PER_STEP. -/
def rcfgMbPerStep : Fld := (31, 16)
/-- WARMUP. -/
def rcfgWarmup : Fld := (15, 0)

/-! MBQ.FPAY0–MBQ.FPAY3 and MBQ.BPAY0–MBQ.BPAY3 (Table 12-4) -/

/-- SPILL. -/
def paySpill : Fld := (63, 40)
/-- HUB_BASE. -/
def payHubBase : Fld := (39, 24)
/-- HUB_KIB. -/
def payHubKib : Fld := (23, 12)
/-- SEG. -/
def paySeg : Fld := (11, 8)
/-- ENTRY_MIB. -/
def payEntryMib : Fld := (7, 0)

/-! MBQ.STEP_STAT0–MBQ.STEP_STAT3 (Table 12-10) -/

/-- STEP. -/
def stepStep : Fld := (127, 96)
/-- F. -/
def stepF : Fld := (95, 80)
/-- B. -/
def stepB : Fld := (79, 64)
/-- DONE. -/
def stepDone : Fld := (63, 48)
/-- DROPPED. -/
def stepDropped : Fld := (47, 32)
/-- LAST_DONE. -/
def stepLastDone : Fld := (31, 16)
/-- LAST_DROPPED. -/
def stepLastDropped : Fld := (15, 0)

/-! MBQ.STASH_AREA0–MBQ.STASH_AREA3 (one per compute die) (Table 12-12) -/

/-- FIRST. -/
def areaFirst : Fld := (24, 16)
/-- COUNT. -/
def areaCount : Fld := (7, 0)

/-! MBQ.BASE (Table 12-13) -/

/-- IDX. -/
def mbqBaseIdx : Fld := (63, 40)
/-- SLOT. -/
def mbqBaseSlot : Fld := (39, 24)
/-- DROP_TOTAL. -/
def mbqBaseDropTotal : Fld := (23, 0)

/-! WVT.ROLE_RANGE0–WVT.ROLE_RANGE3 (Table 12-14) -/

/-- FIRST. -/
def rangeFirst : Fld := (27, 16)
/-- COUNT. -/
def rangeCount : Fld := (12, 0)

/-! WVT.CFG (Table 12-16) -/

/-- FALLBACKS. -/
def wvtFallbacks : Fld := (31, 16)
/-- GATHER_LIMIT. -/
def wvtGatherLimit : Fld := (15, 0)

/-! SLE.SPBUF0–SLE.SPBUF3 (Table 12-18) -/

/-- HUB_BASE. -/
def spbufHubBase : Fld := (47, 32)
/-- DIES. -/
def spbufDies : Fld := (31, 28)
/-- SEM. -/
def spbufSem : Fld := (26, 20)
/-- LIMIT_KIB. -/
def spbufLimitKib : Fld := (19, 0)

/-! TLY.CFG (one per package) (Table 13-5) -/

/-- CHECK_EN. -/
def tlyCfgCheckEn : Fld := (30, 30)
/-- CHECK_N. -/
def tlyCfgCheckN : Fld := (25, 13)

/-! TLY.STAGING (one per package) (Table 13-6) -/

/-- HUB_BASE. -/
def stagingHubBase : Fld := (39, 24)
/-- SIZE_KIB. -/
def stagingSizeKib : Fld := (23, 0)

/-! TLY.STAT (one per package) (Table 13-7) -/

/-- REROLLS. -/
def tlyStatRerolls : Fld := (63, 48)
/-- PREROLLS. -/
def tlyStatPrerolls : Fld := (47, 32)
/-- RESTARTS. -/
def tlyStatRestarts : Fld := (31, 16)
/-- ABSENT. -/
def tlyStatAbsent : Fld := (15, 0)

/-! TLY.CHECK (one per package) (Table 13-8) -/

/-- MISMATCH. -/
def tlyCheckMismatch : Fld := (63, 32)
/-- CHECKED. -/
def tlyCheckChecked : Fld := (31, 0)

/-! FR.BUDDY (one per package) (Table 14-4) -/

/-- BUDDY_POS. -/
def buddyBuddyPos : Fld := (63, 32)
/-- PORT. -/
def buddyPort : Fld := (31, 24)
/-- BUDDY_FEED. -/
def buddyBuddyFeed : Fld := (23, 16)
/-- STATE. -/
def buddyState : Fld := (15, 12)
/-- SLOTS. -/
def buddySlots : Fld := (11, 10)

/-! FR.COPY0–FR.COPY3 (one per role slot) (Table 14-5) -/

/-- COMPLETE. -/
def copyComplete : Fld := (63, 32)
/-- DRAIN. -/
def copyDrain : Fld := (31, 0)

/-! FR.DECISION0–FR.DECISION3 (one per role slot) (Table 14-9) -/

/-- STEP. -/
def decisionStep : Fld := (63, 32)
/-- STATE. -/
def decisionState : Fld := (31, 28)
/-- CAUSE. -/
def decisionCause : Fld := (27, 24)
/-- ATTEMPT. -/
def decisionAttempt : Fld := (23, 16)
/-- ANCHOR. -/
def decisionAnchor : Fld := (0, 0)

/-! FR.CFG (one per package) (Table 14-10) -/

/-- VOTE_LIMIT. -/
def frCfgVoteLimit : Fld := (31, 16)
/-- DECIDE_WAIT. -/
def frCfgDecideWait : Fld := (15, 8)
/-- FILL_LIMIT. -/
def frCfgFillLimit : Fld := (7, 0)

/-! HOST.SQ_CFG0–HOST.SQ_CFG31 (Table 15-6) -/

/-- ENABLE. -/
def sqCfgEnable : Fld := (31, 31)
/-- CQ. -/
def sqCfgCq : Fld := (28, 24)
/-- LOG2SIZE. -/
def sqCfgLog2size : Fld := (20, 16)

/-! HOST.CQ_CFG0–HOST.CQ_CFG31 (Table 15-7) -/

/-- ENABLE. -/
def cqCfgEnable : Fld := (31, 31)
/-- VECTOR. -/
def cqCfgVector : Fld := (28, 24)
/-- LOG2SIZE. -/
def cqCfgLog2size : Fld := (20, 16)
/-- THRESH. -/
def cqCfgThresh : Fld := (15, 8)
/-- TIMER. -/
def cqCfgTimer : Fld := (7, 0)

/-! HOST.SQ_SEQ0–HOST.SQ_SEQ31 (Table 15-8) -/

/-- NEXT. -/
def sqSeqNext : Fld := (47, 0)

/-! HOST.RING_ERR (one per package) (Table 15-9) -/

/-- SQ_STOPPED. -/
def ringErrSqStopped : Fld := (63, 32)
/-- CAUSE. -/
def ringErrCause : Fld := (31, 24)
/-- RING. -/
def ringErrRing : Fld := (20, 16)

/-! LDG.START (Table 16-6) -/

/-- STARTS. -/
def ldgStartStarts : Fld := (63, 32)
/-- FAILED_RUN. -/
def ldgStartFailedRun : Fld := (31, 24)
/-- LAST_STOP. -/
def ldgStartLastStop : Fld := (23, 20)
/-- HALT_STEP. -/
def ldgStartHaltStep : Fld := (15, 8)
/-- HALTED. -/
def ldgStartHalted : Fld := (0, 0)

/-! LDG.STEP_STATUS1–LDG.STEP_STATUS14 (one per step) (Table 16-7) -/

/-- RESULT. -/
def ldgStepResult : Fld := (63, 48)
/-- ATTEMPTS. -/
def ldgStepAttempts : Fld := (47, 40)
/-- FAILED. -/
def ldgStepFailed : Fld := (39, 32)
/-- DEGRADED. -/
def ldgStepDegraded : Fld := (31, 24)
/-- SKIPPED. -/
def ldgStepSkipped : Fld := (23, 16)
/-- METHOD. -/
def ldgStepMethod : Fld := (15, 12)
/-- FAILS. -/
def ldgStepFails : Fld := (11, 8)
/-- DONE. -/
def ldgStepDone : Fld := (7, 7)

/-! PWC.MODE (Table 17-6) -/

/-- ARMED. -/
def modeArmed : Fld := (31, 31)
/-- DIE_MASK. -/
def modeDieMask : Fld := (11, 8)
/-- TARGET. -/
def modeTarget : Fld := (3, 0)

/-! PWC.POWER (Table 17-7) -/

/-- CAP. -/
def powerCap : Fld := (63, 48)
/-- AVG_1S. -/
def powerAvg1s : Fld := (47, 32)
/-- AVG_1MS. -/
def powerAvg1ms : Fld := (31, 16)
/-- PEAK_1MS. -/
def powerPeak1ms : Fld := (15, 0)

/-! PWC.DVFS0–PWC.DVFS3 (Table 17-8) -/

/-- CUR_STEP. -/
def dvfsCurStep : Fld := (28, 24)
/-- MAX_STEP. -/
def dvfsMaxStep : Fld := (23, 19)
/-- LIMIT. -/
def dvfsLimit : Fld := (18, 16)
/-- VOLT_MV. -/
def dvfsVoltMv : Fld := (9, 0)

/-! PWC.THERM_CFG (Table 17-9) -/

/-- DIE_THROTTLE. -/
def thermCfgDieThrottle : Fld := (31, 24)
/-- STACK_THROTTLE. -/
def thermCfgStackThrottle : Fld := (23, 16)
/-- WATCH_WAKE. -/
def thermCfgWatchWake : Fld := (15, 8)

/-! PWC.THERM_STATUS (Table 17-10) -/

/-- HOTTEST. -/
def thermHottest : Fld := (31, 24)
/-- ZONE. -/
def thermZone : Fld := (23, 20)
/-- OE_HOT. -/
def thermOeHot : Fld := (19, 13)
/-- THROTTLING. -/
def thermThrottling : Fld := (12, 8)
/-- TRIPS. -/
def thermTrips : Fld := (7, 0)

/-! PWC.WATCH_CFG (Table 17-11) -/

/-- PERIOD_MS. -/
def watchCfgPeriodMs : Fld := (31, 22)
/-- TIMER_SAMPLES. -/
def watchCfgTimerSamples : Fld := (21, 12)

/-! PWC.LAST_WAKE (Table 17-12) -/

/-- COUNT. -/
def lastWakeCount : Fld := (31, 16)
/-- SOURCE. -/
def lastWakeSource : Fld := (3, 0)

/-! PWC.PAD_HOLD (Table 17-13) -/

/-- OE_HOLD. -/
def padHoldOeHold : Fld := (12, 6)
/-- NB_HOLD. -/
def padHoldNbHold : Fld := (5, 4)
/-- HB_HOLD. -/
def padHoldHbHold : Fld := (3, 0)

/-! SEC.STATUS (Table 18-5) -/

/-- LIFECYCLE. -/
def secLifecycle : Fld := (31, 28)
/-- RMA_COUNT. -/
def secRmaCount : Fld := (27, 26)
/-- DBG_ACTIVE. -/
def secDbgActive : Fld := (25, 25)
/-- WIPE_FAIL. -/
def secWipeFail : Fld := (24, 24)
/-- SVN. -/
def secSvn : Fld := (23, 16)
/-- REVOKED. -/
def secRevoked : Fld := (15, 12)
/-- FUSED. -/
def secFused : Fld := (11, 8)
/-- VAULT_REFUSED. -/
def secVaultRefused : Fld := (7, 0)

/-! SEC.TAMPER (Table 18-6) -/

/-- VALID. -/
def tamperValid : Fld := (31, 31)
/-- SOURCE. -/
def tamperSource : Fld := (30, 28)
/-- COUNT. -/
def tamperCount : Fld := (15, 8)

/-! MARB.WDOG (Table 19-3) -/

/-- HSRAM. -/
def wdogHsram : Fld := (47, 40)
/-- TWIN. -/
def wdogTwin : Fld := (39, 32)
/-- TPORT. -/
def wdogTport : Fld := (31, 24)
/-- STK. -/
def wdogStk : Fld := (23, 16)
/-- NLINK. -/
def wdogNlink : Fld := (15, 8)
/-- HLINK. -/
def wdogHlink : Fld := (7, 0)

/-! MARB.DIETEST (Table 19-5) -/

/-- FAILED. -/
def dietestFailed : Fld := (63, 32)
/-- LOOP_MS. -/
def dietestLoopMs : Fld := (15, 8)
/-- ENABLE. -/
def dietestEnable : Fld := (3, 0)

/-! MARB.STATUS (Table 19-6) -/

/-- OVERRUN. -/
def marbOverrun : Fld := (63, 48)
/-- CONFLICTS. -/
def marbConflicts : Fld := (47, 32)
/-- ADMITTED. -/
def marbAdmitted : Fld := (31, 16)
/-- QUEUED. -/
def marbQueued : Fld := (13, 7)
/-- RUNNING. -/
def marbRunning : Fld := (6, 0)

/-! TELE.SNAP_CFG (one per package) (Table 20-2) -/

/-- BASE. -/
def snapBase : Fld := (39, 24)
/-- SIZE. -/
def snapSize : Fld := (23, 20)
/-- ROLE. -/
def snapRole : Fld := (19, 18)
/-- ENABLE. -/
def snapEnable : Fld := (17, 17)
/-- INDEX. -/
def snapIndex : Fld := (15, 0)

/-! HOST.MEM_ERR (Table 21-5) -/

/-- LINK_DOWN. -/
def memErrLinkDown : Fld := (63, 48)
/-- WRITES_DROPPED. -/
def memErrWritesDropped : Fld := (47, 32)
/-- READS_POISONED. -/
def memErrReadsPoisoned : Fld := (31, 16)
/-- REG_DROPPED. -/
def memErrRegDropped : Fld := (15, 0)

/-! SPAD.REPAIR (one per compute die); HUBSRAM.REPAIR has the same layout (Table 21-6) -/

/-- SPARED. -/
def repairSpared : Fld := (63, 48)
/-- UNREPAIRED. -/
def repairUnrepaired : Fld := (47, 40)
/-- FIRST_BANK. -/
def repairFirstBank : Fld := (31, 24)
/-- FIRST_BIT. -/
def repairFirstBit : Fld := (23, 16)

/-! FR.HOLD (one per package) (Table 21-7) -/

/-- OWNER. -/
def holdOwner : Fld := (63, 32)
/-- PORT. -/
def holdPort : Fld := (31, 24)
/-- SLOTS. -/
def holdSlots : Fld := (17, 16)
/-- STATE. -/
def holdState : Fld := (15, 12)
/-- MISMATCH. -/
def holdMismatch : Fld := (8, 8)

/-! STRAP.SAMPLED (Table 21-9) -/

/-- DBG_OPEN. -/
def strapDbgOpen : Fld := (31, 31)
/-- SLOT. -/
def strapSlot : Fld := (30, 19)
/-- CXL_EN. -/
def strapCxlEn : Fld := (18, 18)
/-- TPORT_RATE. -/
def strapTportRate : Fld := (17, 16)
/-- DIE_EN. -/
def strapDieEn : Fld := (15, 12)
/-- SPARE. -/
def strapSpare : Fld := (11, 11)
/-- FEED_ID. -/
def strapFeedId : Fld := (10, 3)
/-- BOOTSRC. -/
def strapBootsrc : Fld := (2, 1)

end Sys2Proof.Machine
end

