-- ==== Sys2Proof/Machine/Types.lean ====
section
/-!
DEFINITION. The parts of the state: memories, dies, stacks, fabric, ports, hub units, host port, boot, power, security and
maintenance, as plain data. Registers are bit vectors laid out as the spec's tables give them (their fields are named in
Sys2Proof/Machine/Bits.lean); counts, ticks and addresses are natural numbers.
-/
namespace Sys2Proof.Machine

/-! ## Memories -/

/-- What a protected unit holds besides its data: a single-bit error, an uncorrectable word, the poison pattern or marker
(spec 07 R134, spec 08 R152), or a stack codeword's symbol errors (spec 08 R151). `seen` is true once a read has corrected the
unit, so that its write-back is due. -/
inductive Mark where
  | ce (seen : Bool)
  | ue
  | poison
  | sym (t : Nat) (dies : List (Fin 16)) (mis : List Byte) (seen : Bool)
deriving DecidableEq, Repr

/-- A memory: the bytes that differ from zero, by rising address, and the marks of its protected units (8 B words, or
64 B codewords of a stack), by rising index. An unlisted byte reads as zero (log entry 4). -/
structure Ram where
  bytes : List Host.Cell
  marks : List (Nat × Mark)
deriving DecidableEq, Repr

/-- A count judged within periodic half-open windows: the window it belongs to and the count in it (spec 20 R339). -/
structure WinCount where
  win : Nat
  n   : Nat
deriving DecidableEq, Repr

/-! ## Compute dies -/

/-- A queued instruction: its 128 bits, its address divided by 16, and its issue number on the die. -/
structure QInstr where
  bits  : BitVec 128
  pc    : BitVec 24
  issue : Nat
deriving DecidableEq, Repr

/-- The first invalid operation of a matrix instruction: position (k, row, column) and cause tag (spec 03 R61). -/
structure MxaInvalid where
  k   : Nat
  row : Nat
  col : Nat
  cause : Nat
deriving DecidableEq, Repr

/-- What the epilogue of a matrix instruction has raised (spec 03 R58 to R60): its flags, first invalid operation and count of
them, whether a tile read poisoned data, whether a partial write met a poisoned word, and a refused write. -/
structure EpiOut where
  fl      : BitVec 8
  inv     : Option MxaInvalid
  count   : Nat
  pois    : Bool
  sumPois : Bool
  reject  : Option (Half × Half)
deriving DecidableEq, Repr

/-- A matrix instruction that has been accepted and has not completed (spec 03 R54, R55): the descriptors it read, and
what its terms raised. `epi` is there once the epilogue has run; the completion then waits for its writes. `lost` is the status and
part code of a read that met a lost stack or die (spec 03 R65). -/
structure MxaFlight where
  instr    : QInstr
  extA     : Nat
  extB     : Nat
  outDesc  : BitVec 256
  flags    : BitVec 7
  nanprop  : Bool
  invalid  : Option MxaInvalid
  epi      : Option EpiOut
  lost     : Option (Half × Half)
deriving DecidableEq, Repr

/-- The first invalid operation of a vector instruction: lane and NaN tag (spec 05 R109). -/
structure LaneInvalid where
  lane : Nat
  tag  : Nat
deriving DecidableEq, Repr

/-- A started VXE, MOV, TRN or RNG instruction that has not completed (spec 06 R117). `stat` holds its flags in the bits of
VXE.STAT, `reject` the status and part code of a refused write, `lost` those of a read that met a lost stack or die, and
`replyDue` is true while a hub unit's reply is still to be written (spec 06 R121). -/
structure Flight where
  instr    : QInstr
  stat     : BitVec 8
  invalid  : Option LaneInvalid
  reject   : Option (Half × Half)
  lost     : Option (Half × Half)
  replyDue : Bool
deriving DecidableEq, Repr

/-- The registers of a die block (spec 21 Table 21-2). SEQ.STATE of a die in service is formed from its sequencer when it is
read; `seqState` is the value that the hub's copy holds. -/
structure DieRegs where
  descBase : Word
  tsw0     : Word
  tsw1     : Word
  tgrid    : Word
  mxaExc   : Quad
  vxeStat  : Word
  vxeExc   : Quad
  fault    : Quad
  seqState : Word
  active   : Quad
  idle     : Vector Quad 10
  spadEcc  : Quad
  spadUe   : Quad
  repair   : Quad
  collide  : Quad
deriving DecidableEq, Repr

/-- A dispatch held on a control instruction's wait: the semaphore and the AON tick at which the wait began
(spec 06 R116, R130). `mxa` is true when it is the head of the MXA queue that waits. -/
structure SemWait where
  sem   : Nat
  since : Nat
  mxa   : Bool
deriving DecidableEq, Repr

/-- The program that a die runs: the command's handle and the image's base, length, entry and wait limit
(spec 06 R124, R126). -/
structure DieProgram where
  handle    : Quad
  base      : Nat
  len       : Nat
  waitLimit : Nat
  semattr   : List Byte
deriving DecidableEq, Repr

/-- A fault that a die has met and that has not yet been acted on (spec 06 R127, Tables 6-6, 6-8). -/
structure FaultInfo where
  cause  : Nat
  opc    : Nat
  fn     : Nat
  engine : Nat
  pc     : BitVec 24
  status : Half
  part   : Half
deriving DecidableEq, Repr

/-- The sequencer of a die (spec 06). `stopped` holds after END or a fault: nothing more is dispatched. -/
structure Seq where
  pc      : BitVec 24
  loops   : Vector Word 16
  seed    : BitVec 128
  prog    : Option DieProgram
  stopped : Bool
  wait    : Option SemWait
  due     : Option FaultInfo
  issued  : Nat
  mxaQ    : List QInstr
  vxeQ    : List QInstr
  movQ    : List QInstr
  trnQ    : List QInstr
  rngQ    : List QInstr
deriving DecidableEq, Repr

/-- A line of a remote cache: its device address divided by 128, its data, and its poisoned codewords (spec 09 R172). -/
structure CacheLine where
  line   : Nat
  data   : List Byte
  poison : Bool
deriving DecidableEq, Repr

/-- The power and clock state of a compute die as the PWC holds it (spec 17 R310 to R317). -/
structure DiePower where
  off        : Bool
  aclkOn     : Bool
  capCeil    : Nat
  thermCeil  : Nat
  droopCeil  : Nat
  stretched  : Nat
  droopFree  : Nat
  thermMs    : Nat
  gateEighth : Nat
deriving DecidableEq, Repr

/-- A compute die. `acc0` and `acc1` are the 512 × 512 cells of 34 bits by row × 512 + column, cells holding +0 unlisted
(spec 03 R46, R56); `sat` lists the set SATURATED bits of the tally blocks (spec 04 R75), and
`excIssue` is the issue number of the instruction that MXA.EXC holds (spec 03 R63); `hubClkLost` holds when the die has seen
all forwarded clocks from the hub stop (spec 09 R175). -/
structure Die where
  regs     : DieRegs
  copy     : DieRegs
  seq      : Seq
  sems     : Vector Word 128
  spad     : Ram
  acc0     : List (Nat × BitVec 34)
  acc1     : List (Nat × BitVec 34)
  sat      : List Nat
  excIssue : Nat
  mxaFly   : List MxaFlight
  vxeFly   : List Flight
  movFly   : List Flight
  trnFly   : List Flight
  rngFly   : List Flight
  cache    : List CacheLine
  fills    : List CacheLine
  invals   : List Nat
  badCols  : List (Nat × Nat)
  spares   : List (Nat × Nat)
  hubClkLost : Bool
  pwr      : DiePower
deriving DecidableEq, Repr

/-! ## Stacks and coherence -/

/-- A stack and its controller (spec 08). Addresses in `mem` are stack offsets; marks are by codeword (64 B).
`erase` counts, per core die, the groups of the current window with inner-uncorrectable bursts. -/
structure Stack where
  mem      : Ram
  status   : Word
  cfg      : Word
  scrub    : Word
  ecc      : Quad
  ue       : Quad
  eraseWin : Nat
  erase    : List (Nat × Nat)
  scrubPos : Nat
  selfRefresh : Bool
  hardRepair  : List Nat
deriving DecidableEq, Repr

/-- A home filter entry: a line (device address divided by 128) and the presence bits of C0 to C3 (spec 09 R174). -/
structure FilterEntry where
  line     : Nat
  presence : BitVec 4
deriving DecidableEq, Repr

/-- A line of the host filter: a 64 B line that the host may hold, and whether it may hold it modified (spec 15 R280). -/
structure HostLine where
  line  : Nat
  dirty : Bool
deriving DecidableEq, Repr

/-- Who made a write that is not yet complete. -/
inductive Writer where
  | engine (d : Fin 4) (e : Engine) (issue : Nat)
  | mxa (d : Fin 4)
  | hub
  | host
deriving DecidableEq, Repr

/-- A write to stack memory that waits at its home: for invalidations of remote copies (spec 09 R173), for a BIRsp
(spec 15 R280), or for both. `bytes` are (device address, byte) pairs of one 128 B line. -/
structure PendingWrite where
  line    : Nat
  bytes   : List Host.Cell
  poison  : Bool
  writer  : Writer
  needInv : Bool
  needBi  : Bool
deriving DecidableEq, Repr

/-! ## Fabric -/

/-- A live swap under way: lane, spare tried, whether the switch was made, and the MARB activity (spec 09 R167). -/
structure Castling where
  lane     : Nat
  spare    : Nat
  switched : Bool
deriving DecidableEq, Repr

/-- A bundle (spec 09 R161 to R169). `former` is the state it returns to after a pause, `low` counts each logical lane's
successive low-margin measurements, `badLanes` holds its lanes found bad that no spare replaces. -/
structure Bundle where
  status   : Word
  laneMap  : Word
  err      : Quad
  rxNext   : Nat
  failing  : Nat
  crc      : WinCount
  low      : List Nat
  former   : Nat
  cast     : Option Castling
  badLanes : List Nat
deriving DecidableEq, Repr

/-- A fence under way (spec 09 R176): the cause, and whether the PWC already holds the die in reset. -/
structure Fence where
  cause : Nat
  held  : Bool
  done  : Bool
deriving DecidableEq, Repr

/-- A per-die reset under way (spec 09 R178): the command, the MARB activity, the state to return to, the start tick, and
whether the loop-back test runs (spec 19 R337). -/
structure DieResetRun where
  handle  : Quad
  act     : Nat
  former  : Nat
  t0      : Nat
  test    : Bool
  drained : Bool
deriving DecidableEq, Repr

/-- The fabric (spec 09). `lostHome` holds each die's lost-home mask; `filters` the home filters, oldest entry first. -/
structure Fabric where
  bundles  : Vector Bundle 80
  dieState : Vector Word 4
  castleCfg : Word
  fences   : Vector (Option Fence) 4
  resets   : Vector (Option DieResetRun) 4
  lostHome : Vector (BitVec 4) 4
  filters  : List FilterEntry
  hostFilter : List HostLine
  pendingWrites : List PendingWrite
deriving DecidableEq, Repr

/-! ## Terti -/

/-- A message header (spec 10 Table 10-4). -/
structure Header where
  srcPos : Word
  dstPos : Word
  group  : Half
  vc     : Nat
  kind   : Nat
  roleEpoch   : Word
  layoutEpoch : Word
  membEpoch   : Word
  step   : Word
  mbId   : Word
  wver   : Word
  length : Nat
  offset : Nat
  stage  : Half
  flags  : BitVec 8
  reservedBad : Bool
deriving DecidableEq, Repr

/-- A Terti message: header and payload. -/
structure Msg where
  hdr     : Header
  payload : List Byte
deriving DecidableEq, Repr

/-- What a queued outgoing message stands for, so that its return with PORT_LOST, or its NACK, reaches the unit that sent
it (spec 10 R196, R201). -/
inductive Sender where
  | sle (role : Fin 4) (dir : Dir)
  | mbq
  | wvt (d : Fin 4)
  | relay (back : Fin 24)
  | tly (job : Fin 64)
  | fr (role : Fin 4)
  | drain (role : Fin 4) (checkpoint : Option Quad)
  | fill
  | serve
  | mcp
deriving DecidableEq, Repr

/-- An outgoing message on a port. -/
structure OutMsg where
  msg    : Msg
  sender : Sender
deriving DecidableEq, Repr

/-- A DATA flit that waits behind a held message on its VC (spec 10 R198). -/
structure RxFlit where
  first : Bool
  eom   : Bool
  body  : List Byte
deriving DecidableEq, Repr

/-- A message being received on a VC: its header, the payload so far, the flits taken, whether it is discarded after a failed
check, whether its last flit has come, the tick from which it is held, and whether it is held for a job that is not armed or for room in
hub staging rather than for an epoch (spec 10 R184, R197, R198, spec 13 R243, R257). -/
structure OpenMsg where
  hdr     : Header
  payload : List Byte
  flits   : Nat
  discard : Bool
  ended   : Bool
  held    : Option Nat
  job     : Bool
  full    : Bool
deriving DecidableEq, Repr

/-- The key of a VC_FWD or VC_BWD message (spec 10 R197). -/
structure MsgKey where
  src    : Word
  stage  : Half
  step   : Word
  mb     : Word
  kind   : Nat
  offset : Nat
deriving DecidableEq, Repr

/-- The partner's parameters from its PARAM flit (spec 10 Table 10-6). -/
structure Param where
  pos    : Word
  vcEn   : BitVec 8
  maxMsg : Nat
  rate   : Nat
  lambdas : BitVec 8
  bufs   : List Nat
deriving DecidableEq, Repr

/-- A flit kept for replay: sequence number, type and VC, and its 244 body bytes (spec 10 R189). -/
structure HeldFlit where
  seq  : Nat
  first : Bool
  vc   : Nat
  eom  : Bool
  body : List Byte
deriving DecidableEq, Repr

/-- The message a VC is sending: what remains of its payload, and whether its FIRST flit has gone (spec 10 R184). -/
structure Sending where
  out   : OutMsg
  rest  : List Byte
  begun : Bool
deriving DecidableEq, Repr

/-- A message whose last flit was sent as sequence number `last` and is not yet acknowledged (spec 10 R196). -/
structure UnackedMsg where
  out  : OutMsg
  last : Nat
deriving DecidableEq, Repr

/-- The transmit side of a port's link layer (spec 10 R187 to R189). -/
structure LinkTx where
  nextSeq : Nat
  replay  : List HeldFlit
  resend  : List HeldFlit
  unacked : List UnackedMsg
  sent    : Vector Nat 8
  freed   : Vector Nat 8
  queues  : Vector (List OutMsg) 8
  sending : Vector (Option Sending) 8
  rrVc    : Nat
  rrLeft  : Vector Nat 8
  lastAck : Nat
  ackTick : Nat
  sameAck : Nat
  nakNow  : Bool
  ctlOut  : List (List Byte)
  cvc     : Nat
  flits   : Nat
deriving DecidableEq, Repr

/-- The receive side of a port's link layer (spec 10 R187, R189, R197). `buffer` holds the flits behind a held message, `skip`
marks a VC that discards the rest of a message which overran its buffer, `ctlIn` the CTL flits not yet acted on, `delivered`
the messages accepted and not yet taken by their units, `flits` and `ffeAt` the flits received and their number at the last FFE_REQ. -/
structure LinkRx where
  expect  : Nat
  nakSent : Bool
  freed   : Vector Nat 8
  opened  : Vector (Option OpenMsg) 8
  buffer  : Vector (List RxFlit) 8
  skip    : Vector Bool 8
  ctlIn   : List (List Byte)
  keys    : List MsgKey
  delivered : List Msg
  flits   : Nat
  ffeAt   : Nat
deriving DecidableEq, Repr

/-- Training and wavelength state of a port (spec 10 R191 to R195). -/
structure PortPhy where
  attempts : Nat
  txLambda : BitVec 8
  rxLambda : BitVec 8
  txGood   : BitVec 8
  rxGood   : BitVec 8
  light    : Bool
  rtt      : Nat
  partner  : Option Param
  maxMsg   : Nat
  vcs      : BitVec 8
  ffe      : List Int
  bias     : List Nat
  eqStep   : Nat
  uncorr   : List WinCount
  replayMark : Option Nat
  reacqAt  : Nat
  ctlWait  : List Nat
  retrainTo : BitVec 8 × BitVec 8
  four     : Bool
deriving DecidableEq, Repr

/-- A port's violation window: its weight within the current window (spec 10 R203); the log ring is `vlog`, by index. -/
structure Port where
  cfg      : Word
  status   : Word
  partner  : Quad
  vcWeight : Word
  vlogStat : Quad
  linkErr  : Quad
  vcount   : Vector Half 16
  vlog     : List (Nat × BitVec 256)
  weight   : WinCount
  nacks    : List Msg
  tx       : LinkTx
  rx       : LinkRx
  phy      : PortPhy
deriving DecidableEq, Repr

/-! ## Identity, groups and stage machinery -/

/-- A member of a group (spec 11 Table 11-5). -/
structure Member where
  pos  : Word
  live : Bool
deriving DecidableEq, Repr

/-- A group entry with its member list (spec 11 Table 11-4). -/
structure GroupEntry where
  gid      : Half
  axis     : Nat
  level    : Nat
  vc       : Nat
  parent   : Nat
  prevPort : Nat
  nextPort : Nat
  layout   : Word
  memb     : Word
  rank     : Nat
  role     : Nat
  members  : List Member
deriving DecidableEq, Repr

/-- A group slot: active and staged entry, GRP.STATUS, and the ticks at which the active epochs were adopted. -/
structure GroupSlot where
  active : Option GroupEntry
  staged : Option GroupEntry
  status : Word
  layoutTick : Nat
  membTick   : Nat
deriving DecidableEq, Repr

/-- A forwarding entry of the SLE (spec 10 R200), with the tick at which it was loaded. -/
structure Forwarding where
  stage : Half
  epoch : Word
  pos   : Word
  tick  : Nat
deriving DecidableEq, Repr

/-- The identity record (spec 11): position, role slots with the ticks of their epochs' adoption, groups, forwarding
entries (oldest first). -/
structure Job where
  identity : Word
  roles    : Vector Quad 4
  roleTick : Vector Nat 4
  groups   : Vector GroupSlot 64
  forwarding : List Forwarding
deriving DecidableEq, Repr

/-- What a micro-batch output carries on a stage link. -/
inductive OutKind where
  | fwdAct
  | bwdGrad
  | mbDrop (cause : Nat)
deriving DecidableEq, Repr

/-- A micro-batch output on a stage link (spec 12 R216, R218, R235): its identity, where its bytes lie, the segment size, the
next segment to send, the segment offsets not yet acknowledged, offsets returned to be sent again, whether all of it goes
with RESEND, whether a segment has bounced, whether all of it has been acknowledged, and the post it owes. -/
structure Output where
  kind   : OutKind
  step   : Word
  mb     : Word
  wver   : Word
  eval   : Bool
  slot   : Option (Fin 16)
  onStack : Bool
  addr   : Nat
  bytes  : Nat
  seg    : Nat
  next   : Nat
  unacked : List Nat
  again  : List Nat
  started : Bool
  resend : Bool
  bounced : Bool
  acked  : Bool
  post   : Option (Fin 4 × Nat)
deriving DecidableEq, Repr

/-- A stage link (spec 12 R215, R218): its register, the three credit counts, its outputs in order, and the epoch a STALE
link waits for. -/
structure StageLink where
  reg     : BitVec 128
  started : Nat
  granted : Nat
  partnerGranted : Nat
  outputs : List Output
  staleTo : Option Word
deriving DecidableEq, Repr

/-- A queue entry (spec 12 R220): index, key, version, bytes received, the payload's length once the LAST segment has come,
the order of completion, and the port and header of its first segment (none for an entry made by this device). -/
structure QEntry where
  idx    : Nat
  step   : Word
  mb     : Word
  wver   : Word
  eval   : Bool
  generated : Bool
  got    : Nat
  total  : Option Nat
  order  : Option Nat
  src    : Option (Fin 24 × Header)
deriving DecidableEq, Repr

/-- An active slot (spec 12 Tables 12-5, 12-6). `bound` is the binding order, `acked` holds when no output segment remains to be
acknowledged, `fwdSent` and `bwdSent` when the output has been handed to the SLE, `takers` the dies whose TAKE was answered
with the slot, `firsts` the die whose HUBOP of a kind acted first, `status` the status and detail that its drop answers when the cause alone does not give them (R222, R223, Table 12-17). -/
structure Slot where
  state  : Nat
  role   : Fin 4
  step   : Word
  mb     : Word
  wver   : Word
  eval   : Bool
  isLocal : Bool
  generated : Bool
  cause  : Nat
  entry  : Option Nat
  stash  : Option Nat
  len    : Nat
  payHub : Nat
  paySpill : Nat
  bound  : Nat
  acked  : Bool
  fwdSent : Bool
  bwdSent : Bool
  takers : BitVec 4
  firsts : List (Nat × Fin 4)
  status : Option (Half × Half)
deriving DecidableEq, Repr

/-- The state of a stash record that is not FREE (spec 12 R227). -/
inductive StashState where
  | opened | held | bound
deriving DecidableEq, Repr

/-- A stash record in use: index, key, version, extents (device addresses, in chain order), byte accounts. -/
structure StashRec where
  idx    : Nat
  st     : StashState
  role   : Fin 4
  step   : Word
  mb     : Word
  wver   : Word
  home   : Fin 4
  extents : List Nat
  bytesT16 : Nat
  bytesP8  : Nat
deriving DecidableEq, Repr

/-- The state of one stage role in the MBQ: registers as written, the values in effect since the last adoption, the queues in
order of arrival, the freed forward entries whose credit R214 withholds, and the micro-batches of the current step that
B has counted. -/
structure RoleQueue where
  cfg     : Quad
  fpay    : Quad
  bpay    : Quad
  cfgNow  : Quad
  fpayNow : Quad
  bpayNow : Quad
  stashCfg : Quad
  stashUse : Quad
  stashMb  : Quad
  stepStat : BitVec 128
  fq      : List QEntry
  bq      : List QEntry
  fOwed   : Nat
  counted : List Word
deriving DecidableEq, Repr

/-- The key of a micro-batch in one direction of a role. -/
structure MbKey where
  role : Fin 4
  dir  : Dir
  step : Word
  mb   : Word
deriving DecidableEq, Repr

/-- The micro-batch queue manager (spec 12). `clock` numbers completions and bindings, `dead` holds the micro-batches dropped
before their last segment had come. -/
structure Mbq where
  roles   : Vector RoleQueue 4
  slots   : Vector Slot 16
  records : List StashRec
  area    : Vector Word 4
  base    : Quad
  clock   : Nat
  dead    : List MbKey
deriving DecidableEq, Repr

/-- The state of a WVT buffer (spec 12, Weight versions). -/
inductive BufState where
  | empty | pending | committed | old
deriving DecidableEq, Repr

/-- A buffer of a WVT entry: its three addresses, the version it holds, pin count and state. -/
structure WvtBuf where
  w       : Nat
  m       : Nat
  v       : Nat
  version : Word
  pins    : Nat
  st      : BufState
deriving DecidableEq, Repr

/-- A WVT entry. -/
structure WvtEntry where
  tensorId : Word
  elements : Word
  bufs     : List WvtBuf
deriving DecidableEq, Repr

/-- A message that a MOV HUBOP sent to a hub unit and that is not yet answered (spec 06 R121): its die, the unit, its 32
bytes, the issue number of the instruction, and the address field of the descriptor that the reply is written to. -/
structure HubMsg where
  die   : Fin 4
  unit  : Nat
  bytes : List Byte
  issue : Nat
  reply : Nat
deriving DecidableEq, Repr

/-- A gather under way, by die (spec 12 R232): its message, the entry's tensor, and the path under way (0 primary, 1 alternate by
NEXT_PORT, 2 by PREV_PORT) with its port, the bytes that have come, the tick of the last progress and its number among the
requests sent. -/
structure Gather where
  msg     : HubMsg
  tensor  : Word
  path    : Nat
  port    : Fin 24
  got     : Nat
  since   : Nat
  order   : Nat
deriving DecidableEq, Repr

/-- A shard request relayed through this device (spec 12 R232): its version and bytes, how many have come back, where it came from and
in which group, where it went, and its number among the requests sent. -/
structure Relay where
  wver    : Word
  bytes   : Nat
  got     : Nat
  inPort  : Fin 24
  inGroup : Half
  outPort : Fin 24
  order   : Nat
deriving DecidableEq, Repr

/-- The weight version table (spec 12 R229 to R233). `emptyVer` is the committed version of a role whose range is empty. -/
structure Wvt where
  cfg     : Word
  ranges  : Vector Word 4
  entries : List (Nat × WvtEntry)
  emptyVer : Vector Word 4
  pendingVer : Vector (Option Word) 4
  gathers : Vector (Option Gather) 4
  relays  : List Relay
  orders  : Nat
deriving DecidableEq, Repr

/-- The receive window of an S group for one role: its register and the byte ranges received of the block under way
(spec 12 R237). -/
structure SpBuf where
  reg  : Quad
  segs : List (Nat × Nat)
  last : Option Nat
deriving DecidableEq, Repr

/-- The role epoch that a partner's stage role last sent in a QCREDIT (spec 12 R215). -/
structure Heard where
  pos   : Word
  stage : Half
  epoch : Word
deriving DecidableEq, Repr

/-- The stage link engine. -/
structure Sle where
  up    : Vector StageLink 4
  down  : Vector StageLink 4
  heard : List Heard
  spbuf : Vector SpBuf 4
deriving DecidableEq, Repr

/-! ## Gradient tally -/

/-- A TL64 block as a value: grid, flags of header byte 34, poisoned element indices (bit vector), 256 elements. -/
structure TlBlock where
  g      : Int
  flags  : BitVec 8
  poison : BitVec 256
  elems  : List Int
deriving DecidableEq, Repr

/-- A tally job descriptor (spec 13 Table 13-2). -/
structure JobDesc where
  slot    : Nat
  check   : Bool
  preroll : Bool
  late    : Bool
  op      : Nat
  sfmt    : Nat
  margin  : Nat
  dfmt    : Nat
  job     : Word
  deadline : Nat
  tensors : Nat
  src     : Nat
  dst     : Nat
  ttab    : Nat
  grid    : Nat
  carry   : Nat
  stage   : Nat
  stats   : Nat
  record  : Nat
  flag    : Nat
  sem     : BitVec 8
  dies    : BitVec 4
deriving DecidableEq, Repr

/-- The accumulated values of a segment header (spec 13 Table 13-3). -/
structure SegStats where
  prank   : Nat
  count   : Nat
  members : Nat
  late    : Nat
  digest  : Nat
deriving DecidableEq, Repr

/-- A block on its way along a path of a level, or waiting at this member as its result of that level: whether it is a
pre-roll, its attempt, notice, largest exponent, sum of squares and elements, and the header values it travels with. -/
structure LevelBlock where
  b       : Nat
  level   : Nat
  pre     : Bool
  attempt : Nat
  notice  : Nat
  exp     : Option Int
  spart   : Word
  blk     : TlBlock
  stats   : SegStats
deriving DecidableEq, Repr

/-- The progress of one block of a step at this member: its attempt, the grid of the attempt, whether a pre-roll of it runs, its
check notices, whether its level-0 path has passed, and whether the final block has come. -/
structure BlockRun where
  attempt : Nat
  grid    : Int
  pre     : Bool
  checks  : Nat
  passed  : Bool
  written : Bool
deriving DecidableEq, Repr

/-- The key of an accepted tally segment (spec 13 R257). -/
structure SegKey where
  copy    : Bool
  phase   : Nat
  level   : Nat
  first   : Nat
  attempt : Nat
deriving DecidableEq, Repr

/-- A step of a tally job (spec 13 R239 to R257): its state here, the grid table as it stood when the step began, the blocks that
differ from their first state, level results that wait, staged segments in order of arrival, keys accepted, what the record
will say, and, for the statistics, SPART and Q of the final blocks. `recorded` holds once the record has been written. -/
structure JobRun where
  step    : Word
  started : Bool
  count   : Nat
  openAt  : Option Nat
  absent  : Bool
  grids   : List Nat
  blocks  : List (Nat × BlockRun)
  results : List LevelBlock
  staged  : List (Fin 24 × Msg)
  seen    : List SegKey
  rerolls : Nat
  doubled : Bool
  ovf     : Bool
  udf     : Bool
  poisoned : Nat
  prank   : Nat
  final   : Option SegStats
  failed  : Option Half
  droppedCarry : Bool
  spart   : List (Nat × Word)
  qs      : List (Nat × Word)
  recorded : Bool
deriving DecidableEq, Repr

/-- An entry of the job table: the engine unit it was armed on, its descriptor as read and as parsed and tensor table (WVT entry and elements), the last
step started, the step in progress or last completed, the count of a held carry, and segments of a later step with their
ticks of arrival (spec 13 R238, R250, R251). -/
structure TlyJob where
  unit  : Nat
  raw   : List Byte
  desc  : JobDesc
  table : List (Nat × Nat)
  last  : Option Word
  run   : Option JobRun
  carry : Option Nat
  early : List (Nat × Fin 24 × Msg)
deriving DecidableEq, Repr

/-- A pending re-shard (spec 13 R256): the command, its slot mask, the re-arm list, the move list, and the STARTs it holds. -/
structure Reshard where
  handle : Quad
  slots  : BitVec 64
  rearm  : List Byte
  moves  : List Byte
  held   : List HubMsg
deriving DecidableEq, Repr

/-- The tally engines (spec 13); `returned` holds segments that a lost port gave back (R257). -/
structure Tly where
  cfg     : Word
  staging : Quad
  stat    : Quad
  check   : Quad
  jobs    : Vector (Option TlyJob) 64
  returned : List (Fin 24 × Msg)
  reshards : List Reshard
deriving DecidableEq, Repr

/-! ## Failure and recovery -/

/-- A HUBOP VOTE's arguments (spec 14 Table 14-6). -/
structure VoteArgs where
  slot   : Nat
  yes    : Bool
  dies   : BitVec 4
  sem    : BitVec 8
  step   : Word
  result : Quad
  drec   : Nat
deriving DecidableEq, Repr

/-- A decision record (spec 14 Table 14-8). -/
structure DecisionRec where
  step    : Word
  version : Word
  commit  : Bool
  cause   : Nat
  attempt : Nat
  anchor  : Word
  memb    : Word
  yes     : Nat
  voters  : Nat
deriving DecidableEq, Repr

/-- The record that a vote passes along the chain (spec 14 Table 14-7). -/
structure VoteRec where
  yes     : Nat
  voters  : Nat
  held    : Nat
  attempt : Nat
  rmin    : Nat
  rmax    : Nat
deriving DecidableEq, Repr

/-- The vote of one role (spec 14 R266 to R269): the arguments of its last vote since its install, whether a HUBOP gave them, the
version voted on, the attempt, the tick of the vote while it is undecided, the tick of the last DECISION_REQ, the levels whose
reduce path has passed here, the totals of the levels whose home is here, the messages that wait, and the decision held. -/
structure RoleVote where
  args    : Option VoteArgs
  byHubop : Bool
  wver    : Word
  attempt : Nat
  votedAt : Option Nat
  askedAt : Nat
  passed  : List Nat
  totals  : List (Nat × VoteRec)
  waiting : List (Fin 24 × Msg)
  held    : Option DecisionRec
deriving DecidableEq, Repr

/-- A drain to the buddy (spec 14 R263), or, with a command's handle, of CHECKPOINT_DRAIN: its role, version, port and copy slot,
whether it is the second after a mismatch, the digest of what it sends, and the bytes to send. -/
structure Drain where
  role    : Fin 4
  version : Word
  port    : Fin 24
  slot    : Nat
  again   : Bool
  handle  : Option Quad
  digest  : Nat
  bytes   : Nat
deriving DecidableEq, Repr

/-- A BUDDY_PAIR that waits for PAIR_ACK (spec 14 R262). -/
structure Pairing where
  handle   : Quad
  port     : Fin 24
  slots    : Nat
  override : Bool
deriving DecidableEq, Repr

/-- A range of a copy as it is received: class, kind and identifier, WVT entry index, where it lies in the copy area, the bytes it will have
and has, and its digest so far (spec 14 R261, R263). -/
structure CopyRange where
  cls    : Nat
  kind   : Nat
  id     : Word
  entry  : Nat
  start  : Nat
  len    : Nat
  got    : Nat
  digest : Nat
deriving DecidableEq, Repr

/-- A role's copy in a copy slot (spec 14 R263): its version, the identity record, its ranges, the bytes received, whether something did not
fit or came out of order, and whether it is complete. -/
structure CopySlot where
  slot    : Nat
  role    : Nat
  version : Word
  record  : List Byte
  ranges  : List CopyRange
  bytes   : Nat
  bad     : Bool
  full    : Bool
deriving DecidableEq, Repr

/-- A fill request that this device serves or queues as a source (spec 14 R271). -/
structure FillJob where
  port : Fin 24
  req  : List Byte
deriving DecidableEq, Repr

/-- A promotion source (spec 15 Table 15-14). -/
structure Source where
  pos  : Word
  port : Fin 24
  kind : Nat
deriving DecidableEq, Repr

/-- A role section of DIGEST_DATA (spec 14 Table 14-18), or of the copy that takes its place (R276), with its digest table. -/
structure Located where
  role     : Nat
  decision : Nat
  stage    : Half
  step     : Word
  committed : Word
  reduced  : Word
  table    : List (Nat × Nat × Nat)
deriving DecidableEq, Repr

/-- A range that a promotion fills (spec 14 Table 14-12): the role slot of the position, the stage by which another device names it, WVT entry, bytes,
destination, the digest formed, and the sources that have been tried for it. -/
structure FillRange where
  cls     : Nat
  role    : Fin 4
  stage   : Half
  kind    : Nat
  id      : Word
  version : Word
  entry   : Nat
  bytes   : Nat
  addr    : Nat
  digest  : Nat
  tried   : List Nat
deriving DecidableEq, Repr

/-- What a promotion waits for from its source: nothing, DIGEST_DATA, a role's digest table, the identity record, or a range. -/
inductive FillWait where
  | idle | digests | tables | record | range
deriving DecidableEq, Repr

/-- A PROMOTE or FILL under way (spec 14 R270 to R276): its phase, the identity to put back on CANCEL, the version asked for, the
sources, the one in use, what it waits for, the bytes of a reply in several segments, the sections located, whether it fills from
the buddy's newest complete copy, whether its digests have been found to match, the record, the ranges to fill and filled, the offset reached in the first of them, the bytes
filled, the tick of the last progress, whether a segment has come since the last request, and the last source's failure. -/
structure Promotion where
  handle   : Quad
  isFill   : Bool
  phase    : Nat
  position : Word
  former   : Word
  version  : Word
  sources  : List Source
  current  : Nat
  wait     : FillWait
  inbuf    : List Byte
  located  : List Located
  fromCopy : Bool
  verified : Bool
  record   : List Byte
  todo     : List FillRange
  filled   : List FillRange
  offset   : Nat
  bytes    : Nat
  since    : Nat
  heard    : Bool
  failure  : Half
deriving DecidableEq, Repr

/-- The failure-and-recovery block (spec 14). `copies` is the owner's list of complete copies on the buddy by role, newest first, as
(slot, version); `due` names the roles that have committed and whose drain has not begun, `redone` the version that each role has drained a second time, `copyBuf` a COPY_DONE of which a part has come; `holdArea` and `holdBytes` the copy area accepted by HOLD_COPY; `returned` holds votes and decisions that a lost
port gave back. -/
structure Fr where
  buddy    : Quad
  hold     : Quad
  copy     : Vector Quad 4
  decision : Vector Quad 4
  cfg      : Word
  votes    : Vector RoleVote 4
  returned : List (Fin 24 × Msg × Sender)
  due      : List (Fin 4)
  pairing  : Option Pairing
  drains   : List Drain
  copies   : Vector (List (Nat × Word)) 4
  digests  : Vector (Option (Word × List (Nat × Nat × Nat))) 4
  holdArea : Nat
  holdBytes : Nat
  slots    : List CopySlot
  copyBuf  : List Byte
  redone   : Vector (Option Word) 4
  fillNow  : List FillJob
  fillQueue : List FillJob
  digestQueue : List FillJob
  promotion : Option Promotion
deriving DecidableEq, Repr

/-! ## Host port -/

/-- A submission ring (spec 15 R281 to R283). Descriptors from `head` up to `tail` are submitted and not yet fetched; `stopped` holds after
TAIL_BEYOND_SIZE until the ring is enabled anew. -/
structure SqRing where
  base : Quad
  cfg  : Word
  seq  : Quad
  head : Nat
  tail : Nat
  stopped : Bool
deriving DecidableEq, Repr

/-- A record that waits for its CQ (spec 15 R285, R292): its fields without PHASE, and whether it is final, of an URGENT descriptor, or a
progress record, which may be skipped. -/
structure HostRecord where
  handle  : Quad
  status  : Half
  detail  : Half
  summary : BitVec 7
  rerolls : Half
  poison  : Half
  result  : List Byte
  final   : Bool
  urgent  : Bool
  progress : Bool
deriving DecidableEq, Repr

/-- A completion ring (spec 15 R285, R291). -/
structure CqRing where
  base  : Quad
  cfg   : Word
  head  : Nat
  tail  : Nat
  phase : Bool
  held  : List HostRecord
  r     : Nat
  first : Option Nat
deriving DecidableEq, Repr

/-- Where an outstanding command stands (spec 15 R284, R287): `finished` when its final record waits to be written. -/
inductive CmdState where
  | accepted
  | queued
  | running
  | finished
deriving DecidableEq, Repr

/-- An outstanding command: handle, the CQ of its ring, its 64 B descriptor, its state, its acceptance order, the tick of
its last progress record, and the units done and in total (spec 15 R284, R290). -/
structure Command where
  handle : Quad
  cq     : Fin 32
  desc   : BitVec 512
  st     : CmdState
  order  : Nat
  tick   : Nat
  done   : Nat
  total  : Nat
deriving DecidableEq, Repr

/-- The progress of RUN_PROGRAM on one die (spec 06 R126 to R128). -/
inductive DieRunState where
  | unnamed | waiting | running | ended
deriving DecidableEq, Repr

/-- One die's part of a RUN_PROGRAM: base, state, whether it ended by END, its fault (cause, status, part, pc, opc, fn),
the lost part it read from, and whether a gated VOPT skipped. -/
structure DieRun where
  base    : Nat
  st      : DieRunState
  byEnd   : Bool
  cause   : Nat
  status  : Half
  part    : Half
  pc      : BitVec 24
  opc     : Byte
  fn      : Byte
  lost    : Option (Half × Half)
  skipped : Bool
deriving DecidableEq, Repr

/-- A RUN_PROGRAM command: seed, the dies' parts, the summary flags ORed so far (spec 06 R126), and the first reduced part that it
used while it ran (spec 06 R128, spec 09 R171). -/
structure RunCmd where
  handle  : Quad
  seed    : BitVec 128
  order   : Nat
  dies    : Vector DieRun 4
  summary : BitVec 7
  reduced : Option Half
deriving DecidableEq, Repr

/-- The host port X (spec 15). -/
structure HostPort where
  linkUp  : Bool
  sqs     : Vector SqRing 32
  cqs     : Vector CqRing 32
  ringErr : Quad
  memErr  : Quad
  cmds    : List Command
  orders  : Nat
  runs    : List RunCmd
deriving DecidableEq, Repr

/-! ## Boot, power, security, maintenance, telemetry -/

/-- A ledger record (spec 16 Table 16-4); `data` is its DATA field as natural numbers. -/
structure LedgerRec where
  seq      : Nat
  startNo  : Nat
  step     : Nat
  inst     : Nat
  kind     : Nat
  method   : Nat
  result   : Half
  attempts : Nat
  fails    : Nat
  detail   : Half
  data     : List Nat
deriving DecidableEq, Repr

/-- The verified manifest of the running image (spec 16 R301, spec 18 R324, R325). -/
structure Manifest where
  slot   : Nat
  svn    : Nat
  flags  : Word
  digest : BitVec 384
  method : Nat
deriving DecidableEq, Repr

/-- The pins, the boot ledger controller and its journal (spec 16), newest record first. `step` is the boot step under way (0: none),
`stepOpen` holds once its BEGIN records are written, `retained` is the retained stop register, `fails` the count FAILS by (step,
instance) in this start, `imageSrc` the place of BS-05's source in its order, `window` the image that has arrived in the boot window,
`erasedStacks` the stacks that ended a service with a core die erased, `xUp` whether BS-13 brought port X up, `tamperHalt` whether a
tamper event halted the device. -/
structure Boot where
  pwrOk     : Bool
  rstN      : Bool
  vinOk     : Bool
  straps    : Word
  retained  : Nat
  step      : Nat
  stepBegin : Nat
  stepOpen  : Bool
  restartAt : Option Nat
  inService : Bool
  ldgStart  : Quad
  ldgCtrl   : Word
  steps     : Vector Quad 14
  bank0     : List LedgerRec
  bank1     : List LedgerRec
  bankNow   : Nat
  nextSeq   : Nat
  fails     : List (Nat × Nat × Nat)
  flashA    : Ram
  flashB    : Ram
  imageSrc  : Nat
  window    : Option (BootPath × List Byte)
  manifest  : Option Manifest
  wakeLatch : Option Nat
  mpUp      : Bool
  mpRate    : Nat
  coresUp   : BitVec 4
  excludedDies : BitVec 4
  excludedStacks : BitVec 8
  erasedStacks : BitVec 8
  xUp       : Bool
  tamperHalt : Bool
deriving DecidableEq, Repr

/-- The power controller (spec 17, spec 01). `mode` is the power state of Table 17-2 as a code: 0 ACTIVE, 1 IDLE,
3 WATCH, 4 OFF, stopped or starting; `cmd` the POWER command that waits for a transition, `exiting` the dies that are leaving DIE_OFF,
`cmdDies` the dies it names and `cmdFail` what has failed of it, `samples` the powers of the last measurements, newest first, `guard` the
eighths of array issue that the fast guard gates. -/
structure Pwc where
  clkFault  : Word
  mode      : Word
  power     : Quad
  dvfs      : Vector Word 4
  thermCfg  : Word
  thermStatus : Word
  watchCfg  : Word
  lastWake  : Word
  padHold   : Word
  state     : Nat
  cmd       : Option Quad
  cmdFail   : Option (Half × Half)
  cmdDies   : BitVec 4
  samples   : List Nat
  guard     : Nat
  vf        : Vector (List Nat) 4
  trimmed   : Bool
  refused   : Nat
  watchAt   : Nat
  watchTaken : Nat
  stopped   : Bool
  tripped   : Bool
  brown     : Bool
  overVolt  : Bool
  tripAt    : Nat
  exiting   : BitVec 4
  oeDark    : BitVec 7
  mclkLost  : BitVec 8
deriving DecidableEq, Repr

/-- A key slot's fuses (spec 18 R324): RSA and SLH key hashes, fused, revoked. -/
structure KeySlot where
  rsa     : BitVec 384
  slh     : BitVec 384
  fused   : Bool
  revoked : Bool
deriving DecidableEq, Repr

/-- The fuses, by bank of spec 18 Table 18-3. `lifeWords` holds the codes of the life-cycle words that are fully blown, in the order in
which they were blown (log entry 6); `columns` the (memory, bank, bit) of repaired columns, memory 4 being the hub; `lanes` the (bundle,
lane) of bad lanes; `vf` each die's least voltage in mV by step. -/
structure Fuses where
  lifeWords : List Nat
  rmaCount  : Nat
  keys      : Vector KeySlot 4
  svn       : Nat
  columns   : List (Nat × Nat × Nat)
  lanes     : List (Nat × Nat)
  vf        : List (List Nat)
  serial    : BitVec 128
deriving DecidableEq, Repr

/-- The security block (spec 18): registers, fuses, the measurement register, the vault, a wipe under way (its pass and
what it was for: 0 a tamper event, 1 a LIFECYCLE), and a LIFECYCLE command under way with its target state and authorisation body;
`tampered` holds once a tamper event has come since VDD_AON rose. -/
structure Sec where
  status   : Word
  tamper   : Word
  fuses    : Fuses
  measure  : BitVec 384
  vaultHeld : Bool
  wipe     : Option (Nat × Nat)
  lifecycle : Option (Quad × Nat × List Byte)
  debugHalt : BitVec 4
  fuseHeld : Bool
  tampered : Bool
deriving DecidableEq, Repr

/-- A maintenance activity (spec 19 Table 19-1). -/
inductive ActKind where
  | march (target : Nat) (preserve compat : Bool) (list : List Word) (groups : BitVec 32) (bg : Quad)
  | scrub (mask : BitVec 8)
  | castle (b : Fin 80) (lane : Nat)
  | retrain (b : Fin 80)
  | reeq (p : Fin 24)
  | thermal (part : Half)
  | fuse (bank dest : Nat)
  | dieReset (d : Fin 4)
deriving DecidableEq, Repr

/-- A requested or running activity: identifier, kind, the command when a host command asked for it, the resources it
holds (part code and sub-index) and its stall budgets by path in 1/24 ns (spec 19 R331). -/
structure Activity where
  id        : Nat
  kind      : ActKind
  handle    : Option Quad
  resources : List (Nat × Nat)
  budgets   : List (Nat × Nat)
deriving DecidableEq, Repr

/-- The maintenance arbiter (spec 19). -/
structure Marb where
  status  : Quad
  wdog    : Quad
  dietest : Quad
  running : List Activity
  queue   : List Activity
  nextId  : Nat
deriving DecidableEq, Repr

/-- A wide register's snapshot: BAR0 offset of the register and its value (spec 21 R345). -/
structure Snapshot where
  off : Nat
  val : BitVec 256
deriving DecidableEq, Repr

/-- The event logs of spec 21, all in one list, newest first: who logged it, the tick, a code and its values. -/
inductive LogSource where
  | hub | fabric | port (p : Fin 24) | pwc | sec | tly | promotion | drain
deriving DecidableEq, Repr

structure LogEntry where
  source : LogSource
  tick   : Nat
  code   : Nat
  vals   : List Nat
deriving DecidableEq, Repr

/-- What leaves the block: writes to host memory, interrupts, read data, flits, reports over MP, snoops
(spec 15, spec 10, spec 09). -/
inductive Out where
  | hostWrite (addr : Nat) (data : List Byte)
  | msix (vector : Nat)
  | registerData (a : Agent) (v : Quad)
  | unsupported (a : Agent)
  | hostData (addr : Nat) (data : List Byte) (poison : Bool)
  | hostWriteDone (addr : Nat) (accepted : Bool)
  | flit (p : Fin 24) (bytes : List Byte)
  | report (code : Nat) (vals : List Nat)
  | backInvalidate (line : Nat) (data : Bool)
  | snoopResponse (line : Nat)
  | debugData (vals : List Nat)
deriving DecidableEq, Repr

end Sys2Proof.Machine
end

