-- ==== Sys2Proof/Machine/State.lean ====
section
/-!
DEFINITION. The state of the SW8 block as plain data, the reasons for which a command can stop, and the state after reset:
VDD_AON has just risen, PWR_OK is low, and every register holds its reset value (spec 21 R348). The values that the spec
does not give are named in log entries 4, 5 and 6.
-/
namespace Sys2Proof.Machine

/-- The hub's SRAM with its registers, its unrepaired columns and the spares in use (spec 07, spec 21 Table 21-6). -/
structure HubMem where
  sram   : Ram
  ecc    : Quad
  ue     : Quad
  repair : Quad
  badCols : List (Nat × Nat)
  spares  : List (Nat × Nat)
deriving DecidableEq, Repr

/-- The whole block. `pending` is the queue of commands, `free` the model's own counter that free values are drawn with
(log entry 1), `aon` TIME.AON, `regionMode` STK.REGION_MODE0 to 7, `snapHost` and `snapMcp` the wide-register snapshots,
`mail` the management messages delivered to the MCP, `logs` the event logs and `out` what has left the block, both newest
first. -/
structure State where
  pending    : List Instr
  free       : Nat
  aon        : Nat
  dies       : Vector Die 4
  stks       : Vector Stack 8
  regionMode : Vector Quad 8
  hub        : HubMem
  fab        : Fabric
  ports      : Vector Port 24
  job        : Job
  sle        : Sle
  mbq        : Mbq
  wvt        : Wvt
  tly        : Tly
  fr         : Fr
  host       : HostPort
  boot       : Boot
  pwc        : Pwc
  sec        : Sec
  marb       : Marb
  snapCfg    : Quad
  snapHost   : List Snapshot
  snapMcp    : List Snapshot
  hubMsgs    : List HubMsg
  mail       : List (Fin 24 × Msg)
  logs       : List LogEntry
  out        : List Out
deriving DecidableEq, Repr

/-- Why the block would stop with a fault. -/
inductive Fault where
  /-- Raised by a debug access over MP that names a memory address which spec 07 and spec 08 say does not exist. Safe:
  the hardware answers such an access in a way the spec does not give, and the model claims nothing about it. -/
  | noSuchAddress
deriving DecidableEq, Repr

/-- Why a command has no meaning here. -/
inductive Refusal where
  /-- Raised by an arm of exec whose command has no meaning yet. Safe. -/
  | notModelled (mnemonic : String)
  /-- Raised by a debug scan of a die over MP (spec 18 R330), of which the spec gives no effect. Safe. -/
  | scanChain
deriving DecidableEq, Repr

/-- A memory in which every byte reads zero and no unit is marked (log entry 4). -/
def Ram.zero : Ram := ⟨[], []⟩

/-- The registers of a die block at reset (spec 21 R348; Tables 3-2, 3-8, 3-9, 4-3, 5-9, 5-10, 6-8, 6-9, 7-1, 7-2, 7-4,
21-6). -/
def DieRegs.reset : DieRegs where
  descBase := 0
  tsw0     := 0
  tsw1     := 0
  tgrid    := 0
  mxaExc   := 0
  vxeStat  := 0
  vxeExc   := 0
  fault    := 0
  seqState := 0
  active   := 0
  idle     := Vector.replicate 10 0
  spadEcc  := 0
  spadUe   := 0
  repair   := 0x00000000FFFF0000#64
  collide  := 0

/-- A sequencer with no program (spec 06). -/
def Seq.reset : Seq where
  pc      := 0
  loops   := Vector.replicate 16 0
  seed    := 0
  prog    := none
  stopped := false
  wait    := none
  due     := none
  issued  := 0
  mxaQ    := []
  vxeQ    := []
  movQ    := []
  trnQ    := []
  rngQ    := []

/-- A die's power state before BS-08: off, no ceiling below the highest step (spec 17 R307, R313). -/
def DiePower.reset : DiePower where
  off        := true
  aclkOn     := false
  capCeil    := 28
  thermCeil  := 28
  droopCeil  := 28
  stretched  := 0
  droopFree  := 0
  thermMs    := 0
  gateEighth := 0

/-- A die at reset: its registers at reset values, its memories zero, its banks +0 (spec 03 R56). -/
def Die.reset : Die where
  regs     := DieRegs.reset
  copy     := DieRegs.reset
  seq      := Seq.reset
  sems     := Vector.replicate 128 0
  spad     := Ram.zero
  acc0     := []
  acc1     := []
  sat      := []
  excIssue := 0
  mxaFly   := []
  vxeFly   := []
  movFly   := []
  trnFly   := []
  rngFly   := []
  cache    := []
  fills    := []
  invals   := []
  badCols  := []
  spares   := []
  hubClkLost := false
  pwr      := DiePower.reset

/-- A stack at reset (spec 08 Tables 7-1, 8-3, 8-4, 8-5, 8-9). -/
def Stack.reset : Stack where
  mem      := Ram.zero
  status   := 0
  cfg      := 0x1000#32
  scrub    := 0x180000#32
  ecc      := 0
  ue       := 0
  eraseWin := 0
  erase    := []
  scrubPos := 0
  selfRefresh := false
  hardRepair  := []

/-- A bundle at reset: OFF, no lane replaced (spec 09 Tables 9-5, 9-6, 9-7). -/
def Bundle.reset : Bundle where
  status   := 0x00FF0000#32
  laneMap  := 0xFFFFFFFF#32
  err      := 0
  rxNext   := 0
  failing  := 0
  crc      := ⟨0, 0⟩
  low      := []
  former   := 0
  cast     := none
  badLanes := []

/-- The fabric at reset: every die OFF (spec 09 Tables 9-8, 9-9). -/
def Fabric.reset : Fabric where
  bundles  := Vector.replicate 80 Bundle.reset
  dieState := Vector.replicate 4 0x4#32
  castleCfg := 0x40404020#32
  fences   := Vector.replicate 4 none
  resets   := Vector.replicate 4 none
  lostHome := Vector.replicate 4 0
  filters  := []
  hostFilter := []
  pendingWrites := []

/-- The transmit side of a link that has sent nothing (spec 10 R187 to R189). -/
def LinkTx.reset : LinkTx where
  nextSeq := 0
  replay  := []
  resend  := []
  unacked := []
  sent    := Vector.replicate 8 0
  freed   := Vector.replicate 8 0
  queues  := Vector.replicate 8 []
  sending := Vector.replicate 8 none
  rrVc    := 0
  rrLeft  := Vector.replicate 8 0
  lastAck := 0
  ackTick := 0
  sameAck := 0
  nakNow  := false
  ctlOut  := []
  cvc     := 0
  flits   := 0

/-- The receive side of a link that has received nothing (spec 10 R187, R189). -/
def LinkRx.reset : LinkRx where
  expect  := 0
  nakSent := false
  freed   := Vector.replicate 8 0
  opened  := Vector.replicate 8 none
  buffer  := Vector.replicate 8 []
  skip    := Vector.replicate 8 false
  ctlIn   := []
  keys    := []
  delivered := []
  flits   := 0
  ffeAt   := 0

/-- The optical state of a port that has not been trained (spec 10 R191). -/
def PortPhy.reset : PortPhy where
  attempts := 0
  txLambda := 0
  rxLambda := 0
  txGood   := 0
  rxGood   := 0
  light    := false
  rtt      := 0
  partner  := none
  maxMsg   := 0
  vcs      := 0
  ffe      := []
  bias     := []
  eqStep   := 0
  uncorr   := []
  replayMark := none
  reacqAt  := 0
  ctlWait  := []
  retrainTo := (0, 0)
  four     := false

/-- A port at reset (spec 10 Tables 10-13 to 10-18); PORT_CFG.RATE is loaded from the strap at the release of RST_N. -/
def Port.reset : Port where
  cfg      := 0x2040FF42#32
  status   := 0
  partner  := 0xFFFFFFFFFFFFFFFF#64
  vcWeight := 0x00444444#32
  vlogStat := 0
  linkErr  := 0
  vcount   := Vector.replicate 16 0
  vlog     := []
  weight   := ⟨0, 0⟩
  nacks    := []
  tx       := LinkTx.reset
  rx       := LinkRx.reset
  phy      := PortPhy.reset

/-- A group slot at reset: EMPTY (spec 11 Table 11-6). -/
def GroupSlot.reset : GroupSlot := ⟨none, none, 0, 0, 0⟩

/-- No identity (spec 11 R205). -/
def Job.reset : Job where
  identity := 0
  roles    := Vector.replicate 4 0
  roleTick := Vector.replicate 4 0
  groups   := Vector.replicate 64 GroupSlot.reset
  forwarding := []

/-- A stage link at reset (spec 12 Table 12-1): OFF, no port. -/
def StageLink.reset : StageLink where
  reg     := 0x000000000000000000000000FFFFFFFF#128
  started := 0
  granted := 0
  partnerGranted := 0
  outputs := []
  staleTo := none

/-- A slot that is FREE (spec 12 Table 12-5). -/
def Slot.reset : Slot where
  state  := 0
  role   := 0
  step   := 0
  mb     := 0
  wver   := 0
  eval   := false
  isLocal := false
  generated := false
  cause  := 0
  entry  := none
  stash  := none
  len    := 0
  payHub := 0
  paySpill := 0
  bound  := 0
  acked  := false
  fwdSent := false
  bwdSent := false
  takers := 0
  firsts := []
  status := none

/-- A role's queues at reset (spec 12 Tables 12-3, 12-4, 12-10, spec 11 Tables 11-7 to 11-9). -/
def RoleQueue.reset : RoleQueue where
  cfg     := 0x0420000000000001#64
  fpay    := 0x401#64
  bpay    := 0x401#64
  cfgNow  := 0x0420000000000001#64
  fpayNow := 0x401#64
  bpayNow := 0x401#64
  stashCfg := 0
  stashUse := 0
  stashMb  := 0
  stepStat := 0
  fq      := []
  bq      := []
  fOwed   := 0
  counted := []

/-- The micro-batch queue manager at reset. -/
def Mbq.reset : Mbq where
  roles   := Vector.replicate 4 RoleQueue.reset
  slots   := Vector.replicate 16 Slot.reset
  records := []
  area    := Vector.replicate 4 0
  base    := 0
  clock   := 0
  dead    := []

/-- The weight version table at reset (spec 12 Table 12-16). -/
def Wvt.reset : Wvt where
  cfg     := 0x100#32
  ranges  := Vector.replicate 4 0
  entries := []
  emptyVer := Vector.replicate 4 0
  pendingVer := Vector.replicate 4 none
  gathers := Vector.replicate 4 none
  relays  := []
  orders  := 0

/-- The stage link engine at reset. -/
def Sle.reset : Sle where
  up    := Vector.replicate 4 StageLink.reset
  down  := Vector.replicate 4 StageLink.reset
  heard := []
  spbuf := Vector.replicate 4 ⟨0, [], none⟩

/-- The tally engines at reset (spec 13 Tables 13-5 to 13-8). -/
def Tly.reset : Tly where
  cfg     := 0x40080000#32
  staging := 0
  stat    := 0
  check   := 0
  jobs    := Vector.replicate 64 none
  returned := []
  reshards := []

/-- A role that has not voted (spec 14). -/
def RoleVote.reset : RoleVote := ⟨none, false, 0, 0, none, 0, [], [], [], none⟩

/-- The failure-and-recovery block at reset (spec 14 Tables 14-4, 14-5, 14-9, 14-10, spec 21 Table 21-7). -/
def Fr.reset : Fr where
  buddy    := 0xFF000000#64
  hold     := 0xFF000000#64
  copy     := Vector.replicate 4 0xFFFFFFFFFFFFFFFF#64
  decision := Vector.replicate 4 0
  cfg      := 0x01001040#32
  votes    := Vector.replicate 4 RoleVote.reset
  returned := []
  due      := []
  pairing  := none
  drains   := []
  copies   := Vector.replicate 4 []
  digests  := Vector.replicate 4 none
  holdArea := 0
  holdBytes := 0
  slots    := []
  copyBuf  := []
  redone   := Vector.replicate 4 none
  fillNow  := []
  fillQueue := []
  digestQueue := []
  promotion := none

/-- The host port at reset: link down, rings disabled (spec 15 Tables 15-5 to 15-9, spec 21 Table 21-5). -/
def HostPort.reset : HostPort where
  linkUp  := false
  sqs     := Vector.replicate 32 ⟨0, 0x40000#32, 0, 0, 0, false⟩
  cqs     := Vector.replicate 32 ⟨0, 0x40100#32, 0, 0, true, [], 0, none⟩
  ringErr := 0
  memErr  := 0
  cmds    := []
  orders  := 0
  runs    := []

/-- Before PWR_OK first rises: VIN in range, RST_N low, straps unconnected (spec 16 R293, spec 21 Table 21-8), an empty
ledger, and flash of zeros (log entries 4 and 5). -/
def Boot.reset : Boot where
  pwrOk     := false
  rstN      := false
  vinOk     := true
  straps    := 0x0004F000#32
  retained  := 0
  step      := 0
  stepBegin := 0
  stepOpen  := false
  restartAt := none
  inService := false
  ldgStart  := 0
  ldgCtrl   := 0
  steps     := Vector.replicate 14 0
  bank0     := []
  bank1     := []
  bankNow   := 0
  nextSeq   := 0
  fails     := []
  flashA    := Ram.zero
  flashB    := Ram.zero
  imageSrc  := 0
  window    := none
  manifest  := none
  wakeLatch := none
  mpUp      := false
  mpRate    := 0
  coresUp   := 0
  excludedDies := 0
  excludedStacks := 0
  erasedStacks := 0
  xUp       := false
  tamperHalt := false

/-- The power controller at reset (spec 01 Table 1-8, spec 17 Tables 17-6 to 17-13). -/
def Pwc.reset : Pwc where
  clkFault  := 0
  mode      := 0
  power     := 0x0A8C000000000000#64
  dvfs      := Vector.replicate 4 0x00E00000#32
  thermCfg  := 0x64555000#32
  thermStatus := 0
  watchCfg  := 0x02800000#32
  lastWake  := 0x4#32
  padHold   := 0x1FFF#32
  state     := 4
  cmd       := none
  cmdFail   := none
  cmdDies   := 0
  samples   := []
  guard     := 0
  vf        := Vector.replicate 4 []
  trimmed   := false
  refused   := 0
  watchAt   := 0
  watchTaken := 0
  stopped   := false
  tripped   := false
  brown     := false
  overVolt  := false
  tripAt    := 0
  exiting   := 0
  oeDark    := 0
  mclkLost  := 0

/-- A nominal voltage-frequency table in mV: 620 at step 0, 750 at step 20, 860 at step 28, straight between (log entry 6). -/
def nominalVf : List Nat := (List.range 29).map fun n => if n ≤ 20 then 620 + 13 * n / 2 else 750 + 110 * (n - 20) / 8

/-- A part as it leaves manufacture: in state MANUFACTURE, with slots 0 and 1 fused (log entry 6). -/
def Fuses.reset : Fuses where
  lifeWords := [1]
  rmaCount  := 0
  keys      := #v[⟨0, 0, true, false⟩, ⟨0, 0, true, false⟩, ⟨0, 0, false, false⟩, ⟨0, 0, false, false⟩]
  svn       := 0
  columns   := []
  lanes     := []
  vf        := List.replicate 4 nominalVf
  serial    := 0

/-- The security block at reset (spec 18 Tables 18-5, 18-6, R328). -/
def Sec.reset : Sec where
  status   := 0
  tamper   := 0
  fuses    := Fuses.reset
  measure  := 0
  vaultHeld := false
  wipe     := none
  lifecycle := none
  debugHalt := 0
  fuseHeld := false
  tampered := false

/-- The maintenance arbiter at reset (spec 19 Tables 19-3, 19-5, 19-6). -/
def Marb.reset : Marb where
  status  := 0
  wdog    := 0x000014143C283232#64
  dietest := 0xA00#64
  running := []
  queue   := []
  nextId  := 0

/-- The machine right after reset. -/
def State.reset : State where
  pending    := []
  free       := 0
  aon        := 0
  dies       := Vector.replicate 4 Die.reset
  stks       := Vector.replicate 8 Stack.reset
  regionMode := Vector.replicate 8 0
  hub        := ⟨Ram.zero, 0, 0, 0x00000000FFFF0000#64, [], []⟩
  fab        := Fabric.reset
  ports      := Vector.replicate 24 Port.reset
  job        := Job.reset
  sle        := Sle.reset
  mbq        := Mbq.reset
  wvt        := Wvt.reset
  tly        := Tly.reset
  fr         := Fr.reset
  host       := HostPort.reset
  boot       := Boot.reset
  pwc        := Pwc.reset
  sec        := Sec.reset
  marb       := Marb.reset
  snapCfg    := 0
  snapHost   := []
  snapMcp    := []
  hubMsgs    := []
  mail       := []
  logs       := []
  out        := []

end Sys2Proof.Machine
end

