-- ==== Sys2Proof/Machine/Mem.lean ====
section
/-!
DEFINITION. The memories: sparse bytes with protected units. Scratchpad and hub SRAM words with SEC-DED (spec 07 R134), the
semaphore words (spec 06 R118), the bit aliases (spec 07 R138), stack codewords with the outer code (spec 08 R151 to R155),
and the address decode (spec 08 R157, R158). Log entry 4: a byte that nothing has written reads zero.
-/
namespace Sys2Proof.Machine

/-! ## Sparse bytes -/

/-- A byte that a read returned: none where it is poisoned. -/
abbrev PByte := Option Byte

/-- What a byte that nothing has written reads as (log entry 4). -/
def unlistedByte : Byte := 0

/-- The byte at an address. -/
def Ram.rd (r : Ram) (a : Nat) : Byte := (sget r.bytes a).getD unlistedByte

/-- Write one byte, in canonical form. -/
def Ram.wr (r : Ram) (a : Nat) (b : Byte) : Ram := { r with bytes := sset unlistedByte r.bytes a b }

/-- `n` bytes from an address. -/
def Ram.rds (r : Ram) (a n : Nat) : List Byte := (List.range n).map fun i => r.rd (a + i)

/-- Write bytes from an address on. -/
def Ram.wrs (r : Ram) (a : Nat) : List Byte → Ram
  | [] => r
  | b :: bs => (r.wr a b).wrs (a + 1) bs

/-- The mark of a protected unit. -/
def Ram.mark (r : Ram) (u : Nat) : Option Mark := sget r.marks u

/-- Set or clear the mark of a protected unit. -/
def Ram.setMark (r : Ram) (u : Nat) (m : Option Mark) : Ram :=
  { r with marks := match m with
      | some x => sput r.marks u x
      | none => sdel r.marks u }

/-- Note that a read has corrected a codeword, so that its write-back is due (spec 08 Table 8-2). -/
def Ram.see (r : Ram) (u : Nat) : Ram :=
  match r.mark u with
  | some (.sym t ds mis _) => r.setMark u (some (.sym t ds mis true))
  | _ => r

/-- The canonical form: addresses strictly rising and no entry equal to what an unlisted address reads as; marks rising. -/
def Ram.wf (r : Ram) : Bool :=
  rising r.bytes && r.bytes.all (fun c => c.2 != unlistedByte) && rising r.marks

/-! ## Protected words (spec 07 R134) -/

/-- A memory of protected 8 B words with its ECC and UE registers. -/
structure WordMem where
  ram : Ram
  ecc : Quad
  ue  : Quad
deriving DecidableEq, Repr

/-- Count an uncorrectable read and capture the first word (R134, Tables 7-1, 7-2). -/
def wmUncorrectable (m : WordMem) (w : Nat) : WordMem :=
  { m with
    ecc := fsat eccUeCount 1 m.ecc
    ue := if fon spadUeValid m.ue then m.ue else fput spadUeWord w (fput spadUeValid 1 m.ue) }

/-- What the read of a word does besides returning its data: the counts, and whether the data is poisoned. -/
def wmCheck (m : WordMem) (w : Nat) : WordMem × Bool :=
  match m.ram.mark w with
  | none => (m, false)
  | some (.ce _) => ({ m with ram := m.ram.setMark w (some (.ce true)), ecc := fsat eccCeCount 1 m.ecc }, false)
  | some .poison => (m, true)
  | some _ => (wmUncorrectable m w, true)

/-- A plain write of a whole word, or of part of one, given as eight optional replacements; `bad` is poisoned data. Answers
whether POISONED is set for the writer (R134). -/
def wmWrite (m : WordMem) (w : Nat) (bs : List (Option Byte)) (bad : Bool) : WordMem × Bool :=
  if bad then ({ m with ram := (m.ram.wrs (8 * w) (List.replicate 8 0)).setMark w (some .poison) }, false)
  else if bs.all Option.isSome then
    ({ m with ram := (m.ram.wrs (8 * w) (bs.map (·.getD 0))).setMark w none }, false)
  else
    let (m', p) := wmCheck m w
    if p then (m', true)
    else
      let old := m'.ram.rds (8 * w) 8
      ({ m' with ram := (m'.ram.wrs (8 * w) ((bs.zip old).map fun x => x.1.getD x.2)).setMark w none }, false)

/-- A write through a bit alias (R138, R139): bit-set or bit-clear of the covered bytes. -/
def wmAlias (m : WordMem) (clear : Bool) (w : Nat) (bs : List (Option Byte)) (bad : Bool) : WordMem × Bool :=
  if bad then ({ m with ram := m.ram.setMark w (some .poison) }, false)
  else
    let (m', p) := wmCheck m w
    if p then (m', true)
    else
      let old := m'.ram.rds (8 * w) 8
      let new := (bs.zip old).map fun x => match x.1 with
        | none => x.2
        | some b => if clear then x.2 &&& ~~~b else x.2 ||| b
      ({ m' with ram := (m'.ram.wrs (8 * w) new).setMark w none }, false)

/-- The words that a range of `n` bytes from `a` touches. -/
def wordsOf (a n : Nat) : List Nat :=
  if n = 0 then [] else (List.range ((a + n - 1) / 8 - a / 8 + 1)).map (· + a / 8)

/-- The eight optional bytes that a write of `bs` at `a` brings to word `w`, and whether any of them is poisoned. -/
def wordPart (a : Nat) (bs : List PByte) (w : Nat) : List (Option Byte) × Bool :=
  let cells : List (Option PByte) := (List.range 8).map fun i =>
    if a ≤ 8 * w + i then bs[8 * w + i - a]? else none
  (cells.map (fun c => match c with
    | some (some b) => some b
    | _ => none), cells.any fun c => c == some none)

/-- Read a range of a word memory: poisoned words give poisoned bytes. -/
def wmRead (m : WordMem) (a n : Nat) : WordMem × List PByte :=
  let (m', bad) := (wordsOf a n).foldl (fun (x : WordMem × List Nat) w =>
    let (y, p) := wmCheck x.1 w
    (y, if p then w :: x.2 else x.2)) (m, [])
  (m', (List.range n).map fun i =>
    if bad.contains ((a + i) / 8) then none else some (m.ram.rd (a + i)))

/-- Write a range of a word memory; the selector is that of R138 (0 plain, 1 bit-set, 2 bit-clear). -/
def wmWrites (m : WordMem) (sel a : Nat) (bs : List PByte) : WordMem × Bool :=
  (wordsOf a bs.length).foldl (fun (x : WordMem × Bool) w =>
    let (part, bad) := wordPart a bs w
    let (y, p) := if sel = 0 then wmWrite x.1 w part bad else wmAlias x.1 (sel == 2) w part bad
    (y, x.2 || p)) (m, false)

/-! ## Sizes and places -/

/-- Scratchpad bytes of a die (spec 07 R131). -/
def spadSize : Nat := 0xA000000
/-- Where the twin region starts (R131). -/
def twinBase : Nat := 0x9E00000
/-- Hub SRAM bytes below the vault, and the end of the vault (spec 07 R140). -/
def vaultBase : Nat := 0x5C00000
def hubSize : Nat := 0x6000000
/-- Device addresses (spec 08). -/
def devSize : Nat := 0x8000000000

/-! ## Scratchpad of a die, with its semaphore words (spec 06 R118) -/

def Die.words (d : Die) : WordMem := ⟨d.spad, d.regs.spadEcc, d.regs.spadUe⟩

def Die.setWords (d : Die) (m : WordMem) : Die :=
  { d with spad := m.ram, regs := { d.regs with spadEcc := m.ecc, spadUe := m.ue } }

/-- The first semaphore word: count words, then add words. -/
def semWord : Nat := twinBase / 8

/-- The semaphore whose count a word holds. -/
def semOfWord (w : Nat) : Option (Fin 128) := if semWord ≤ w then fin? 128 (w - semWord) else none

/-- The semaphore to which a word adds. -/
def addOfWord (w : Nat) : Option (Fin 128) := if semWord + 128 ≤ w then fin? 128 (w - semWord - 128) else none

/-- Whether the count of a semaphore reads as poisoned (R134). -/
def Die.semPoisoned (d : Die) (i : Fin 128) : Bool :=
  match d.spad.mark (semWord + i.1) with
  | some .ue => true
  | some .poison => true
  | _ => false

/-- The count that a wait test sees (R134: a poisoned word counts as 0). -/
def Die.semCount (d : Die) (i : Fin 128) : Nat := if d.semPoisoned i then 0 else (vget d.sems i).toNat

/-- An add (R118, R119, R134): a poisoned word stays as it is; a count stays at its top on overflow, which is answered. -/
def Die.semAdd (d : Die) (i : Fin 128) (n : Nat) : Die × Bool :=
  if d.semPoisoned i || n == 0 then (d, false)
  else
    let c := (vget d.sems i).toNat + n
    if 0xFFFFFFFF < c then ({ d with sems := vset d.sems i 0xFFFFFFFF#32 }, true)
    else ({ d with sems := vset d.sems i (BitVec.ofNat 32 c) }, false)

/-- A plain write of a count; it restores a poisoned word (R118, R134). -/
def Die.semSet (d : Die) (i : Fin 128) (n : Nat) : Die :=
  { d with sems := vset d.sems i (BitVec.ofNat 32 n), spad := d.spad.setMark (semWord + i.1) none }

/-- The decrement of a wait whose test passed (R116). -/
def Die.semTake (d : Die) (i : Fin 128) : Die :=
  { d with sems := vset d.sems i (BitVec.ofNat 32 (d.semCount i - 1)) }

/-- The data byte of a scratchpad offset, semaphore words included. -/
def Die.byte (d : Die) (a : Nat) : Byte :=
  match semOfWord (a / 8), addOfWord (a / 8) with
  | some i, _ => if a % 8 < 4 then BitVec.ofNat 8 ((vget d.sems i).toNat / 256 ^ (a % 8)) else 0
  | _, some _ => 0
  | _, _ => d.spad.rd a

/-- A read of scratchpad bytes (R131, R134, R118). -/
def Die.read (d : Die) (a n : Nat) : Die × List PByte :=
  let (m, bad) := (wordsOf a n).foldl (fun (x : WordMem × List Nat) w =>
    let (y, p) := wmCheck x.1 w
    (y, if p then w :: x.2 else x.2)) (d.words, [])
  (d.setWords m, (List.range n).map fun i =>
    if bad.contains ((a + i) / 8) then none else some (d.byte (a + i)))

/-- A plain write of one scratchpad word: whether POISONED is set, and whether a semaphore overflowed. -/
def Die.writeWord (d : Die) (w : Nat) (bs : List (Option Byte)) (bad : Bool) : Die × Bool × Bool :=
  match semOfWord w, addOfWord w with
  | some i, _ =>
    if bad then ({ d with spad := d.spad.setMark w (some .poison) }, false, false)
    else if d.semPoisoned i && !bs.all Option.isSome then (d, true, false)
    else
      let old := natLe 4 (vget d.sems i).toNat
      let new := (bs.zip old).map fun x => x.1.getD x.2
      (d.semSet i (leNat new), false, false)
  | _, some i =>
    let (d', o) := d.semAdd i (if bad then 0 else leNat ((bs.take 4).map (·.getD 0)))
    (d', false, o)
  | _, _ =>
    let (m, p) := wmWrite d.words w bs bad
    (d.setWords m, p, false)

/-- A write of scratchpad bytes through a selector of R138: whether POISONED is set, and whether a semaphore overflowed. -/
def Die.write (d : Die) (sel a : Nat) (bs : List PByte) : Die × Bool × Bool :=
  if sel = 0 then
    (wordsOf a bs.length).foldl (fun (x : Die × Bool × Bool) w =>
      let (part, bad) := wordPart a bs w
      let (d', p, o) := x.1.writeWord w part bad
      (d', x.2.1 || p, x.2.2 || o)) (d, false, false)
  else
    let (m, p) := wmWrites d.words sel a bs
    (d.setWords m, p, false)

/-! ## Hub SRAM -/

def HubMem.words (h : HubMem) : WordMem := ⟨h.sram, h.ecc, h.ue⟩

def HubMem.setWords (h : HubMem) (m : WordMem) : HubMem := { h with sram := m.ram, ecc := m.ecc, ue := m.ue }

/-! ## Stack codewords (spec 08 R151 to R155) -/

/-- How the decoder sees a codeword. -/
inductive CwRead where
  | clean
  | corrected
  | miscorrected (data : List Byte)
  | uncorrectable
  | poisoned
deriving DecidableEq, Repr

/-- The core die erased under R155, if any. -/
def Stack.erasedDie (k : Stack) : Option Nat :=
  if fon stkErased k.status then some (fget stkErasedDie k.status) else none

/-- The core dies whose bursts of a codeword are erasures: those that report and the erased one. -/
def Stack.erasures (k : Stack) (ds : List (Fin 16)) : List Nat :=
  let l := (ds.map (·.1)).eraseDups
  match k.erasedDie with
  | some e => if l.contains e then l else e :: l
  | none => l

/-- The decoder (R151, R152): C4 corrects t errors and e erasures with 2t + e ≤ 8, D8 erasures only. -/
def Stack.decode (k : Stack) (cw : Nat) : CwRead :=
  let (t, ds, mis) := match k.mem.mark cw with
    | some (.sym t ds mis _) => (t, ds, mis)
    | _ => (0, [], [])
  match k.mem.mark cw with
  | some .poison => .poisoned
  | some .ue => .uncorrectable
  | _ =>
    let e := 8 * (k.erasures ds).length
    if t = 0 ∧ e = 0 then .clean
    else if fget stkCfgDecode k.cfg = 1 then
      (if t = 0 ∧ e ≤ 8 then .corrected else .uncorrectable)
    else if 2 * t + e ≤ 8 then .corrected
    else if e = 0 ∧ 5 ≤ t ∧ t ≤ 8 ∧ mis.length = 64 then .miscorrected mis
    else .uncorrectable

/-- Count the group's bursts of inner-uncorrectable severity (R155): distinct groups per core die in the window; a die that
reaches the limit is erased, a second one loses the stack (R160). Answers the stack and whether it was lost by this. -/
def Stack.countErase (k : Stack) (win grp : Nat) (ds : List (Fin 16)) : Stack × Bool :=
  let k := if k.eraseWin = win then k else { k with eraseWin := win, erase := [] }
  ds.foldl (fun (x : Stack × Bool) c =>
    let (k, lost) := x
    if k.erase.contains (grp, c.1) then x
    else
      let k := { k with erase := (grp, c.1) :: k.erase }
      let n := (k.erase.filter fun x => x.2 == c.1).length
      let lim := fget stkCfgEraseLimit k.cfg
      if lim = 0 ∨ n < lim then (k, lost)
      else match k.erasedDie with
        | none => ({ k with status := fput stkErasedDie c.1 (fput stkErased 1 k.status) }, lost)
        | some e => if e = c.1 then (k, lost) else (k, true)) (k, false)

/-- Mark the stack lost (R160, Table 8-9); an earlier cause stays. -/
def Stack.lose (k : Stack) (cause : Nat) : Stack :=
  if fon stkLost k.status then k
  else { k with status := fput stkLostCause cause (fput stkLost 1 k.status) }

/-- What the read of a codeword does (Table 8-2): counts, capture, the poison marker on an uncorrectable codeword, and the
data if it is good. `dev` is the device address of its group. -/
def Stack.readCw (k : Stack) (win dev cw : Nat) : Stack × Option (List Byte) :=
  let ds := match k.mem.mark cw with
    | some (.sym _ ds _ _) => ds
    | _ => []
  let (k, two) := k.countErase win (cw / 4) ds
  let k := if two then k.lose 4 else k
  match k.decode cw with
  | .clean => (k, some (k.mem.rds (64 * cw) 64))
  | .corrected =>
    ({ k with ecc := fsat eccCeCount 1 k.ecc, mem := k.mem.see cw }, some (k.mem.rds (64 * cw) 64))
  | .miscorrected d =>
    ({ k with ecc := fsat eccCeCount 1 k.ecc, mem := k.mem.see cw }, some d)
  | .poisoned => (k, none)
  | .uncorrectable =>
    ({ k with
        ecc := fsat eccUeCount 1 k.ecc
        ue := if fon stkUeValid k.ue then k.ue else fput stkUeGroup (dev / 256) (fput stkUeValid 1 k.ue)
        mem := k.mem.setMark cw (some .poison) }, none)

/-- Write a corrected codeword back (Table 8-2, spec 08 R156): the decoder's result replaces what was stored. -/
def Stack.writeBack (k : Stack) (cw : Nat) : Stack :=
  match k.mem.mark cw, k.decode cw with
  | some (.sym _ _ _ true), .corrected => { k with mem := k.mem.setMark cw none }
  | some (.sym _ _ _ true), .miscorrected d => { k with mem := (k.mem.wrs (64 * cw) d).setMark cw none }
  | _, _ => k

/-- A read of bytes that lie in one 4 KiB granule of a stack: `off` the stack offset, `dev` the device address. -/
def Stack.read (k : Stack) (win dev off n : Nat) : Stack × List PByte :=
  if n = 0 then (k, [])
  else
    let cws := (List.range ((off + n - 1) / 64 - off / 64 + 1)).map (· + off / 64)
    let (k', bs) := cws.foldl (fun (x : Stack × List PByte) cw =>
      let (y, d) := x.1.readCw win (dev / 4096 * 4096 + (64 * cw) % 4096) cw
      (y, x.2 ++ match d with
        | some l => l.map some
        | none => List.replicate 64 none)) (k, [])
    (k', slice bs (off % 64) n)

/-- A write of bytes of one codeword: a whole good codeword replaces it; otherwise it is read and merged (R152, R153). -/
def Stack.writeCw (k : Stack) (win dev cw : Nat) (bs : List (Option PByte)) : Stack :=
  let bad := bs.any (· == some none)
  let whole := bs.all Option.isSome
  if whole && !bad then
    { k with mem := (k.mem.wrs (64 * cw) (bs.map fun b => (b.getD none).getD 0)).setMark cw none }
  else if bad then { k with mem := k.mem.setMark cw (some .poison) }
  else
    match k.readCw win dev cw with
    | (k', none) => { k' with mem := k'.mem.setMark cw (some .poison) }
    | (k', some old) =>
      { k' with mem := (k'.mem.wrs (64 * cw) ((bs.zip old).map fun x => (x.1.getD none).getD x.2)).setMark cw none }

/-- A write of bytes that lie in one 4 KiB granule of a stack, by whole groups (R153). -/
def Stack.write (k : Stack) (win dev off : Nat) (bs : List PByte) : Stack :=
  if bs.isEmpty then k
  else
    let g0 := off / 256
    let g1 := (off + bs.length - 1) / 256
    let cws := (List.range (4 * (g1 - g0 + 1))).map (· + 4 * g0)
    cws.foldl (fun k cw =>
      let cells : List (Option PByte) := (List.range 64).map fun i =>
        if off ≤ 64 * cw + i then bs[64 * cw + i - off]? else none
      k.writeCw win (dev / 4096 * 4096 + (64 * cw) % 4096) cw cells) k

/-! ## Address decode (spec 08 R157, R158) -/

/-- Where a device address lies: home die, stack, stack offset. -/
structure DevPlace where
  die   : Fin 4
  stack : Fin 8
  off   : Nat
deriving DecidableEq, Repr

/-- The mode bit of region `i`: true for SPREAD. -/
def regionSpread (rm : Vector Quad 8) (i : Nat) : Bool :=
  match fin? 8 (i / 64) with
  | some n => (vget rm n).getLsbD (i % 64)
  | none => false

/-- Whether the four regions of an address's quartet disagree (R158). -/
def quartetSplit (rm : Vector Quad 8) (a : Nat) : Bool :=
  let i := nbits a 36 30
  let b := regionSpread rm i
  [128, 256, 384].any fun k => regionSpread rm (i + k) != b

/-- The address decode of Table 8-6. -/
def devPlace (rm : Vector Quad 8) (a : Nat) : DevPlace :=
  let spread := regionSpread rm (nbits a 38 30)
  let d := if spread then nbits a 13 12 else nbits a 38 37
  let st := if spread then nbits a 14 14 else nbits a 12 12
  let off := if spread then
      nbits a 36 30 * 2 ^ 29 + nbits a 29 15 * 2 ^ 14 + nbits a 38 37 * 2 ^ 12 + nbits a 11 0
    else nbits a 36 30 * 2 ^ 29 + nbits a 29 13 * 2 ^ 12 + nbits a 11 0
  ⟨⟨d % 4, Nat.mod_lt _ (by decide)⟩, ⟨(2 * d + st) % 8, Nat.mod_lt _ (by decide)⟩, off⟩

/-- The device address that a stack offset of a stack holds, in the mode of its quartet (the inverse of `devPlace`). -/
def devOf (rm : Vector Quad 8) (k off : Nat) : Nat :=
  let top := nbits off 35 29
  let d := k / 2
  let st := k % 2
  if regionSpread rm top then
    nbits off 13 12 * 2 ^ 37 + top * 2 ^ 30 + nbits off 28 14 * 2 ^ 15 + st * 2 ^ 14 + d * 2 ^ 12 + nbits off 11 0
  else d * 2 ^ 37 + top * 2 ^ 30 + nbits off 28 12 * 2 ^ 13 + st * 2 ^ 12 + nbits off 11 0

/-- A range cut at 4 KiB boundaries: addresses and lengths. -/
def granules : Nat → Nat → Nat → List (Nat × Nat)
  | 0, _, _ => []
  | f + 1, a, n =>
    if n = 0 then []
    else
      let k := min n (4096 - a % 4096)
      (a, k) :: granules f (a + k) (n - k)

end Sys2Proof.Machine
end

