-- ==== Sys2Proof/Machine/Ops.lean ====
section
/-!
DEFINITION. The named operations over the state that every family of commands uses: element access, free values, logs and
outputs, part and status codes, die and stack availability, memory reads and writes with their coherence, completion
records, semaphore posts, outgoing messages.
-/
namespace Sys2Proof.Machine

/-! ## Elements of the state -/

def State.die (s : State) (d : Fin 4) : Die := vget s.dies d
def State.modDie (s : State) (d : Fin 4) (f : Die → Die) : State := { s with dies := vmod s.dies d f }
def State.modRegs (s : State) (d : Fin 4) (f : DieRegs → DieRegs) : State :=
  s.modDie d fun x => { x with regs := f x.regs }
def State.modSeq (s : State) (d : Fin 4) (f : Seq → Seq) : State := s.modDie d fun x => { x with seq := f x.seq }
def State.stk (s : State) (k : Fin 8) : Stack := vget s.stks k
def State.modStk (s : State) (k : Fin 8) (f : Stack → Stack) : State := { s with stks := vmod s.stks k f }
def State.port (s : State) (p : Fin 24) : Port := vget s.ports p
def State.modPort (s : State) (p : Fin 24) (f : Port → Port) : State := { s with ports := vmod s.ports p f }
def State.modFab (s : State) (f : Fabric → Fabric) : State := { s with fab := f s.fab }
def State.modJob (s : State) (f : Job → Job) : State := { s with job := f s.job }
def State.modSle (s : State) (f : Sle → Sle) : State := { s with sle := f s.sle }
def State.modMbq (s : State) (f : Mbq → Mbq) : State := { s with mbq := f s.mbq }
def State.modWvt (s : State) (f : Wvt → Wvt) : State := { s with wvt := f s.wvt }
def State.modTly (s : State) (f : Tly → Tly) : State := { s with tly := f s.tly }
def State.modFr (s : State) (f : Fr → Fr) : State := { s with fr := f s.fr }
def State.modHost (s : State) (f : HostPort → HostPort) : State := { s with host := f s.host }
def State.modBoot (s : State) (f : Boot → Boot) : State := { s with boot := f s.boot }
def State.modPwc (s : State) (f : Pwc → Pwc) : State := { s with pwc := f s.pwc }
def State.modSec (s : State) (f : Sec → Sec) : State := { s with sec := f s.sec }
def State.modMarb (s : State) (f : Marb → Marb) : State := { s with marb := f s.marb }
def State.modHub (s : State) (f : HubMem → HubMem) : State := { s with hub := f s.hub }

/-- Apply an operation for each element of a list, in order. -/
def forEach {α : Type} (l : List α) (f : State → α → State) (s : State) : State := l.foldl f s

/-! ## Free values (log entry 1) -/

/-- A free number below `n` (0 where n is 0), and the state with the counter advanced. -/
def State.fresh (s : State) (n : Nat) : Nat × State :=
  (Config.freeNat s.free % n, { s with free := s.free + 1 })

/-- `n` free bytes. -/
def State.freshBytes (s : State) (n : Nat) : List Byte × State :=
  ((List.range n).map fun i => BitVec.ofNat 8 (Config.freeNat (s.free + i)), { s with free := s.free + n })

/-! ## Logs and outputs -/

def State.log (s : State) (src : LogSource) (code : Nat) (vals : List Nat) : State :=
  { s with logs := ⟨src, s.aon, code, vals⟩ :: s.logs }

def State.emit (s : State) (o : Out) : State := { s with out := o :: s.out }

/-! ## Status codes (spec 15 Table 15-16) -/

def stOk : Half := 0x0000#16
def stOkDegraded : Half := 0x0001#16
def stQueued : Half := 0x0010#16
def stAccepted : Half := 0x0011#16
def stReshardPending : Half := 0x0012#16
def stCancelled : Half := 0x0020#16
def stRoleStale : Half := 0x0030#16
def stLayoutStale : Half := 0x0031#16
def stMembershipStale : Half := 0x0032#16
def stSharedFeed : Half := 0x0040#16
def stVersionGone : Half := 0x0041#16
def stSourceLost : Half := 0x0042#16
def stDieLost : Half := 0x0050#16
def stStackLost : Half := 0x0051#16
def stPortLost : Half := 0x0052#16
def stPoisoned : Half := 0x0060#16
def stNonfinite : Half := 0x0061#16
def stLateDropped : Half := 0x0070#16
def stLateCarried : Half := 0x0071#16
def stConflict : Half := 0x0080#16
def stBadDescriptor : Half := 0x0090#16
def stNotPermitted : Half := 0x0091#16
def stBrownout : Half := 0x00A0#16
def stInternal : Half := 0x00FF#16

/-- Details of BAD_DESCRIPTOR and NOT_PERMITTED. -/
def dtReadErr : Half := 0x0001#16
def dtReserved : Half := 0x0002#16
def dtOpcode : Half := 0x0003#16
def dtArgument : Half := 0x0004#16
def dtAddress : Half := 0x0005#16
def dtCheck : Half := 0x0006#16
def dtState : Half := 0x0001#16
def dtLifeCycle : Half := 0x0002#16
def dtRunning : Half := 0x0003#16
def dtEpoch : Half := 0x0004#16

/-- A status that is final (spec 00 R4). -/
def isFinal (st : Half) : Bool := nbits st.toNat 15 4 != 1

/-! ## Part codes (spec 01 Table 1-4) -/

def part (cls idx : Nat) : Half := BitVec.ofNat 16 (cls * 4096 + idx)
def partDie (d : Fin 4) : Half := part 1 d.1
def partUnit (d : Fin 4) (unit : Nat) : Half := part 2 (16 * d.1 + unit)
def partStack (k : Fin 8) : Half := part 3 k.1
/-- The part code of a bundle by its index in FAB (0 to 63 hub bundles, 64 to 79 neighbour bundles). -/
def partBundle (b : Fin 80) : Half := if b.1 < 64 then part 4 b.1 else part 5 (b.1 - 64)
def partPort (p : Fin 24) : Half := part 7 p.1

/-- The engines' unit numbers (Table 1-4, class 0x2). -/
def unitMxa : Nat := 0
def unitVxe : Nat := 1
def unitMov : Nat := 2
def unitTrn : Nat := 3
def unitRng : Nat := 4
def unitSeq : Nat := 5

def engineUnit : Engine → Nat
  | .vxe => 1
  | .mov => 2
  | .trn => 3
  | .rng => 4

/-! ## Dies and stacks in and out of service -/

/-- FAB.DIE_STATE.STATE (spec 09 Table 9-8). -/
def State.dieSt (s : State) (d : Fin 4) : Nat := fget dieState (vget s.fab.dieState d)

def dsUp : Nat := 0
def dsDegraded : Nat := 1
def dsFenced : Nat := 2
def dsResetting : Nat := 3
def dsOff : Nat := 4
def dsExcluded : Nat := 5

/-- The die is UP or DEGRADED and no fence is under way. -/
def State.dieServes (s : State) (d : Fin 4) : Bool :=
  s.dieSt d ≤ 1 && (vget s.fab.fences d).isNone

/-- The die is fenced, or being fenced: requests complete with DIE_LOST (spec 09 Table 9-3, step 1). -/
def State.dieFenced (s : State) (d : Fin 4) : Bool :=
  s.dieSt d == dsFenced || (vget s.fab.fences d).isSome

/-- Why a device address cannot be served: status and part (spec 08 R160, spec 09 R177, R178, R364, spec 17 R310). -/
def State.devStatus (s : State) (a : Nat) : Option (Half × Half) :=
  if devSize ≤ a || quartetSplit s.regionMode a then some (stBadDescriptor, dtAddress)
  else
    let p := devPlace s.regionMode a
    if s.dieFenced p.die then some (stDieLost, partDie p.die)
    else if s.dieSt p.die == dsResetting || s.dieSt p.die == dsOff then some (stNotPermitted, partDie p.die)
    else if s.dieSt p.die == dsExcluded || fon stkLost (s.stk p.stack).status then
      some (stStackLost, partStack p.stack)
    else none

/-- Whether a destructive march holds the die's twin region (spec 19 Table 19-1). -/
def State.twinHeld (s : State) (d : Fin 4) : Bool :=
  s.marb.running.any fun a => match a.kind with
    | .march t false _ _ g _ => t == d.1 && g.getLsbD 16
    | _ => false

/-- Why port B of a die's twin region cannot be reached: status and part (spec 09 R177, R364, spec 17 R310). -/
def State.twinStatus (s : State) (d : Fin 4) : Option (Half × Half) :=
  if s.dieFenced d then some (stDieLost, partDie d)
  else if 2 ≤ s.dieSt d then some (stNotPermitted, partDie d)
  else if s.twinHeld d then some (stNotPermitted, partDie d)
  else none

/-! ## Bit errors that strike before a read (log entry 3) -/

/-- Apply one bit error: the marks of the unit it strikes (spec 07 R134, spec 08 R151). -/
def State.upset1 (s : State) (x : Upset) : State :=
  match x.site, x.kind with
  | .spad d, .single => s.modDie d fun y =>
      if (y.spad.mark x.unit).isNone && decide (8 * x.unit < spadSize) then { y with spad := y.spad.setMark x.unit (some (.ce false)) }
      else y
  | .spad d, .double => s.modDie d fun y =>
      if y.spad.mark x.unit != some .poison && decide (8 * x.unit < spadSize) then
        { y with spad := y.spad.setMark x.unit (some .ue) } else y
  | .hub, .single => s.modHub fun h =>
      if (h.sram.mark x.unit).isNone && decide (8 * x.unit < hubSize) then { h with sram := h.sram.setMark x.unit (some (.ce false)) }
      else h
  | .hub, .double => s.modHub fun h =>
      if h.sram.mark x.unit != some .poison && decide (8 * x.unit < hubSize) then
        { h with sram := h.sram.setMark x.unit (some .ue) } else h
  | .stack k, .symbols t ds mis => s.modStk k fun y =>
      if y.mem.mark x.unit != some .poison && decide (64 * x.unit < 2 ^ 36) then
        { y with mem := y.mem.setMark x.unit (some (.sym t ds mis false)) } else y
  | _, _ => s

/-- Apply bit errors in order. -/
def State.upset (s : State) (u : List Upset) : State := forEach u State.upset1 s

/-- The twin-region words of a die whose port A reads meet a port B write in the same cycle (spec 07 R136). -/
def collided (d : Fin 4) (u : List Upset) : List Nat :=
  u.filterMap fun x => match x.site, x.kind with
    | .spad e, .collide => if e = d ∧ twinBase / 8 ≤ x.unit ∧ 8 * x.unit < spadSize then some x.unit else none
    | _, _ => none

/-- Report code: DEGRADED, with the part (log entry 23). -/
def rpDegraded : Nat := 1

/-- An access to a stack changes it; a loss of the stack that this brings is reported (spec 08 R160, Table 8-8). -/
def State.useStk (s : State) (k : Fin 8) (f : Stack → Stack) : State :=
  let t := s.modStk k f
  if fon stkLost (t.stk k).status && !fon stkLost (s.stk k).status then t.emit (.report rpDegraded [(partStack k).toNat]) else t

/-! ## Reads -/

/-- An address space that an engine or a hub unit names. -/
inductive Space where
  | spad (d : Fin 4)
  | hub
  | dev
deriving DecidableEq, Repr

/-- What a read returned: bytes, and the status and part of a part that could not serve it. -/
structure Rd where
  bytes : List PByte
  fail  : Option (Half × Half)
deriving DecidableEq, Repr

/-- The data of a read, poisoned bytes as zero. -/
def Rd.data (r : Rd) : List Byte := r.bytes.map (·.getD 0)

/-- Whether any byte is poisoned. -/
def Rd.bad (r : Rd) : Bool := r.bytes.any Option.isNone

/-- The index of the core-die erase window (spec 08 R155). -/
def State.eraseWindow (s : State) : Nat := s.aon / 2 ^ 25

/-- A read of device addresses, granule by granule. A lost part, or a stack that this read finds lost, gives poisoned data; a die that is
resetting or off gives data the spec does not state, unpoisoned (spec 09 R178; log entry 9). -/
def State.readDev (s : State) (a n : Nat) : State × Rd :=
  (granules (n + 1) a n).foldl (fun (x : State × Rd) g =>
    let (s, r) := x
    match s.devStatus g.1 with
    | some (st, p) =>
      if st = stNotPermitted then
        let (bs, s) := s.freshBytes g.2
        (s, ⟨r.bytes ++ bs.map some, r.fail.or (some (st, p))⟩)
      else (s, ⟨r.bytes ++ List.replicate g.2 none, r.fail.or (some (st, p))⟩)
    | none =>
      let pl := devPlace s.regionMode g.1
      let (k, bs) := (s.stk pl.stack).read s.eraseWindow g.1 pl.off g.2
      let s := s.useStk pl.stack fun _ => k
      if fon stkLost k.status then (s, ⟨r.bytes ++ List.replicate g.2 none, r.fail.or (some (stStackLost, partStack pl.stack))⟩)
      else (s, ⟨r.bytes ++ bs, r.fail⟩)) (s, ⟨[], none⟩)

/-- A read of a die's scratchpad by its own engines; `coll` are words that return undefined data (spec 07 R136). -/
def State.readSpad (s : State) (d : Fin 4) (coll : List Nat) (a n : Nat) : State × Rd :=
  let (x, bs) := (s.die d).read a n
  let s := s.modDie d fun _ => x
  if coll.isEmpty then (s, ⟨bs, none⟩)
  else
    let (fr, s) := s.freshBytes n
    (s, ⟨(List.range n).map fun i =>
      if coll.contains ((a + i) / 8) then some (fr.getD i 0) else bs.getD i none, none⟩)

/-- A read of another die's scratchpad or of port B (MOV REMOTE, hub units). -/
def State.readRemote (s : State) (d : Fin 4) (a n : Nat) : State × Rd :=
  if s.dieFenced d then (s, ⟨List.replicate n none, some (stDieLost, partDie d)⟩)
  else match s.twinStatus d with
    | some (st, p) => let (bs, s) := s.freshBytes n; (s, ⟨bs.map some, some (st, p)⟩)
    | none => s.readSpad d [] a n

/-- A read of hub SRAM by a hub unit or MOV; the vault returns zeros and the refusal is counted (spec 07 R141). -/
def State.readHub (s : State) (a n : Nat) : State × Rd :=
  if vaultBase < a + n then
    (s.modSec fun x => { x with status := fsat secVaultRefused 1 x.status },
      ⟨List.replicate n (some 0), some (stNotPermitted, part 0 12)⟩)
  else
    let (m, bs) := wmRead s.hub.words a n
    (s.modHub fun h => h.setWords m, ⟨bs, none⟩)

/-- A read in a space by die `me` (its own scratchpad through port A). -/
def State.readMem (s : State) (me : Fin 4) (coll : List Nat) (sp : Space) (a n : Nat) : State × Rd :=
  match sp with
  | .spad d => if d = me then s.readSpad d coll a n else s.readRemote d a n
  | .hub => s.readHub a n
  | .dev => s.readDev a n

/-! ## Remote caches and home filters (spec 09 R172 to R174) -/

/-- The line of 128 B that a device address lies in. -/
def lineOf (a : Nat) : Nat := a / 128

/-- The presence bits that the home filter holds for a line. -/
def State.presence (s : State) (l : Nat) : BitVec 4 :=
  match s.fab.filters.find? fun e => e.line == l with
  | some e => e.presence
  | none => 0

/-- The cached copy of a line on a die, unless its home is marked lost. -/
def State.cached (s : State) (d : Fin 4) (l : Nat) : Option CacheLine :=
  let home := (devPlace s.regionMode (128 * l)).die
  if (vget s.fab.lostHome d).getLsbD home.1 then none
  else (s.die d).cache.find? fun c => c.line == l

/-- Send an invalidation of a line to every die of a mask (R173). -/
def State.sendInvals (s : State) (m : BitVec 4) (l : Nat) : State :=
  forEach (allFin 4) (fun s d =>
    if m.getLsbD d.1 && !((s.die d).invals.contains l) then
      s.modDie d fun x => { x with invals := x.invals ++ [l] } else s) s

/-- Allocate or update a filter entry so that die `d` is shown to hold line `l`: as the filter is set-associative, it may
evict another entry, whose copies it first invalidates (R174; which one is a free choice, log entry 10). -/
def State.filterAdd (s : State) (d : Fin 4) (l : Nat) : State :=
  if s.fab.filters.any fun e => e.line == l then
    let up := fun (e : FilterEntry) => { e with presence := e.presence ||| BitVec.twoPow 4 d.1 }
    s.modFab fun f => { f with filters := updateWhere (fun e => e.line == l) up f.filters }
  else
    let full := decide (786432 ≤ s.fab.filters.length)
    let (v, s) := s.fresh (s.fab.filters.length + (if full then 0 else 1))
    let s := match s.fab.filters[v]? with
      | some e => (s.sendInvals e.presence e.line).modFab fun f => { f with filters := f.filters.eraseIdx v }
      | none => s
    s.modFab fun f => { f with filters := f.filters ++ [⟨l, BitVec.twoPow 4 d.1⟩] }

/-- A read through the remote cache by VXE, TRN or RNG (R172): lines homed elsewhere are looked up, and a miss starts a
fill. Everything else is read as by `readMem`. -/
def State.readCached (s : State) (me : Fin 4) (coll : List Nat) (sp : Space) (a n : Nat) : State × Rd :=
  match sp with
  | .dev =>
    let lines := if n = 0 then [] else (List.range ((a + n - 1) / 128 - a / 128 + 1)).map (· + a / 128)
    lines.foldl (fun (x : State × Rd) l =>
      let (s, r) := x
      let a0 := max a (128 * l)
      let n0 := min (a + n) (128 * l + 128) - a0
      let home := (devPlace s.regionMode a0).die
      if home = me then
        let (s, q) := s.readDev a0 n0
        (s, ⟨r.bytes ++ q.bytes, r.fail.or q.fail⟩)
      else match s.cached me l with
        | some c => (s, ⟨r.bytes ++ (slice c.data (a0 - 128 * l) n0).map some, r.fail⟩)
        | none =>
          let (s, q) := s.readDev a0 n0
          let s := if q.bad || q.fail.isSome then s
            else
              let (s, w) := s.readDev (128 * l) 128
              if w.bad || w.fail.isSome then s
              else (s.filterAdd me l).modDie me fun x => { x with fills := x.fills ++ [⟨l, w.data, false⟩] }
          (s, ⟨r.bytes ++ q.bytes, r.fail.or q.fail⟩)) (s, ⟨[], none⟩)
  | _ => s.readMem me coll sp a n

/-- Whether an access to a range must wait at its home: an earlier write to one of its lines is not complete, or the host
may hold one of them modified (spec 09 R174, spec 15 R280). -/
def State.rangeWaits (s : State) (a n : Nat) : Bool :=
  n != 0 && (s.fab.pendingWrites.any (fun w => lineOf a ≤ w.line && w.line ≤ lineOf (a + n - 1)) ||
    s.fab.hostFilter.any (fun h => h.dirty && a / 64 ≤ h.line && h.line ≤ (a + n - 1) / 64))

/-- Send BISnpData for the lines of a range that the host may hold modified (R280). -/
def State.snoopRange (s : State) (a n : Nat) : State :=
  if n = 0 then s
  else forEach (s.fab.hostFilter.filter fun h => h.dirty && a / 64 ≤ h.line && h.line ≤ (a + n - 1) / 64)
    (fun s h => s.emit (.backInvalidate h.line true)) s

/-! ## Writes to stack memory (spec 09 R173, spec 15 R280) -/

/-- The dies whose copies a write to a line must invalidate: those the filter shows, but the writer's own. -/
def State.toInvalidate (s : State) (w : Writer) (l : Nat) : BitVec 4 :=
  let own : BitVec 4 := match w with
    | .engine d _ _ => BitVec.twoPow 4 d.1
    | .mxa d => BitVec.twoPow 4 d.1
    | _ => 0
  s.presence l &&& ~~~own

/-- The writer drops its own copy of a line homed elsewhere when it issues the write (R173). -/
def State.dropOwn (s : State) (w : Writer) (l : Nat) : State :=
  let go := fun (s : State) (d : Fin 4) =>
    let other := fun (c : CacheLine) => c.line != l
    let up := fun (e : FilterEntry) => { e with presence := e.presence &&& ~~~(BitVec.twoPow 4 d.1) }
    (s.modDie d fun x => { x with cache := x.cache.filter other, fills := x.fills.filter other }).modFab fun f =>
      { f with filters := updateWhere (fun e => e.line == l) up f.filters }
  match w with
  | .engine d _ _ => go s d
  | .mxa d => go s d
  | _ => s

/-- The host filter's lines within a line of 128 B. -/
def State.hostLines (s : State) (l : Nat) : List HostLine := s.fab.hostFilter.filter fun h => h.line / 2 == l

/-- Store bytes of one line at the home die's stack controller. -/
def State.storeLine (s : State) (a : Nat) (bs : List PByte) : State :=
  let p := devPlace s.regionMode a
  s.useStk p.stack fun k => k.write s.eraseWindow a p.off bs

/-- A write of part of one line: refused, performed, or left waiting at the home for invalidations and BIRsp. -/
def State.writeLine (s : State) (w : Writer) (a : Nat) (bs : List PByte) : State × Option (Half × Half) :=
  match s.devStatus a with
  | some x => (s, some x)
  | none =>
    let l := lineOf a
    let inv := s.toInvalidate w l
    let hl := if w = .host then [] else s.hostLines l
    let s := s.dropOwn w l
    let waits := s.fab.pendingWrites.any fun x => x.line == l
    if inv = 0 ∧ hl = [] ∧ !waits then (s.storeLine a bs, none)
    else
      let s := s.sendInvals inv l
      let s := forEach hl (fun s h => s.emit (.backInvalidate h.line false)) s
      let pw : PendingWrite :=
        { line := l
          bytes := (List.range bs.length).map fun i => (a + i, (bs.getD i none).getD 0)
          poison := bs.any Option.isNone
          writer := w
          needInv := inv != 0
          needBi := !hl.isEmpty }
      (s.modFab fun f => { f with pendingWrites := f.pendingWrites ++ [pw] }, none)

/-- A write of device addresses, line by line; the first refusal is answered and the lines before it stay written. -/
def State.writeDev (s : State) (w : Writer) (a : Nat) (bs : List PByte) : State × Option (Half × Half) :=
  let n := bs.length
  let lines := if n = 0 then [] else (List.range ((a + n - 1) / 128 - a / 128 + 1)).map (· + a / 128)
  lines.foldl (fun (x : State × Option (Half × Half)) l =>
    match x.2 with
    | some _ => x
    | none =>
      let a0 := max a (128 * l)
      x.1.writeLine w a0 (slice bs (a0 - a) (min (a + n) (128 * l + 128) - a0))) (s, none)

/-- Perform the pending writes of a line that wait for nothing more, oldest first, each only when no earlier one of its
line is left (R174). A write whose home has been lost meanwhile is refused: `refused` tells its writer. -/
def releaseWrites (fuel : Nat) (refused : State → Writer → Half × Half → State) (l : Nat) (s : State) : State :=
  match fuel with
  | 0 => s
  | k + 1 =>
    match s.fab.pendingWrites.find? fun w => w.line == l with
    | none => s
    | some w =>
      if w.needInv || w.needBi then s
      else
        let s := s.modFab fun f => { f with pendingWrites := dropFirst (fun x => x.line == l) f.pendingWrites }
        let a := (w.bytes.head?.map (·.1)).getD 0
        let s := match s.devStatus a with
          | some x => refused s w.writer x
          | none => s.storeLine a (if w.poison then w.bytes.map fun _ => none else w.bytes.map fun c => some c.2)
        releaseWrites k refused l s

/-! ## Hub SRAM writes -/

/-- A write of hub SRAM by a hub unit or MOV: whether POISONED is set, and the refusal of a vault access (spec 07 R141). -/
def State.writeHub (s : State) (a : Nat) (bs : List PByte) : State × Bool × Option (Half × Half) :=
  if vaultBase < a + bs.length then
    (s.modSec fun x => { x with status := fsat secVaultRefused 1 x.status }, false, some (stNotPermitted, part 0 12))
  else
    let (m, p) := wmWrites s.hub.words 0 a bs
    (s.modHub fun h => h.setWords m, p, none)

/-- A write of good data to hub SRAM by a hub unit. -/
def State.putHub (s : State) (a : Nat) (bs : List Byte) : State := (s.writeHub a (bs.map some)).1

/-- Good data from hub SRAM for a hub unit, or none where it reads poisoned or is refused. -/
def State.getHub (s : State) (a n : Nat) : State × Option (List Byte) :=
  let (s, r) := s.readHub a n
  (s, if r.bad || r.fail.isSome then none else some r.data)

/-! ## Completion records (spec 15 R283 to R289) -/

/-- The outstanding command of a handle. -/
def State.cmd? (s : State) (h : Quad) : Option Command := s.host.cmds.find? fun c => c.handle == h

def State.modCmd (s : State) (h : Quad) (f : Command → Command) : State :=
  s.modHost fun x => { x with cmds := updateWhere (fun c => c.handle == h) f x.cmds }

/-- Change a RUN_PROGRAM in progress. -/
def State.modRun (s : State) (h : Quad) (f : RunCmd → RunCmd) : State :=
  s.modHost fun x => { x with runs := updateWhere (fun r => r.handle == h) f x.runs }

/-- A record held for its CQ. -/
def State.pushRecord (s : State) (q : Fin 32) (r : HostRecord) : State :=
  s.modHost fun x => { x with cqs := vmod x.cqs q fun c => { c with held := c.held ++ [r] } }

/-- The URGENT flag of a command's descriptor (spec 15 R286). -/
def Command.urgent (c : Command) : Bool := nbit c.desc.toNat 9

/-- What a final record carries besides its handle and status. -/
structure FinalInfo where
  summary : BitVec 7 := 0
  rerolls : Half := 0
  poison  : Half := 0
  result  : List Byte := []

/-- The final record of a command: at most one per handle (spec 00 R4). -/
def State.final (s : State) (h : Quad) (st detail : Half) (i : FinalInfo := {}) : State :=
  match s.cmd? h with
  | none => s
  | some c =>
    if c.st = .finished then s
    else
      (s.pushRecord c.cq ⟨h, st, detail, i.summary, i.rerolls, i.poison, padTo 12 i.result, true, c.urgent, false⟩).modCmd h
        fun c => { c with st := .finished }

/-- A record that is not final. -/
def State.progress (s : State) (h : Quad) (st detail : Half) (result : List Byte) : State :=
  match s.cmd? h with
  | none => s
  | some c =>
    if c.st = .finished then s
    else (s.pushRecord c.cq ⟨h, st, detail, 0, 0, 0, padTo 12 result, false, false, true⟩).modCmd h
      fun c => { c with tick := s.aon }

/-- The bytes of a command's descriptor. -/
def Command.bytes (c : Command) : List Byte := natLe 64 c.desc.toNat

/-! ## Degraded service (spec 01 R8, R18, spec 07 R143, spec 08 R155, R160, spec 09 R171) -/

/-- The state field of a bundle. -/
def State.bundleState (s : State) (b : Fin 80) : Nat := fget bunState (vget s.fab.bundles b).status

/-- Whether a bundle belongs to a hub link or neighbour link of die `d`. -/
def bundleOfDie (b : Fin 80) (d : Fin 4) : Bool :=
  if b.1 < 64 then b.1 / 16 == d.1 else (b.1 - 64) / 8 == d.1 / 2

/-- The part that a completed command names in OK_DEGRADED, or none: first the reduced dies and bundles of R171, then missing
dies (excluded, or fenced as in the example of spec 00 R4), lost or erased stacks, unrepaired memories, and AON fall-back (the order
among the rules is log entry 11). -/
def State.degradedPart (s : State) (ds : List (Fin 4)) : Option Half :=
  let die := firstSome (allFin 4) fun d => if ds.contains d && s.dieSt d == dsDegraded then some (partDie d) else none
  let bun := firstSome (allFin 80) fun b =>
    let st := s.bundleState b
    if (st == 4 || st == 5) && ds.any (bundleOfDie b) then some (partBundle b) else none
  let missing := firstSome (allFin 4) fun d => if s.dieSt d == dsExcluded || s.dieSt d == dsFenced then some (partDie d) else none
  let stk := firstSome (allFin 8) fun k =>
    let st := (s.stk k).status
    if fon stkLost st && fget stkLostCause st == 5 || fon stkErased st then some (partStack k) else none
  let spad := firstSome (allFin 4) fun d =>
    if ds.contains d && fon repairUnrepaired (s.die d).regs.repair then some (partUnit d 8) else none
  let hub := if fon repairUnrepaired s.hub.repair then some (part 0 12) else none
  let aon := if fon clkFaultAonFallback s.pwc.clkFault then some (part 9 6) else none
  die.or (bun.or (missing.or (stk.or (spad.or (hub.or aon)))))

/-- The final OK of a command that used the listed dies, or OK_DEGRADED with the part. -/
def State.finalOk (s : State) (h : Quad) (ds : List (Fin 4)) (i : FinalInfo := {}) : State :=
  match s.degradedPart ds with
  | none => s.final h stOk 0 i
  | some p => s.final h stOkDegraded p i

/-! ## Outgoing messages (spec 10) -/

/-- Queue a message on a port's VC. -/
def State.send (s : State) (p : Fin 24) (m : Msg) (from_ : Sender) : State :=
  match fin? 8 m.hdr.vc with
  | none => s
  | some v => s.modPort p fun x =>
      { x with tx := { x.tx with queues := vmod x.tx.queues v fun q => q ++ [⟨m, from_⟩] } }

/-- PORT_STATUS.STATE of a port (spec 10 Table 10-14). -/
def State.portState (s : State) (p : Fin 24) : Nat := fget pstState (s.port p).status

/-! ## Die register copy (spec 21 R347) -/

/-- SEQ.STATE of a die (spec 06 Table 6-9). -/
def Die.seqState (d : Die) : Word :=
  let w : Word := fput (23, 0) d.seq.pc.toNat 0
  let w := fflag (24, 24) d.seq.wait.isSome w
  fflag (25, 25) d.seq.prog.isSome w

/-- The die's registers with SEQ.STATE as it stands. -/
def Die.regsNow (d : Die) : DieRegs := { d.regs with seqState := d.seqState }

/-- Refresh the hub's copy of a die block; done when the die leaves service (log entry 12). -/
def State.copyRegs (s : State) (d : Fin 4) : State := s.modDie d fun x => { x with copy := x.regsNow }

/-! ## Faults and semaphore posts (spec 06 R118, R119, R127) -/

/-- A fault met by a die; the first one stands until it is acted on. -/
def State.raise (s : State) (d : Fin 4) (f : FaultInfo) : State :=
  s.modSeq d fun q => { q with due := q.due.or (some f) }

/-- SEM_OVERFLOW by an add through port B (R119): the SEQ's current PC, OPC 0, FN 0, unit 5. -/
def overflowPortB (d : Fin 4) (pc : BitVec 24) : FaultInfo := ⟨6, 0, 0, unitSeq, pc, stBadDescriptor, partDie d⟩

/-- An add to a semaphore of a die through port B that reaches its bank. -/
def State.semAddB (s : State) (d : Fin 4) (i : Fin 128) (n : Nat) : State :=
  let (x, o) := (s.die d).semAdd i n
  let s := s.modDie d fun _ => x
  if o then s.raise d (overflowPortB d x.seq.pc) else s

/-- A post by a hub unit or the host through port B: refused with a status where the die does not serve (R177, R364). -/
def State.post (s : State) (d : Fin 4) (i : Fin 128) (n : Nat := 1) : State × Option (Half × Half) :=
  match s.twinStatus d with
  | some x => (s, some x)
  | none => (s.semAddB d i n, none)

/-- A post whose refusal has no further effect. -/
def State.postTo (s : State) (d : Fin 4) (i : Fin 128) : State := (s.post d i).1

/-- The semaphore that an index byte names; indices have 7 bits. -/
def semIdx (n : Nat) : Fin 128 := ⟨n % 128, Nat.mod_lt _ (by decide)⟩

/-- The die that two bits name. -/
def dieIdx (n : Nat) : Fin 4 := ⟨n % 4, Nat.mod_lt _ (by decide)⟩

/-- Post a semaphore on every die of a mask. -/
def State.postMask (s : State) (m : Nat) (sem : Nat) : State :=
  forEach (allFin 4) (fun s d => if nbit m d.1 then s.postTo d (semIdx sem) else s) s

/-- A write of good data by a hub unit through port B into a die's twin region, from an offset of the region. -/
def State.writeTwin (s : State) (d : Fin 4) (off : Nat) (bs : List Byte) : State × Option (Half × Half) :=
  match s.twinStatus d with
  | some x => (s, some x)
  | none =>
    let (x, _, o) := (s.die d).write 0 (twinBase + off) (bs.map some)
    let s := s.modDie d fun _ => x
    (if o then s.raise d (overflowPortB d x.seq.pc) else s, none)

end Sys2Proof.Machine
end

