-- ==== Sys2Proof/Machine/Operands.lean ====
section
/-!
DEFINITION. The operand forms of the engines: instruction fields, the descriptor table, address arguments, element layouts
(spec 03 Tables 3-1, 3-3, 3-4, 3-7; spec 05 Tables 5-2 to 5-4; spec 06 R121).
-/
namespace Sys2Proof.Machine

/-! ## Instruction fields common to every class (spec 06 R115, R116) -/

def QInstr.n (q : QInstr) : Nat := q.bits.toNat
def QInstr.opc (q : QInstr) : Nat := nbits q.n 127 120
/-- The FN field of the layout of Table 5-2; 0 for the classes that have none. -/
def QInstr.fn (q : QInstr) : Nat := if 0x40 ≤ q.opc then nbits q.n 103 96 else 0
def QInstr.wen (q : QInstr) : Bool := nbit q.n 119
def QInstr.wsem (q : QInstr) : Fin 128 := semIdx (nbits q.n 118 112)
def QInstr.pen (q : QInstr) : Bool := nbit q.n 111
def QInstr.psem (q : QInstr) : Fin 128 := semIdx (nbits q.n 110 104)

/-! ## Formats (spec 02 Table 2-1) -/

/-- Bits per element of a memory format. -/
def fmtBits : Nat → Nat
  | 0 => 16
  | 1 => 32
  | 2 => 8
  | 3 => 4
  | 4 => 8
  | 5 => 8
  | 6 => 4
  | 7 => 4
  | 8 => 64
  | 9 => 34
  | _ => 8

def isPip (f : Nat) : Bool := f == 2 || f == 3
def isIntFmt (f : Nat) : Bool := 4 ≤ f && f ≤ 7

/-- Bytes that `n` elements take (nibbles packed in pairs). -/
def fmtBytes (f n : Nat) : Nat := (n * fmtBits f + 7) / 8

/-- Element `j` of packed elements, from the bytes that start at element 0; none where it is fed by a poisoned byte. -/
def elemAt (f : Nat) (bs : List PByte) (j : Nat) : Option Nat :=
  if fmtBits f = 4 then (bs.getD (j / 2) none).map fun b => nbits b.toNat (4 * (j % 2) + 3) (4 * (j % 2))
  else
    let k := fmtBits f / 8
    let x := slice bs (k * j) k
    if x.length = k && x.all Option.isSome then some (leNat (x.map (·.getD 0))) else none

/-- An element code of a format other than TL64, under its face for a pip format (spec 02 R38). -/
def decElem (f code face : Nat) : Val :=
  match f with
  | 0 => decT16 code
  | 1 => decW32 code
  | 2 => decP8 code face
  | 3 => decP4 code face
  | 4 => decInt 8 true code
  | 5 => decInt 8 false code
  | 6 => decInt 4 true code
  | 7 => decInt 4 false code
  | _ => decW32X code

/-- Packed bytes of element codes of a format. -/
def packElems (f : Nat) : List Nat → List Byte
  | [] => []
  | [a] => if fmtBits f = 4 then [BitVec.ofNat 8 (a % 16)] else natLe (fmtBits f / 8) a
  | a :: b :: r =>
    if fmtBits f = 4 then BitVec.ofNat 8 (a % 16 + 16 * (b % 16)) :: packElems f r
    else natLe (fmtBits f / 8) a ++ packElems f (b :: r)

/-! ## Address arguments (spec 03 Table 3-3, bytes 7 to 0) -/

/-- A place in an address space. -/
structure Loc where
  sp : Space
  a  : Nat
deriving DecidableEq, Repr

/-- SPACE and ADDR; none for a non-zero reserved bit. -/
def parseLoc (d : Fin 4) (v : Nat) : Option Loc :=
  if nbits v 62 40 ≠ 0 then none
  else some ⟨if nbit v 63 then .dev else .spad d, nbits v 39 0⟩

/-- Whether a range leaves its memory, or touches a quartet whose mode bits disagree (spec 03 R66, spec 08 R158). -/
def State.rangeBad (s : State) (sp : Space) (a n : Nat) : Bool :=
  n != 0 && match sp with
    | .spad _ => decide (spadSize < a + n)
    | .hub => decide (vaultBase < a + n)
    | .dev => decide (devSize < a + n) ||
        (List.range ((a + n - 1) / 2 ^ 30 - a / 2 ^ 30 + 1)).any fun i =>
          quartetSplit s.regionMode ((a / 2 ^ 30 + i) * 2 ^ 30)

/-- Whether two ranges of one space meet. -/
def overlaps (x : Loc) (n : Nat) (y : Loc) (m : Nat) : Bool :=
  x.sp == y.sp && decide (x.a < y.a + m) && decide (y.a < x.a + n)

/-! ## The descriptor table (spec 03 R48) -/

/-- Scratchpad offset of entry `i`. -/
def Die.descAt (d : Die) (i : Nat) : Nat := fget descBaseBase d.regs.descBase * 4096 + 32 * i

/-- What the read of a descriptor gave: its bytes, poisoned, or outside the scratchpad. -/
inductive DescRd where
  | ok (b : List Byte)
  | poisoned
  | outside
deriving DecidableEq, Repr

/-- Read a descriptor. -/
def State.readDesc (s : State) (d : Fin 4) (coll : List Nat) (i : Nat) : State × DescRd :=
  let a := (s.die d).descAt i
  if spadSize < a + 32 then (s, .outside)
  else
    let (s, r) := s.readSpad d coll a 32
    (s, if r.bad then .poisoned else .ok r.data)

/-- Read several descriptors: none where one lies outside the scratchpad, `some none` where one is poisoned (log entry 13). -/
def State.readDescs (s : State) (d : Fin 4) (coll : List Nat) (is : List Nat) : State × Option (Option (List (List Byte))) :=
  is.foldl (fun (x : State × Option (Option (List (List Byte)))) i =>
    let (s, r) := x.1.readDesc d coll i
    (s, match x.2, r with
      | none, _ => none
      | _, .outside => none
      | some none, _ => some none
      | _, .poisoned => some none
      | some (some l), .ok b => some (some (l ++ [b])))) (s, some (some []))

/-! ## Matrix instructions (spec 03 Table 3-1) -/

structure MmulOp where
  acc    : Nat
  add    : Bool
  bank   : Nat
  afmt   : Nat
  bfmt   : Nat
  ladder : Nat
  epi    : Nat
  scale  : Nat
  rnd    : Nat
  trap   : Nat
  k      : Nat
  rsvd   : Nat
  da     : Nat
  db     : Nat
  dc     : Nat
  dx     : Nat
deriving DecidableEq, Repr

def mmulOp (q : QInstr) : MmulOp :=
  let n := q.n
  { acc := nbits n 103 102, add := nbit n 101, bank := nbits n 100 100, afmt := nbits n 99 96, bfmt := nbits n 95 92
    ladder := nbits n 91 90, epi := nbits n 89 88, scale := nbits n 87 86, rnd := nbits n 85 83, trap := nbits n 82 79
    k := nbits n 78 59 + 1, rsvd := nbits n 58 48
    da := nbits n 47 36, db := nbits n 35 24, dc := nbits n 23 12, dx := nbits n 11 0 }

/-- An operand descriptor (Table 3-3). -/
structure OperandDesc where
  loc    : Loc
  face   : Loc
  faceRaw : Nat
  stride : Nat
  ext    : Nat
deriving DecidableEq, Repr

/-- Bytes of a full panel of a format: 512 lines of 32 elements. -/
def panelSize (f : Nat) : Nat := 512 * 32 * fmtBits f / 8

/-- Parse an operand descriptor of a format; none for what makes the instruction illegal (R49, R66). -/
def parseOperand (d : Fin 4) (f : Nat) (b : List Byte) : Option OperandDesc :=
  match parseLoc d (leAt b 0 8), parseLoc d (leAt b 8 8) with
  | some l, some fc =>
    let st := leAt b 16 4
    let e := leAt b 20 2
    if l.a % 256 ≠ 0 ∨ fc.a % 64 ≠ 0 ∨ (!isPip f ∧ leAt b 8 8 ≠ 0) ∨ st % 256 ≠ 0 ∨ (st ≠ 0 ∧ st < panelSize f)
        ∨ 512 ≤ e ∨ leAt b 22 10 ≠ 0 then none
    else some ⟨l, fc, leAt b 8 8, if st = 0 then panelSize f else st, e + 1⟩
  | _, _ => none

/-- A context descriptor of a matrix instruction (Table 3-4). -/
structure MxaCtx where
  stream  : Nat
  kbase   : Nat
  rowbase : Nat
  colbase : Nat
  grid    : Int
deriving DecidableEq, Repr

def parseMxaCtx (b : List Byte) : Option MxaCtx :=
  if nbits (leAt b 0 4) 31 28 ≠ 0 ∨ leAt b 18 14 ≠ 0 then none
  else some ⟨nbits (leAt b 0 4) 27 0, leAt b 4 4, leAt b 8 4, leAt b 12 4, sInt 16 (leAt b 16 2)⟩

/-- An output descriptor (Table 3-7). -/
structure OutDesc where
  loc    : Loc
  aux    : Loc
  scale  : Nat
  stride : Nat
  ofmt   : Nat
deriving DecidableEq, Repr

/-- Parse an output descriptor under a SCALE code; none for what makes the instruction illegal. -/
def parseOut (d : Fin 4) (scale : Nat) (b : List Byte) : Option OutDesc :=
  match parseLoc d (leAt b 0 8), parseLoc d (leAt b 8 8) with
  | some l, some x =>
    let sc := leAt b 16 8
    let st := leAt b 24 4
    let f := leAt b 28 1
    let scBad : Bool := match scale with
      | 0 => sc != 0
      | 3 => nbits sc 63 32 != 0
      | _ => (parseLoc d sc).isNone || sc % 4 != 0
    if l.a % 64 ≠ 0 ∨ x.a % 64 ≠ 0 ∨ (!isPip f ∧ leAt b 8 8 ≠ 0) ∨ scBad ∨ st % 64 ≠ 0 ∨ 9 ≤ f ∨ leAt b 29 3 ≠ 0
        ∨ (f = 2 ∧ st ≠ 512) ∨ (f = 3 ∧ st ≠ 256) ∨ (f = 8 ∧ st < 4224) then none
    else some ⟨l, x, sc, st, f⟩
  | _, _ => none

/-- The pairs of Table 3-5 without a ladder. -/
def mxaPair (a b : Nat) : Bool :=
  (a == 0 && b == 0) || (a == 0 && b == 2) || (a == 2 && b == 0) || (isPip a && isPip b) ||
  ((a == 4 || a == 5) && (b == 4 || b == 5)) || ((a == 6 || a == 7) && (b == 6 || b == 7))

/-! ## Vector instructions (spec 05 Table 5-2) -/

structure VecOp where
  opc  : Nat
  fn   : Nat
  n    : Nat
  rnd  : Nat
  mask : Bool
  trap : Nat
  md   : Nat
  dd   : Nat
  ds1  : Nat
  ds2  : Nat
  ds3  : Nat
  dx   : Nat
  rsvd : Nat
deriving DecidableEq, Repr

def vecOp (q : QInstr) : VecOp :=
  let n := q.n
  { opc := nbits n 127 120, fn := nbits n 103 96, n := nbits n 95 84 + 1, rnd := nbits n 83 81, mask := nbit n 80
    trap := nbits n 79 76, md := nbits n 75 72, dd := nbits n 71 60, ds1 := nbits n 59 48, ds2 := nbits n 47 36
    ds3 := nbits n 35 24, dx := nbits n 23 12, rsvd := nbits n 11 0 }

/-- A vector descriptor (Table 5-3), with the HUB and REMOTE forms of MOV (spec 06 R121) and the alias selector of
scratchpad addresses (spec 07 R138). -/
structure VecDesc where
  loc   : Loc
  sel   : Nat
  tile  : Bool
  bcast : Bool
  face  : Loc
  grid  : Int
  fmt   : Nat
deriving DecidableEq, Repr

/-- Parse the address field of a vector descriptor; `mov` admits HUB, REMOTE and the aliases. -/
def parseVecLoc (d : Fin 4) (mov : Bool) (v : Nat) : Option (Loc × Nat) :=
  let space := nbit v 63
  let a := nbits v 39 0
  if nbits v 56 40 ≠ 0 then none
  else if !mov ∧ nbits v 60 57 ≠ 0 then none
  else if nbit v 60 then (if space ∨ nbits v 59 57 ≠ 0 then none else some (⟨.hub, a⟩, 0))
  else if nbit v 59 then
    (if space then none else some (⟨.spad (dieIdx (nbits v 58 57)), a % 2 ^ 28 + a / 2 ^ 30 * 2 ^ 30⟩, nbits a 29 28))
  else if nbits v 58 57 ≠ 0 then none
  else if space then some (⟨.dev, a⟩, 0)
  else if mov then some (⟨.spad d, a % 2 ^ 28 + a / 2 ^ 30 * 2 ^ 30⟩, nbits a 29 28)
  else some (⟨.spad d, a⟩, 0)

/-- Parse a vector descriptor; none for a non-zero reserved field. -/
def parseVec (d : Fin 4) (mov : Bool) (b : List Byte) : Option VecDesc :=
  let v := leAt b 0 8
  match parseVecLoc d mov (v - (if nbit v 62 then 2 ^ 62 else 0) - (if nbit v 61 then 2 ^ 61 else 0)),
      parseLoc d (leAt b 8 8) with
  | some (l, sel), some fc =>
    let f := leAt b 18 1
    if 16 ≤ f ∨ leAt b 19 13 ≠ 0 ∨ (nbit v 62 ∧ nbit v 63) ∨ (!isPip f ∧ leAt b 8 8 ≠ 0) ∨ 0xB ≤ f then none
    else some ⟨l, sel, nbit v 62, nbit v 61, fc, sInt 16 (leAt b 16 2), f⟩
  | _, _ => none

/-- The context descriptor of a vector instruction (Table 5-4). -/
structure VecCtx where
  stream : Nat
  ebase  : Nat
  coord  : Nat
  fill   : Nat
  len    : Nat
  param  : Nat
  flag   : Nat
deriving DecidableEq, Repr

def parseVecCtx (b : List Byte) : Option VecCtx :=
  if nbits (leAt b 0 4) 31 28 ≠ 0 ∨ leAt b 18 2 ≠ 0 ∨ leAt b 28 4 ≠ 0 then none
  else some ⟨nbits (leAt b 0 4) 27 0, leAt b 4 4, leAt b 8 4, leAt b 12 4, leAt b 16 2 + 1, leAt b 20 4, leAt b 24 4⟩

/-- Bytes of a vector of `n` elements in memory (R90): TL64 in blocks of 2,112 B. -/
def vecBytes (f n : Nat) : Nat := if f = 8 then 2112 * ((n + 255) / 256) else fmtBytes f n

/-- The alignment that R90 asks of a vector's address. -/
def vecAlign : Nat → Nat
  | 0 => 2
  | 1 => 4
  | 2 => 32
  | 3 => 16
  | 8 => 64
  | _ => 1

/-! ## TL64 blocks in memory (spec 02 Table 2-8) -/

/-- An element of a TL64 block as it is read: −2^63 reads as −2^63 + 1 with SATURATED (R33). -/
def tlElem (x : Nat) : Int × Bool :=
  let n := sInt 64 x
  if n < -tlMax then (-tlMax, true) else (n, false)

/-- A TL64 block as a read returned it: the block with fed elements 0, the elements fed by poisoned bytes (all of them where
the header is poisoned), and those that held −2^63 (R33, R111). -/
structure TlRaw where
  blk : TlBlock
  fed : BitVec 256
  low : BitVec 256
deriving DecidableEq, Repr

/-- A block from its 2,112 bytes. `gu` is the grid where the header is poisoned: R111 leaves it unknown (log entry 1). -/
def tlRaw (gu : Int) (bs : List PByte) : TlRaw :=
  let hdr := slice bs 0 64
  if hdr.any Option.isNone then ⟨⟨gu, 0, 0, List.replicate 256 0⟩, BitVec.allOnes 256, 0⟩
  else
    let h := hdr.map (·.getD 0)
    let els := (List.range 256).map fun i => elemAt 8 (slice bs 64 2048) i
    let p0 : BitVec 256 := BitVec.ofNat 256 (leAt h 0 32)
    let vals := (List.range 256).map fun i =>
      if p0.getLsbD i then (0, false) else match els.getD i none with
        | some x => tlElem x
        | none => (0, false)
    ⟨⟨sInt 16 (leAt h 32 2), h.getD 34 0 &&& 0x1F, p0, vals.map (·.1)⟩,
      maskOf 256 ((List.range 256).filter fun i => (els.getD i none).isNone),
      maskOf 256 ((List.range 256).filter fun i => (vals.getD i (0, false)).2)⟩

/-- The block that enters a tally operation when only the active elements are taken; `bad` are active elements whose mask is
poisoned. Inactive elements are 0 without poison; the flags are carried whole (R33, R42 step 4, R94, R111). -/
def TlRaw.take (r : TlRaw) (active bad : Nat → Bool) : TlBlock :=
  let fed := fun (i : Nat) => active i && (bad i || r.fed.getLsbD i)
  let p := fun (i : Nat) => active i && (fed i || r.blk.poison.getLsbD i)
  let is := List.range 256
  let fl := r.blk.flags ||| (if is.any fed then tlNan else 0) |||
    (if is.any fun i => active i && r.low.getLsbD i then tlSat else 0)
  ⟨r.blk.g, fl, maskOf 256 (is.filter p), is.map fun i => if active i && !p i then r.blk.elems.getD i 0 else 0⟩

/-- The whole block as it enters a tally operation. -/
def TlRaw.whole (r : TlRaw) : TlBlock := r.take (fun _ => true) fun _ => false

/-- A block of which every lane reads element 0 (BCAST). -/
def TlRaw.spread (r : TlRaw) : TlRaw :=
  let all := fun (b : BitVec 256) => if b.getLsbD 0 then BitVec.allOnes 256 else (0 : BitVec 256)
  ⟨⟨r.blk.g, r.blk.flags, all r.blk.poison, List.replicate 256 (r.blk.elems.getD 0 0)⟩, all r.fed, all r.low⟩

/-- The 2,112 bytes of a block. -/
def tlToBytes (b : TlBlock) : List Byte :=
  natLe 32 b.poison.toNat ++ natLe 2 (b.g % 65536).toNat ++ [b.flags, 0] ++ List.replicate 28 0 ++
    b.elems.flatMap fun n => natLe 8 (n % 2 ^ 64).toNat

/-- An element of a block as a value (R38). -/
def TlBlock.val (b : TlBlock) (i : Nat) : Val :=
  if b.poison.getLsbD i then .nan false 0x06 else ofInt (b.elems.getD i 0) b.g

/-- A tally add of two blocks (spec 04 R83): the sum on the lower grid, and whether anything saturated. -/
def tlAdd (a b : TlBlock) : TlBlock :=
  let g := min a.g b.g
  let ka := (2 : Int) ^ (a.g - g).toNat
  let kb := (2 : Int) ^ (b.g - g).toNat
  let p := a.poison ||| b.poison
  let es := (List.range 256).map fun i =>
    if p.getLsbD i then (0, false)
    else
      let (x, c1) := tlClamp (a.elems.getD i 0 * ka)
      let (y, c2) := tlClamp (b.elems.getD i 0 * kb)
      let (n, c3) := tlClamp (x + y)
      (n, c1 || c2 || c3)
  let fl := a.flags ||| b.flags
  ⟨g, if es.any (·.2) then fl ||| tlSat else fl, p, es.map (·.1)⟩

/-- A block moved onto another grid by a tally conversion (spec 02 R42, step 4). -/
def tlConvert (g : Int) (b : TlBlock) : TlBlock :=
  let es := (List.range 256).map fun i =>
    if b.poison.getLsbD i then (0, false)
    else
      let (n, _, f) := encTl g (b.val i)
      (n, f == tlSat)
  ⟨g, if es.any (·.2) then b.flags ||| tlSat else b.flags, b.poison, es.map (·.1)⟩

end Sys2Proof.Machine
end

