-- ==== Sys2Proof/Machine/Flags.lean ====
section
/-!
DEFINITION. Every computation of status flags: the tile status words and MXA.EXC (spec 03 R61 to R63), VXE.STAT and VXE.EXC
(spec 05 R109), the summary flags of a command, and the flags of the register file that hardware sets.
-/
namespace Sys2Proof.Machine

/-! ## Tile status words (spec 03 R62, Table 3-8) -/

def DieRegs.tsw (r : DieRegs) (bank : Nat) : Word := if bank = 0 then r.tsw0 else r.tsw1

def DieRegs.setTsw (r : DieRegs) (bank : Nat) (w : Word) : DieRegs :=
  if bank = 0 then { r with tsw0 := w } else { r with tsw1 := w }

def DieRegs.modTsw (r : DieRegs) (bank : Nat) (f : Word → Word) : DieRegs := r.setTsw bank (f (r.tsw bank))

/-- OR conversion flags of a readout into the word (R58): OVERFLOW, UNDERFLOW, POISONED and INVALID by their positions. -/
def tswReadout (fl : Fl) (w : Word) : Word :=
  let w := if fl &&& flOverflow = 0 then w else fput tswOverflow 1 w
  let w := if fl &&& flUnderflow = 0 then w else fput tswUnderflow 1 w
  if fl &&& flPoisoned = 0 then w else fput tswPoisoned 1 w

/-- The bits that an instruction with ADD = 0 clears at acceptance: [31:16] and [5:0] (R62). -/
def tswClear (w : Word) : Word := w &&& 0x0000FFC0#32

/-- What a matrix instruction's accumulation adds to the word of its bank. -/
def tswAccumulate (inv : Nat) (anyInvalid nanprop poisoned : Bool) (w : Word) : Word :=
  let w := fsat tswInvCount inv w
  let w := if anyInvalid then fput tswInvalid 1 w else w
  let w := if nanprop then fput tswNanprop 1 w else w
  if poisoned then fput tswPoisoned 1 w else w

/-- Load MXA.EXC with the first invalid operation of an instruction that completes (R63): when VALID is 0, or when the
instruction was issued before the one held (the issue numbers are those of the die's instructions). -/
def mxaExcLoad (inv : MxaInvalid) (bank : Nat) (pc : BitVec 24) : Quad :=
  let v : Quad := fput mxaExcValid 1 0
  let v := fput mxaExcCause inv.cause v
  let v := fput mxaExcBank bank v
  let v := fput mxaExcEpi (if inv.k = 2 ^ 20 then 1 else 0) v
  let v := fput mxaExcK (if inv.k = 2 ^ 20 then 0xFFFFF else inv.k) v
  let v := fput mxaExcRow inv.row v
  let v := fput mxaExcCol inv.col v
  fput mxaExcPc (pc.toNat % 65536) v

/-- Positions are ordered by k, then row, then column (R61). -/
def MxaInvalid.before (a b : MxaInvalid) : Bool :=
  a.k < b.k || (a.k == b.k && (a.row < b.row || (a.row == b.row && a.col < b.col)))

/-- The first of two positions. -/
def firstInvalid : Option MxaInvalid → Option MxaInvalid → Option MxaInvalid
  | none, b => b
  | a, none => a
  | some a, some b => if b.before a then some b else some a

/-! ## Summary flags (spec 15 Table 15-15, spec 05 Table 5-9) -/

/-- The summary flags among VXE.STAT's: bits [5:0]. -/
def summaryOf (fl : Fl) : BitVec 7 := (fl &&& 0x3F).setWidth 7

/-- OR summary flags into the command under which a die's program runs (spec 05 R109, spec 03 R64). -/
def State.addSummary (s : State) (d : Fin 4) (m : BitVec 7) : State :=
  match (s.die d).seq.prog with
  | none => s
  | some p => s.modRun p.handle fun r => { r with summary := r.summary ||| m }

/-- Remember that a die's program read data from a lost stack or a fenced die (spec 06 R128). -/
def State.noteLost (s : State) (d : Fin 4) (x : Option (Half × Half)) : State :=
  match x, (s.die d).seq.prog with
  | some l, some p =>
    if l.1 = stDieLost ∨ l.1 = stStackLost then s.modRun p.handle fun r =>
      { r with dies := vmod r.dies d fun y => { y with lost := y.lost.or (some l) } } else s
  | _, _ => s

/-- The flags whose trap bits are set, in the order INVALID, OVERFLOW, UNDERFLOW, POISONED from bit 3 down to bit 0
(spec 03 Table 3-1 [82:79], spec 05 Table 5-2 [79:76]). -/
def trapped (trap : Nat) (fl : Fl) : Fl :=
  (if nbit trap 3 then fl &&& flInvalid else 0) ||| (if nbit trap 2 then fl &&& flOverflow else 0) |||
  (if nbit trap 1 then fl &&& flUnderflow else 0) ||| (if nbit trap 0 then fl &&& flPoisoned else 0)

/-- The status of a TRAP fault (spec 06 Table 6-6). -/
def trapStatus (t : Fl) : Half := if t &&& flPoisoned = 0 then stNonfinite else stPoisoned

/-! ## VXE.STAT and VXE.EXC (spec 05 R109) -/

/-- VXE.EXC with the first invalid operation of an instruction. -/
def vxeExcLoad (inv : LaneInvalid) (q : QInstr) : Quad :=
  let v : Quad := fput vxeExcValid 1 0
  let v := fput vxeExcTag inv.tag v
  let v := fput vxeExcLane inv.lane v
  let v := fput vxeExcOpc q.opc v
  let v := fput vxeExcFn q.fn v
  fput vxeExcPc (q.pc.toNat % 65536) v

/-- OR an instruction's flags into VXE.STAT. -/
def vxeStatAdd (fl : Fl) (w : Word) : Word := w ||| fl.setWidth 32

/-- Load VXE.EXC when VALID is 0; the VXE completes in issue order, so a valid capture is always the earlier one. -/
def vxeExcAdd (inv : Option LaneInvalid) (q : QInstr) (v : Quad) : Quad :=
  match inv with
  | some i => if fon vxeExcValid v then v else vxeExcLoad i q
  | none => v

end Sys2Proof.Machine
end

