-- ==== Sys2Proof/Machine/Mxa.lean ====
section
/-!
DEFINITION. The matrix array: acceptance checks (spec 03 R66), terms and accumulation (R57, spec 04 R70 to R79), the precision
ladder (R67, R68), the writeback epilogue (R59, R60, spec 04 R80).
-/
namespace Sys2Proof.Machine

/-! ## What every engine does at a start -/

/-- An ILLEGAL fault of an engine's instruction (spec 06 Table 6-6). -/
def State.illegal (s : State) (d : Fin 4) (unit : Nat) (q : QInstr) : State :=
  s.raise d ⟨1, q.opc, q.fn, unit, q.pc, stBadDescriptor, partUnit d unit⟩

/-- A POISONED_PARAM fault. -/
def State.poisonedParam (s : State) (d : Fin 4) (unit : Nat) (q : QInstr) : State :=
  s.raise d ⟨4, q.opc, q.fn, unit, q.pc, stPoisoned, partUnit d unit⟩

/-- The part that a WRITE_REJECTED fault names: the lost die or stack, or the engine (spec 06 R127). -/
def rejectPart (d : Fin 4) (unit : Nat) (x : Half × Half) : Half :=
  if x.1 = stDieLost ∨ x.1 = stStackLost ∨ x.1 = stNotPermitted then x.2 else partUnit d unit

/-- A WRITE_REJECTED fault. -/
def State.writeRejected (s : State) (d : Fin 4) (unit : Nat) (q : QInstr) (x : Half × Half) : State :=
  s.raise d ⟨3, q.opc, q.fn, unit, q.pc, x.1, rejectPart d unit x⟩

/-- The wait of an instruction's SYNC field holds (spec 06 R116). -/
def Die.waitMet (d : Die) (q : QInstr) : Bool := !q.wen || 1 ≤ d.semCount q.wsem

/-- Take the count of a met wait. -/
def Die.takeWait (d : Die) (q : QInstr) : Die := if q.wen then d.semTake q.wsem else d

/-- The post of a completed instruction (R116, R119): an overflow is recorded with the instruction's own address. -/
def State.postOwn (s : State) (d : Fin 4) (unit : Nat) (q : QInstr) : State :=
  if q.pen then
    let (x, o) := (s.die d).semAdd q.psem 1
    let s := s.modDie d fun _ => x
    if o then s.raise d ⟨6, q.opc, q.fn, unit, q.pc, stBadDescriptor, partDie d⟩ else s
  else s

/-! ## Accumulator cells -/

/-- The key of a cell. -/
def cellKey (r c : Nat) : Nat := 512 * r + c

/-- A cell of a bank. -/
def accGet (l : List (Nat × BitVec 34)) (r c : Nat) : BitVec 34 := (sget l (cellKey r c)).getD 0

/-- The tally view of a cell (spec 04 Table 4-2). -/
structure TCell where
  n    : Int
  p    : Bool
  nan  : Bool
  pinf : Bool
  ninf : Bool
deriving DecidableEq, Repr

def TCell.zero : TCell := ⟨0, false, false, false, false⟩

/-- The tally cell that two physical cells hold. -/
def unpackT (a0 a1 : BitVec 34) : TCell :=
  let lo := a0.toNat
  let hi := a1.toNat
  let p := nbit hi 30
  ⟨if p then 0 else (tlElem (lo + nbits hi 29 0 * 2 ^ 34)).1, p, nbit hi 31, nbit hi 32, nbit hi 33⟩

/-- The physical cells of a tally cell. -/
def packT (t : TCell) : BitVec 34 × BitVec 34 :=
  let x := (t.n % 2 ^ 64).toNat
  (BitVec.ofNat 34 (x % 2 ^ 34),
   BitVec.ofNat 34 (x / 2 ^ 34 + b2n t.p * 2 ^ 30 + b2n t.nan * 2 ^ 31 + b2n t.pinf * 2 ^ 32 + b2n t.ninf * 2 ^ 33))

/-! ## Fetched operands -/

/-- A line of a panel: its element bytes and its face. -/
structure LineData where
  bytes : List PByte
  face  : PByte
deriving DecidableEq, Repr

/-- Whether a line of a panel was fed by poisoned bytes. -/
def LineData.bad (l : LineData) : Bool := l.bytes.any Option.isNone || l.face.isNone

/-- The k indices of panel `p` below K. -/
def panelLen (k p : Nat) : Nat := min 32 (k - 32 * p)

/-- Fetch a panel of an operand: the live lines, and in the last panel only the indices below K (spec 03 R49). -/
def State.fetchPanel (s : State) (d : Fin 4) (coll : List Nat) (f k p : Nat) (o : OperandDesc) :
    State × List LineData × Option (Half × Half) :=
  (List.range o.ext).foldl (fun (x : State × List LineData × Option (Half × Half)) j =>
    let (s, ls, lost) := x
    let (s, r) := s.readMem d coll o.loc.sp (o.loc.a + p * o.stride + fmtBytes f (32 * j)) (fmtBytes f (panelLen k p))
    if isPip f then
      let (s, q) := s.readMem d coll o.face.sp (o.face.a + 512 * p + j) 1
      (s, ls ++ [⟨r.bytes, q.bytes.getD 0 none⟩], lost.or (r.fail.or q.fail))
    else (s, ls ++ [⟨r.bytes, some 0⟩], lost.or r.fail)) (s, [], none)

/-- Fetch an operand, panel by panel. -/
def State.fetchOperand (s : State) (d : Fin 4) (coll : List Nat) (f k : Nat) (o : OperandDesc) :
    State × List (List LineData) × Option (Half × Half) :=
  (List.range ((k + 31) / 32)).foldl (fun (x : State × List (List LineData) × Option (Half × Half)) p =>
    let (s, ps, lost) := x
    let (s, l, f') := s.fetchPanel d coll f k p o
    (s, ps ++ [l], lost.or f')) (s, [], none)

/-- The value of element k of a line, from the panels. -/
def opVal (f : Nat) (l : LineData) (kk : Nat) : Val :=
  match elemAt f l.bytes kk, l.face with
  | some c, some fc => decElem f c fc.toNat
  | _, _ => canonNan

/-- The lines that poisoned bytes feed. -/
def badLines (ps : List (List LineData)) (ext : Nat) : List Nat :=
  (List.range ext).filter fun j => ps.any fun p => match p[j]? with
    | some l => l.bad
    | none => false

/-! ## The precision ladder (spec 03 R67, R68) -/

/-- A value rounded to T16 by RNE, as a value; at the top of the range it stays finite. -/
def toT16 (v : Val) : Val := decT16 (encT16 .rne true 0 v).1

/-- The pieces hi, mid and lo of a W32 operand; a piece that is empty is zero. `three` selects the three-piece split, in a
two-piece split mid is empty. -/
def pieces (three : Bool) (a : Val) : Val × Val × Val :=
  match a with
  | .fin _ _ _ _ =>
    let hi := toT16 a
    let r1 := (subV a hi).1
    if three then
      let mid := toT16 r1
      (hi, mid, toT16 (subV r1 mid).1)
    else (hi, .zero false, toT16 r1)
  | .inf s => (.inf s, .zero false, .zero false)
  | v => (v, .zero false, .zero false)

/-- The passes of Table 3-10, as the pieces of A and B that each takes (0 hi, 1 mid, 2 lo). -/
def ladderPasses (ladder : Nat) : List (Nat × Nat) :=
  if ladder = 2 then [(0, 0), (0, 1), (1, 0), (1, 1), (0, 2), (2, 0)] else [(0, 0), (0, 2), (2, 0)]

def pieceOf (x : Val × Val × Val) : Nat → Val
  | 0 => x.1
  | 1 => x.2.1
  | _ => x.2.2

/-- Whether a value is finite and not zero. -/
def isFinNz : Val → Bool
  | .fin _ _ _ _ => true
  | _ => false

/-- The terms of one panel for one cell, in the order of R52: k index and product. -/
def panelTerms (o : MmulOp) (p : Nat) (la lb : LineData) : List (Nat × Res) :=
  let ks := List.range (panelLen o.k p)
  if o.ladder = 0 then ks.map fun i => (32 * p + i, mulV (opVal o.afmt la i) (opVal o.bfmt lb i))
  else
    (ladderPasses o.ladder).flatMap fun ps => ks.filterMap fun i =>
      let a := opVal o.afmt la i
      let b := opVal o.bfmt lb i
      let x := pieceOf (pieces (o.ladder == 2) a) ps.1
      let y := pieceOf (pieces (o.ladder == 2) b) ps.2
      if ps = (0, 0) then some (32 * p + i, mulV x y)
      else if isFinNz x && isFinNz y && isFinNz a && isFinNz b then some (32 * p + i, mulV x y) else none

/-! ## Accumulation -/

/-- A cell under accumulation: value, whether an invalid operation turned it into NaN (or poisoned it), NANPROP, the first
invalid position, and whether a clamp or sum saturated (TALLY). -/
structure CellRun (α : Type) where
  v       : α
  counted : Bool := false
  nanprop : Bool := false
  inv     : Option MxaInvalid := none
  sat     : Bool := false

/-- One add step in ROLL or NEAREST (spec 04 R71 to R74, spec 03 R61); `u` is the drawn word. -/
def addStep (rm : Rm) (u k r c : Nat) (x : CellRun Val) (t : Res) : CellRun Val :=
  let mark (cause : Nat) (y : CellRun Val) : CellRun Val := { y with inv := firstInvalid y.inv (some ⟨k, r, c, cause⟩) }
  if t.2 ≠ 0 then
    if isNan x.v then mark 1 x else mark 1 { x with v := t.1, counted := true }
  else if isNan t.1 then
    if isNan x.v then x else { x with v := t.1, nanprop := true }
  else if isNan x.v then x
  else
    let (y, tag) := addV x.v t.1
    if tag ≠ 0 then mark 2 { x with v := y, counted := true } else { x with v := roundX rm u y }

/-- One add step in TALLY (spec 04 R77, R78). -/
def tallyStep (g : Int) (k r c : Nat) (x : CellRun TCell) (t : Res) : CellRun TCell :=
  let v := x.v
  if t.2 ≠ 0 then
    { x with v := { v with n := 0, p := true, nan := true }, counted := x.counted || !v.p,
             inv := firstInvalid x.inv (some ⟨k, r, c, 1⟩) }
  else match t.1 with
    | .nan _ _ => { x with v := { v with n := 0, p := true, nan := true }, nanprop := x.nanprop || !v.p }
    | .inf sg => { x with v := { v with n := 0, p := true, pinf := v.pinf || !sg, ninf := v.ninf || sg } }
    | y =>
      if v.p then x
      else
        let (n, _, f) := encTl g y
        let (m, c') := tlClamp (v.n + n)
        { x with v := { v with n := m }, sat := x.sat || c' || f == tlSat }

/-- All terms of a cell in order. -/
def cellTerms (o : MmulOp) (pa pb : List (List LineData)) (r c : Nat) : List (Nat × Res) :=
  (List.range ((o.k + 31) / 32)).flatMap fun p =>
    match (pa.getD p [])[r]?, (pb.getD p [])[c]? with
    | some la, some lb => panelTerms o p la lb
    | _, _ => []

/-- The result of a cell in ROLL or NEAREST. -/
def runCell (o : MmulOp) (seed : BitVec 128) (x : MxaCtx) (pa pb : List (List LineData)) (old : BitVec 34) (r c : Nat) :
    CellRun Val :=
  (cellTerms o pa pb r c).foldl (fun y t =>
    let u := if o.acc = 0 then draw seed 4 x.stream (x.kbase + t.1) (x.rowbase + r) (x.colbase + c) else 0
    addStep (if o.acc = 0 then .sr else .rne) u t.1 r c y t.2)
    { v := if o.add then decW32X old.toNat else .zero false }

/-- The result of a tally cell. -/
def runTally (o : MmulOp) (x : MxaCtx) (pa pb : List (List LineData)) (old : TCell) (r c : Nat) : CellRun TCell :=
  (cellTerms o pa pb r c).foldl (fun y t => tallyStep x.grid t.1 r c y t.2) { v := if o.add then old else .zero }

/-- Replace the live cells of a bank; the others stay under ADD = 1 and become +0 otherwise (spec 03 R56). -/
def putCells (add : Bool) (old : List (Nat × BitVec 34)) (new : List (Nat × BitVec 34)) : List (Nat × BitVec 34) :=
  if add then new.foldl (fun l c => sset 0 l c.1 c.2) old else new.filter fun c => c.2 != 0

/-! ## Acceptance (spec 03 R66, spec 04 R76) -/

/-- Whether an operand's panels leave their memory. -/
def State.operandBad (s : State) (f k : Nat) (o : OperandDesc) : Bool :=
  let np := (k + 31) / 32
  (List.range np).any fun p =>
    s.rangeBad o.loc.sp (o.loc.a + p * o.stride) (fmtBytes f (32 * o.ext)) ||
      (isPip f && s.rangeBad o.face.sp (o.face.a + 512 * p) o.ext)

/-- Bytes of a row of `n` columns of output: whole blocks for pip and TL64 formats. -/
def rowBytes (f n : Nat) : Nat := if isPip f then fmtBytes f (roundUp 32 n) else if f = 8 then 4224 else fmtBytes f n

/-- Whether an output or its scale vector leaves its memory. -/
def State.outBad (s : State) (d : Fin 4) (o : MmulOp) (x : OutDesc) (ra cb : Nat) : Bool :=
  (List.range ra).any (fun r => s.rangeBad x.loc.sp (x.loc.a + r * x.stride) (rowBytes x.ofmt cb)) ||
  (isPip x.ofmt && s.rangeBad x.aux.sp x.aux.a (16 * (ra - 1) + (cb + 31) / 32)) ||
  ((o.scale = 1 || o.scale = 2) && match parseLoc d x.scale with
    | some l => s.rangeBad l.sp l.a 2048
    | none => true)

/-- The illegal cases of R66 that the instruction word alone shows. -/
def mmulBad (o : MmulOp) : Bool :=
  o.acc == 3 || 0xA ≤ o.afmt || 0xA ≤ o.bfmt || o.ladder == 3 || 2 ≤ o.epi || (rndOf o.rnd).isNone || o.rsvd != 0 ||
  (if o.ladder = 0 then !mxaPair o.afmt o.bfmt else !(o.afmt == 1 && o.bfmt == 1)) ||
  (o.ladder != 0 && o.acc == 0) || ((isPip o.afmt || isPip o.bfmt) && o.k % 32 != 0) ||
  (o.acc == 2 && o.bank == 1) || (o.scale != 0 && o.epi == 0) || (o.epi == 1 && (o.rnd == 2 || o.rnd == 6))

/-- The illegal cases that an output descriptor adds. -/
def outIllegal (o : MmulOp) (x : OutDesc) : Bool :=
  x.ofmt == 8 && (o.acc != 2 || o.scale != 0 || (o.rnd != 0 && o.rnd != 4))

/-- A mode mismatch of R56, or a grid that differs from the bank's (spec 04 R76). -/
def modeBad (g : DieRegs) (o : MmulOp) (x : MxaCtx) : Bool :=
  o.add && (if o.acc = 2 then
      !(fon tswTally g.tsw0 && fon tswTally g.tsw1) || fint tgridGrid g.tgrid != x.grid
    else fon tswTally (g.tsw o.bank))

/-- The banks that an instruction targets. -/
def mmulBanks (o : MmulOp) : List Nat := if o.acc = 2 then [0, 1] else [o.bank]

/-- Whether acceptance must wait: the accumulation mode of the instruction in flight differs (R55), or an instruction in
flight has still to write one of the target banks out (log entry 14). -/
def mmulWaits (d : Die) (o : MmulOp) : Bool :=
  d.mxaFly.any fun f =>
    let p := mmulOp f.instr
    p.acc != o.acc || (p.epi == 1 && (mmulBanks p).any fun b => (mmulBanks o).contains b)

/-- The stack ranges that a matrix instruction reads or writes. -/
def operandRanges (f k : Nat) (o : OperandDesc) : List (Nat × Nat) :=
  let np := (k + 31) / 32
  (if o.loc.sp = .dev then (List.range np).map fun p => (o.loc.a + p * o.stride, fmtBytes f (32 * o.ext)) else []) ++
  (if isPip f ∧ o.face.sp = .dev then [(o.face.a, 512 * np)] else [])

/-- Whether any of several ranges must wait at its home, and the snoops that asks for. -/
def State.rangesWait (s : State) (l : List (Nat × Nat)) : Bool := l.any fun r => s.rangeWaits r.1 r.2
def State.snoopRanges (s : State) (l : List (Nat × Nat)) : State := forEach l (fun s r => s.snoopRange r.1 r.2) s

/-- What a matrix instruction's descriptors say, checked against R66; none where it is illegal. -/
def State.mmulCheck (s : State) (d : Fin 4) (o : MmulOp) (ds : List (List Byte)) :
    Option (OperandDesc × OperandDesc × MxaCtx × Option OutDesc) :=
  match parseOperand d o.afmt (ds.getD 0 []), parseOperand d o.bfmt (ds.getD 1 []), parseMxaCtx (ds.getD 2 []) with
  | some a, some b, some x =>
    if s.operandBad o.afmt o.k a || s.operandBad o.bfmt o.k b || modeBad (s.die d).regs o x then none
    else if o.epi = 0 then some (a, b, x, none)
    else match parseOut d o.scale (ds.getD 3 []) with
      | none => none
      | some w => if outIllegal o w || s.outBad d o w a.ext b.ext then none else some (a, b, x, some w)
  | _, _, _ => none

/-- The blocks of live cells of which some cell saturated. -/
def satBlocks (l : List (Nat × Bool)) : List Nat := (l.filterMap fun c => if c.2 then some (c.1 / 256) else none).eraseDups

/-- The feed cycles of a matrix instruction (R51, R54): K divided by the k per cycle of Table 3-5, or 3K or 6K with a ladder. -/
def feedCycles (o : MmulOp) : Nat :=
  if o.ladder = 1 then 3 * o.k
  else if o.ladder = 2 then 6 * o.k
  else
    let rate := fun (f : Nat) => if fmtBits f ≤ 4 then 4 else if fmtBits f ≤ 8 then 2 else 1
    let r := min (rate o.afmt) (rate o.bfmt)
    (o.k + r - 1) / r

/-- Accept a matrix instruction: clear and set the status (R56, R62, spec 04 R75, R76), form every term, and leave the banks
as they are when its last term has been added. -/
def State.mmulRun (s : State) (d : Fin 4) (coll : List Nat) (q : QInstr) (o : MmulOp)
    (a b : OperandDesc) (x : MxaCtx) (outDesc : List Byte) : State :=
  let (s, pa, la) := s.fetchOperand d coll o.afmt o.k a
  let (s, pb, lb) := s.fetchOperand d coll o.bfmt o.k b
  let rows := badLines pa a.ext
  let cols := badLines pb b.ext
  let die := s.die d
  let seed := die.seq.seed
  let live := (List.range a.ext).flatMap fun r => (List.range b.ext).map fun c => (r, c)
  let fed := fun (p : Nat × Nat) => rows.contains p.1 || cols.contains p.2
  let pois := !rows.isEmpty || !cols.isEmpty
  let regs := (mmulBanks o).foldl (fun (g : DieRegs) bk => g.modTsw bk fun w =>
    fflag tswTally (o.acc == 2) (fput tswBusy 1 (if o.add then w else tswClear w))) die.regs
  let regs := { regs with
    active := regs.active + BitVec.ofNat 64 (feedCycles o)
    tgrid := if o.acc = 2 then fput tgridGrid (x.grid % 65536).toNat (fput tgridValid 1 0)
      else fflag tgridValid (fon tswTally regs.tsw0 && fon tswTally regs.tsw1) regs.tgrid }
  let fly : MxaFlight :=
    { instr := q, extA := a.ext, extB := b.ext, outDesc := BitVec.ofNat 256 (leNat outDesc)
      flags := if pois then summaryOf flPoisoned else 0
      nanprop := false, invalid := none, epi := none, lost := la.or lb }
  if o.acc = 2 then
    let rs := live.map fun p =>
      if fed p then
        let old := if o.add then unpackT (accGet die.acc0 p.1 p.2) (accGet die.acc1 p.1 p.2) else .zero
        (p, ({ v := { old with n := 0, p := true, nan := true } } : CellRun TCell))
      else (p, runTally o x pa pb (unpackT (accGet die.acc0 p.1 p.2) (accGet die.acc1 p.1 p.2)) p.1 p.2)
    let inv := rs.foldl (fun i r => firstInvalid i r.2.inv) none
    let np := rs.any fun r => r.2.nanprop
    let n := (rs.filter fun r => r.2.counted).length
    let cells := rs.map fun r => (cellKey r.1.1 r.1.2, packT r.2.v)
    let sat := ((if o.add then die.sat else []) ++ satBlocks (rs.map fun r => (cellKey r.1.1 r.1.2, r.2.sat))).eraseDups
    let regs := regs.modTsw 0 (tswAccumulate n inv.isSome np pois)
    s.modDie d fun y => { y with
      regs := regs, sat := sat
      acc0 := putCells o.add y.acc0 (cells.map fun c => (c.1, c.2.1))
      acc1 := putCells o.add y.acc1 (cells.map fun c => (c.1, c.2.2))
      mxaFly := y.mxaFly ++ [{ fly with
        flags := fly.flags ||| (if inv.isSome then 1 else 0), nanprop := np, invalid := inv }] }
  else
    let bank := if o.bank = 0 then die.acc0 else die.acc1
    let rs := live.map fun p =>
      if fed p then (p, ({ v := canonNan } : CellRun Val))
      else (p, runCell o seed x pa pb (accGet bank p.1 p.2) p.1 p.2)
    let inv := rs.foldl (fun i r => firstInvalid i r.2.inv) none
    let np := rs.any fun r => r.2.nanprop
    let n := (rs.filter fun r => r.2.counted).length
    let new := putCells o.add bank (rs.map fun r => (cellKey r.1.1 r.1.2, encW32X r.2.v))
    let regs := regs.modTsw o.bank (tswAccumulate n inv.isSome np pois)
    s.modDie d fun y => { y with
      regs := regs
      acc0 := if o.bank = 0 then new else y.acc0
      acc1 := if o.bank = 0 then y.acc1 else new
      mxaFly := y.mxaFly ++ [{ fly with
        flags := fly.flags ||| (if inv.isSome then 1 else 0), nanprop := np, invalid := inv }] }

/-- The descriptor indices that an instruction reads (R47, R48). -/
def mmulDescs (o : MmulOp) : List Nat := [o.da, o.db, o.dx] ++ (if o.epi ≠ 0 ∨ o.scale ≠ 0 then [o.dc] else [])

/-- Begin or end the time that the MXA queue's head waits on its semaphore (spec 06 Table 6-7, row 6, R130). -/
def State.setMxaWait (s : State) (d : Fin 4) (sem : Fin 128) : State :=
  s.modSeq d fun q => { q with wait := match q.wait with
      | some w => if w.mxa && w.sem == sem.1 then some w else some ⟨sem.1, s.aon, true⟩
      | none => some ⟨sem.1, s.aon, true⟩ }

/-- Start the matrix instruction that heads the MXA queue, if it may start. -/
def startMmul (d : Fin 4) (u : List Upset) (s0 : State) : State :=
  match (s0.die d).seq.mxaQ with
  | [] => s0
  | q :: rest =>
    let o := mmulOp q
    if !s0.dieServes d || mmulWaits (s0.die d) o then s0
    else if !(s0.die d).waitMet q then s0.setMxaWait d q.wsem
    else
      let s := s0.upset u
      let coll := collided d u
      let go (s : State) : State := s.modDie d fun x =>
        let x := x.takeWait q
        { x with seq := { x.seq with mxaQ := rest, wait := none } }
      if mmulBad o then (go s).illegal d unitMxa q
      else match s.readDescs d coll (mmulDescs o) with
        | (s, none) => (go s).illegal d unitMxa q
        | (s, some none) => (go s).poisonedParam d unitMxa q
        | (s, some (some ds)) =>
          match s.mmulCheck d o ds with
          | none => (go s).illegal d unitMxa q
          | some (a, b, x, _) =>
            let rg := operandRanges o.afmt o.k a ++ operandRanges o.bfmt o.k b
            if s.rangesWait rg then s0.snoopRanges rg
            else (go s).mmulRun d coll q o a b x (ds.getD 3 [])

/-! ## The epilogue (spec 03 R58 to R60, spec 04 R80) -/

/-- The TL64 block of a tally bank's half-row (spec 04 R80). -/
def Die.tallyBlock (x : Die) (r h : Nat) : TlBlock :=
  let cs := (List.range 256).map fun i => unpackT (accGet x.acc0 r (256 * h + i)) (accGet x.acc1 r (256 * h + i))
  let fl : Byte := (if cs.any (·.nan) then tlNan else 0) ||| (if cs.any (·.pinf) then tlPinf else 0) |||
    (if cs.any (·.ninf) then tlNinf else 0) ||| (if x.sat.contains (2 * r + h) then tlSat else 0)
  ⟨fint tgridGrid x.regs.tgrid, fl, maskOf 256 ((List.range 256).filter fun i => (cs.getD i .zero).p), cs.map (·.n)⟩

/-- Encode a list of values of one row into a format: bytes, faces, and flags. `us` gives the drawn word of each element. -/
def encodeRow (f : Nat) (rm : Rm) (sat : Bool) (vs : List Val) (us : Nat → Nat) : List Byte × List Byte × Fl :=
  let n := vs.length
  if isPip f then
    let blocks := chunks 32 (n + 1) vs
    let enc := (List.range blocks.length).map fun b =>
      let bl := blocks.getD b []
      let face := if f = 2 then faceP8 bl else faceP4 bl
      let es := (List.range bl.length).map fun i =>
        let v := bl.getD i (.zero false)
        if f = 2 then encP8 rm sat (us (32 * b + i)) face v else encP4 rm sat (us (32 * b + i)) face v
      (face, es.map (·.1) ++ List.replicate (32 - bl.length) 0, es.foldl (fun a e => a ||| e.2) (0 : Fl))
    (enc.flatMap fun e => packElems f e.2.1, enc.map fun e => BitVec.ofNat 8 e.1, enc.foldl (fun a e => a ||| e.2.2) 0)
  else
    let es := (List.range n).map fun i =>
      let v := vs.getD i (.zero false)
      match f with
      | 0 => encT16 rm sat (us i) v
      | 1 => encW32 rm sat (us i) v
      | 4 => encInt 8 true rm (us i) v
      | 5 => encInt 8 false rm (us i) v
      | 6 => encInt 4 true rm (us i) v
      | _ => encInt 4 false rm (us i) v
    (packElems f (es.map (·.1)), [], es.foldl (fun a e => a ||| e.2) 0)

/-- The scaled value of a cell (R59, step 3): value, and whether the scaling created ZERO_TIMES_INF. -/
def scaleVal (sc : Option (Option Val)) (v : Val) : Val × Bool :=
  match sc with
  | none => (v, false)
  | some none => (canonNan, false)
  | some (some s) => let (p, t) := mulV v s; (round24 p, t != 0)

/-- What the epilogue of an instruction has done so far. -/
structure EpiRun where
  st  : State
  out : EpiOut := ⟨0, none, 0, false, false, none⟩

/-- Write bytes to a place as a given writer: whether POISONED is set for it (spec 07 R134), and the refusal. -/
def State.writeLoc (s : State) (w : Writer) (l : Loc) (bs : List PByte) : State × Bool × Option (Half × Half) :=
  match l.sp with
  | .spad d =>
    let (x, p, o) := (s.die d).write 0 l.a bs
    let s := s.modDie d fun _ => x
    (if o then s.raise d (overflowPortB d x.seq.pc) else s, p, none)
  | .hub => s.writeHub l.a bs
  | .dev => let (s, r) := s.writeDev w l.a bs; (s, false, r)

/-- One row of the epilogue. -/
def epiRow (d : Fin 4) (o : MmulOp) (x : OutDesc) (cb : Nat) (scales : Option (List (Option Val))) (tensor : Option Val)
    (r : Nat) (e : EpiRun) : EpiRun :=
  match e.out.reject with
  | some _ => e
  | none =>
    let die := e.st.die d
    let dst : Loc := ⟨x.loc.sp, x.loc.a + r * x.stride⟩
    if x.ofmt = 8 then
      let bs := tlToBytes (die.tallyBlock r 0) ++ tlToBytes (die.tallyBlock r 1)
      let (s, wp, rj) := e.st.writeLoc (.mxa d) dst (bs.map some)
      ⟨s, { e.out with reject := rj, sumPois := e.out.sumPois || wp }⟩
    else
      let bank := if o.bank = 0 then die.acc0 else die.acc1
      let vals := (List.range cb).map fun c =>
        let v := if o.acc = 2 then
            let t := unpackT (accGet die.acc0 r c) (accGet die.acc1 r c)
            if t.p then .nan false 0x06 else ofInt t.n (fint tgridGrid die.regs.tgrid)
          else decW32X (accGet bank r c).toNat
        let sc : Option (Option Val) := match o.scale with
          | 0 => none
          | 1 => some ((scales.getD []).getD r none)
          | 2 => some ((scales.getD []).getD c none)
          | _ => some tensor
        let (w, iv) := scaleVal sc v
        (v, sc, w, iv)
      let tpois := o.acc == 2 && vals.any fun v => isNan v.1
      let spois := vals.any fun v => v.2.1 == some none
      let invs := (List.range cb).filter fun c => match vals[c]? with
        | some v => v.2.2.2
        | none => false
      let rnd := (rndOf o.rnd).getD (.rne, false)
      let (bs, faces, fl) := encodeRow x.ofmt rnd.1 rnd.2 (vals.map fun v => v.2.2.1) fun _ => 0
      let bs := bs ++ List.replicate (rowBytes x.ofmt cb - bs.length) 0
      let (s, wp, rj) := e.st.writeLoc (.mxa d) dst (bs.map some)
      let (s, wp', rj) := if isPip x.ofmt ∧ rj.isNone then
          s.writeLoc (.mxa d) ⟨x.aux.sp, x.aux.a + 16 * r⟩ (faces.map some) else (s, false, rj)
      ⟨s, { fl := e.out.fl ||| fl ||| (if tpois || spois then flPoisoned else 0)
            inv := invs.foldl (fun i c => firstInvalid i (some ⟨2 ^ 20, r, c, 1⟩)) e.out.inv
            count := e.out.count + invs.length
            pois := e.out.pois || tpois || spois
            sumPois := e.out.sumPois || wp || wp'
            reject := rj }⟩

/-- The W32 entries of a ROW or COL scale vector; a poisoned entry is none. -/
def State.readScales (s : State) (d : Fin 4) (coll : List Nat) (l : Loc) : State × List (Option Val) × Option (Half × Half) :=
  let (s, r) := s.readMem d coll l.sp l.a 2048
  (s, (List.range 512).map fun i => (elemAt 1 r.bytes i).map decW32, r.fail)

/-- The epilogue of a completing instruction. -/
def State.epilogue (s : State) (d : Fin 4) (coll : List Nat) (o : MmulOp) (f : MxaFlight) : EpiRun × Option (Half × Half) :=
  match parseOut d o.scale (natLe 32 f.outDesc.toNat) with
  | none => ({ st := s }, none)
  | some x =>
    let (s, scales, lost) := match o.scale, parseLoc d x.scale with
      | 1, some l => let (s, v, r) := s.readScales d coll l; (s, some v, r)
      | 2, some l => let (s, v, r) := s.readScales d coll l; (s, some v, r)
      | _, _ => (s, none, none)
    let tensor := if o.scale = 3 then some (decW32 (nbits x.scale 31 0)) else none
    ((List.range f.extA).foldl (fun e r => epiRow d o x f.extB scales tensor r e) { st := s }, lost)

/-- The stack range of the scale vector of a completing instruction. -/
def scaleRanges (d : Fin 4) (o : MmulOp) (f : MxaFlight) : List (Nat × Nat) :=
  match parseOut d o.scale (natLe 32 f.outDesc.toNat) with
  | some x => match o.scale, parseLoc d x.scale with
    | 1, some l => if l.sp = .dev then [(l.a, 2048)] else []
    | 2, some l => if l.sp = .dev then [(l.a, 2048)] else []
    | _, _ => []
  | none => []

/-- Run the epilogue of an instruction in flight and keep what it raised; its status words show it (R58). -/
def State.runEpilogue (s : State) (d : Fin 4) (coll : List Nat) (f : MxaFlight) : State :=
  let o := mmulOp f.instr
  let (e, lost) := if o.epi = 1 then s.epilogue d coll o f else (({ st := s } : EpiRun), none)
  e.st.modDie d fun x => { x with
    mxaFly := updateWhere (fun g => g.instr.issue == f.instr.issue)
      (fun g => { g with epi := some e.out, lost := g.lost.or lost }) x.mxaFly }

/-- Complete an instruction whose epilogue has run and whose writes are complete: status, MXA.EXC, summary, post, fault or
trap (R54, R58, R61 to R65, spec 04 R79). -/
def State.retireMmul (s : State) (d : Fin 4) (f : MxaFlight) (e : EpiOut) : State :=
  let q := f.instr
  let o := mmulOp q
  let bank := (mmulBanks o).headD 0
  let sat := o.acc == 2 && !(s.die d).sat.isEmpty
  let inv := firstInvalid f.invalid e.inv
  let fl : Fl := (f.flags.setWidth 8) ||| e.fl ||| (if e.inv.isSome then flInvalid else 0) |||
    (if sat then flOverflow else 0) ||| (if e.sumPois then flPoisoned else 0)
  let s := s.modDie d fun x =>
    let fly := dropFirst (fun g => g.instr.issue == q.issue) x.mxaFly
    let still := fun (b : Nat) => fly.any fun g => (mmulBanks (mmulOp g.instr)).contains b
    let regs := x.regs.modTsw bank (tswAccumulate e.count e.inv.isSome false e.pois)
    let regs := regs.modTsw bank (tswReadout e.fl)
    let regs := if sat then regs.modTsw 0 (fput tswSaturated 1) else regs
    let regs := (mmulBanks o).foldl (fun (g : DieRegs) b => g.modTsw b (fflag tswBusy (still b))) regs
    let load := match inv with
      | some i => if !fon mxaExcValid regs.mxaExc || decide (q.issue < x.excIssue) then some i else none
      | none => none
    { x with
      mxaFly := fly
      regs := match load with
        | some i => { regs with mxaExc := mxaExcLoad i bank q.pc }
        | none => regs
      excIssue := if load.isSome then q.issue else x.excIssue }
  let s := (s.addSummary d (summaryOf fl)).noteLost d f.lost
  let t := trapped o.trap fl
  let s := match e.reject with
    | some x => s.writeRejected d unitMxa q x
    | none => if t = 0 then s
      else s.raise d ⟨5, q.opc, q.fn, unitMxa, q.pc, trapStatus t, partUnit d unitMxa⟩
  s.postOwn d unitMxa q

/-- Complete the oldest instruction in flight on a bank: its epilogue, and, once every write of it is complete, its end. -/
def finishMmul (d : Fin 4) (bank : Nat) (u : List Upset) (s0 : State) : State :=
  match (s0.die d).mxaFly.find? fun f => (mmulBanks (mmulOp f.instr)).head? == some bank with
  | none => s0
  | some f =>
    let o := mmulOp f.instr
    let s := match f.epi with
      | some _ => s0
      | none =>
        let s := s0.upset u
        let rg := if o.epi = 1 then scaleRanges d o f else []
        if s.rangesWait rg then s0.snoopRanges rg else s.runEpilogue d (collided d u) f
    match (s.die d).mxaFly.find? fun g => g.instr.issue == f.instr.issue with
    | some g => match g.epi with
      | some e => if s.fab.pendingWrites.any fun w => w.writer == .mxa d then s else s.retireMmul d g e
      | none => s
    | none => s

end Sys2Proof.Machine
end

