-- ==== Sys2Proof/Machine/Vec.lean ====
section
/-!
DEFINITION. What VXE, MOV, TRN and RNG share: their queues and flights, the start and the completion of an instruction
(spec 06 R116, R117, R123), vector sources, masks and tiles (spec 05 R89 to R92, R94, R95, R111), and the encode of results
(R93).
-/
namespace Sys2Proof.Machine

/-! ## Queues and flights -/

def Seq.queue (q : Seq) : Engine → List QInstr
  | .vxe => q.vxeQ
  | .mov => q.movQ
  | .trn => q.trnQ
  | .rng => q.rngQ

def Seq.setQueue (q : Seq) (e : Engine) (l : List QInstr) : Seq :=
  match e with
  | .vxe => { q with vxeQ := l }
  | .mov => { q with movQ := l }
  | .trn => { q with trnQ := l }
  | .rng => { q with rngQ := l }

def Die.fly (x : Die) : Engine → List Flight
  | .vxe => x.vxeFly
  | .mov => x.movFly
  | .trn => x.trnFly
  | .rng => x.rngFly

def Die.setFly (x : Die) (e : Engine) (l : List Flight) : Die :=
  match e with
  | .vxe => { x with vxeFly := l }
  | .mov => { x with movFly := l }
  | .trn => { x with trnFly := l }
  | .rng => { x with rngFly := l }

/-! ## Starting (R116) -/

/-- How the attempt to start an instruction ended: it waits for a bank or for a line of stack memory, it faults, or it runs. -/
inductive Start where
  | busy
  | wait (rg : List (Nat × Nat))
  | illegal (s : State)
  | poisoned (s : State)
  | run (s : State) (f : Flight)

/-- A flight that has raised nothing. -/
def Flight.new (q : QInstr) : Flight := ⟨q, 0, none, none, none, false⟩

/-- Start the instruction at the head of an engine's queue, when it is one that `pick` names and its wait is met. -/
def startEngine (e : Engine) (d : Fin 4) (u : List Upset) (pick : QInstr → Bool)
    (body : QInstr → List Nat → State → Start) (s0 : State) : State :=
  match (s0.die d).seq.queue e with
  | [] => s0
  | q :: rest =>
    if !pick q || !s0.dieServes d || !(s0.die d).waitMet q then s0
    else
      let s := (s0.upset u).modDie d fun x =>
        let x := x.takeWait q
        { x with seq := x.seq.setQueue e rest }
      match body q (collided d u) s with
      | .busy => s0
      | .wait rg => s0.snoopRanges rg
      | .illegal s => s.illegal d (engineUnit e) q
      | .poisoned s => s.poisonedParam d (engineUnit e) q
      | .run s f => s.modDie d fun x => x.setFly e (x.fly e ++ [f])

/-- Writes of a started instruction, in order; the first refusal ends them and the earlier ones stay. Answers whether a
partial write met a poisoned word, and the refusal. -/
def State.writeAll (s : State) (w : Writer) (l : List (Loc × List PByte)) : State × Bool × Option (Half × Half) :=
  l.foldl (fun (x : State × Bool × Option (Half × Half)) p =>
    match x.2.2 with
    | some _ => x
    | none =>
      let (s, b, r) := x.1.writeLoc w p.1 p.2
      (s, x.2.1 || b, r)) (s, false, none)

/-! ## Completing (R117, spec 05 R109, R110) -/

/-- Complete the oldest started instruction of an engine once every write of it is complete. A WRITE_REJECTED fault or a trap
is raised, and the post is made (R127). -/
def finishEngine (d : Fin 4) (e : Engine) (s : State) : State :=
  match (s.die d).fly e with
  | [] => s
  | f :: rest =>
    let q := f.instr
    if f.replyDue || s.fab.pendingWrites.any (fun w => w.writer == .engine d e q.issue) then s
    else
      let s := s.modDie d fun x =>
        let x := x.setFly e rest
        if e = .vxe then
          { x with regs := { x.regs with
              vxeStat := vxeStatAdd f.stat x.regs.vxeStat, vxeExc := vxeExcAdd f.invalid q x.regs.vxeExc } }
        else x
      let s := (s.addSummary d (summaryOf f.stat)).noteLost d f.lost
      let s := if f.stat &&& flSkipped = 0 then s
        else match (s.die d).seq.prog with
          | some p => s.modRun p.handle fun r => { r with dies := vmod r.dies d fun y => { y with skipped := true } }
          | none => s
      let t := trapped (vecOp q).trap f.stat
      let s := match f.reject with
        | some x => s.writeRejected d (engineUnit e) q x
        | none => if t = 0 then s else s.raise d ⟨5, q.opc, q.fn, (engineUnit e), q.pc, trapStatus t, partUnit d (engineUnit e)⟩
      s.postOwn d (engineUnit e) q

/-- A pending write was refused at its home: its writer's instruction will report it. -/
def State.refuse (s : State) (w : Writer) (x : Half × Half) : State :=
  match w with
  | .engine d e n => s.modDie d fun y => y.setFly e (updateWhere (fun f => f.instr.issue == n)
      (fun f => { f with reject := f.reject.or (some x) }) (y.fly e))
  | .mxa d =>
    let mark := fun (f : MxaFlight) => { f with epi := f.epi.map fun o => { o with reject := o.reject.or (some x) } }
    s.modDie d fun y => { y with mxaFly := updateWhere (fun f => f.epi.isSome) mark y.mxaFly }
  | _ => s

/-! ## Sources (spec 05 R89 to R91) -/

/-- A tile selector (R91). -/
structure Tile where
  axis : Bool
  bank : Nat
  line : Nat
deriving DecidableEq, Repr

/-- A source operand: its descriptor, the elements it holds, and its tile selector. -/
structure Src where
  desc : VecDesc
  cnt  : Nat
  tile : Option Tile
deriving DecidableEq, Repr

/-- A range of one operand: place, bytes, and bits per element (0 for a face array). -/
abbrev OpRange := Loc × Nat × Nat

/-- The ranges of a vector in memory. -/
def vecRanges (v : VecDesc) (n : Nat) : List OpRange :=
  (v.loc, vecBytes v.fmt n, fmtBits v.fmt) :: (if isPip v.fmt then [(v.face, (n + 31) / 32, 0)] else [])

/-- Whether a vector in memory is misaligned or leaves its memory (R90, R113). -/
def State.vecBad (s : State) (v : VecDesc) (n : Nat) : Bool :=
  v.loc.a % vecAlign v.fmt != 0 || (vecRanges v n).any fun r => s.rangeBad r.1.sp r.1.a r.2.1

/-- A tile selector from an address field; none for a reserved bit. -/
def parseTile (a : Nat) : Option Tile :=
  if nbits a 39 11 ≠ 0 then none else some ⟨nbit a 10, nbits a 9 9, nbits a 8 0⟩

/-- Parse a source of `n` elements; none for what makes the instruction illegal. `lines` is for SHAPE = LINES, where the
instruction checks the lines itself (R91, R100). -/
def State.vecSource (s : State) (d : Fin 4) (lines : Bool) (n : Nat) (b : List Byte) : Option Src :=
  match parseVec d false b with
  | none => none
  | some v =>
    let cnt := if v.bcast then 1 else n
    if v.tile then
      match parseTile v.loc.a with
      | none => none
      | some t =>
        if v.fmt ≠ 8 ∧ v.fmt ≠ 9 then none
        else if lines then some ⟨v, cnt, some t⟩
        else if 512 < t.line + (cnt + 511) / 512 ∨ (v.fmt = 8 ∧ (t.axis ∨ n % 256 ≠ 0)) then none
        else some ⟨v, cnt, some t⟩
    else if 9 ≤ v.fmt ∨ s.vecBad v cnt then none
    else some ⟨v, cnt, none⟩

/-- Parse a destination of `n` elements. -/
def State.vecDest (s : State) (d : Fin 4) (n : Nat) (b : List Byte) : Option VecDesc :=
  match parseVec d false b with
  | none => none
  | some v => if v.tile ∨ v.bcast ∨ 9 ≤ v.fmt ∨ s.vecBad v n then none else some v

/-- The ranges of a source; a tile has none. -/
def Src.ranges (x : Src) : List OpRange := if x.tile.isSome then [] else vecRanges x.desc x.cnt

/-- An overlap that R95 forbids: `same` admits identical ranges of equal element size. -/
def overlapBad (same : Bool) (dst src : List OpRange) : Bool :=
  dst.any fun x => src.any fun y =>
    overlaps x.1 x.2.1 y.1 y.2.1 && !(same && x == y)

/-- What must be settled before a vector instruction reads. -/
inductive Gate where
  | go
  | busy
  | illegal
  | wait (rg : List (Nat × Nat))

/-- The stack ranges among operand ranges. -/
def devRanges (l : List OpRange) : List (Nat × Nat) :=
  l.filterMap fun r => if r.1.sp = .dev then some (r.1.a, r.2.1) else none

/-- The waits of R55 for a busy bank, the mode check of R91 at their end, and the waits for lines of stack memory. -/
def State.gate (s : State) (d : Fin 4) (srcs : List Src) (more : List OpRange) : Gate :=
  let g := (s.die d).regs
  let tiles := srcs.filterMap fun x => x.tile.map fun t => (x, t)
  if tiles.any fun x => fon tswBusy (g.tsw x.2.bank) then .busy
  else if tiles.any fun x => fon tswTally (g.tsw x.2.bank) != (x.1.desc.fmt == 8) then .illegal
  else
    let rg := devRanges (srcs.flatMap Src.ranges ++ more)
    if s.rangesWait rg then .wait rg else .go

/-! ## Reading lanes (R38, R111) -/

/-- A source element: its value (the canonical NaN where poisoned bytes fed it), whether taking it sets POISONED, and whether
it held −2^63 in a TL64 block. -/
structure Lane where
  v    : Val
  pois : Bool := false
  low  : Bool := false
deriving DecidableEq, Repr

/-- Element `i` of a TL64 block as a lane. -/
def TlRaw.lane (r : TlRaw) (i : Nat) : Lane :=
  if r.fed.getLsbD i then { v := canonNan, pois := true }
  else if r.blk.poison.getLsbD i then { v := r.blk.val i, pois := true }
  else { v := r.blk.val i, low := r.low.getLsbD i }

/-- Cell (r, c) of a bank as a lane, in ROLL or NEAREST. -/
def Die.cellLane (x : Die) (bank r c : Nat) : Lane :=
  { v := decW32X (accGet (if bank = 0 then x.acc0 else x.acc1) r c).toNat }

/-- The cell of element j of a tile (R91). -/
def Tile.cell (t : Tile) (j : Nat) : Nat × Nat :=
  if t.axis then (j % 512, t.line + j / 512) else (t.line + j / 512, j % 512)

/-- A TL64 block of a tally bank, as read. -/
def Die.tileRaw (x : Die) (r h : Nat) : TlRaw := ⟨x.tallyBlock r h, 0, 0⟩

/-- A free grid exponent for a block whose header is poisoned. -/
def State.freshGrid (s : State) : Int × State :=
  let (n, s) := s.fresh 65536
  (sInt 16 n, s)

/-- The TL64 blocks of a vector in memory. -/
def State.readTl (s : State) (d : Fin 4) (coll : List Nat) (l : Loc) (n : Nat) : State × List TlRaw × Option (Half × Half) :=
  (List.range ((n + 255) / 256)).foldl (fun (x : State × List TlRaw × Option (Half × Half)) b =>
    let (s, rs, lost) := x
    let (s, r) := s.readCached d coll l.sp (l.a + 2112 * b) 2112
    if (r.bytes.take 64).any Option.isNone then
      let (g, s) := s.freshGrid
      (s, rs ++ [tlRaw g r.bytes], lost.or r.fail)
    else (s, rs ++ [tlRaw 0 r.bytes], lost.or r.fail)) (s, [], none)

/-- What a source gives: one lane per element, the blocks of a TL64 source, and the lost part of a failed read. -/
structure SrcData where
  lanes : List Lane
  raws  : List TlRaw
  lost  : Option (Half × Half)

/-- The lane at an index. -/
def SrcData.at_ (x : SrcData) (j : Nat) : Lane := x.lanes.getD j { v := .zero false }

/-- The lanes of TL64 blocks. -/
def tlLanes (rs : List TlRaw) (n : Nat) : List Lane :=
  (List.range n).map fun j => match rs[j / 256]? with
    | some r => r.lane (j % 256)
    | none => { v := .zero false }

/-- Elements of a vector in memory of a format other than TL64. -/
def State.readPlain (s : State) (d : Fin 4) (coll : List Nat) (v : VecDesc) (n : Nat) :
    State × List Lane × Option (Half × Half) :=
  let (s, r) := s.readCached d coll v.loc.sp v.loc.a (fmtBytes v.fmt n)
  let (s, q) := if isPip v.fmt then s.readCached d coll v.face.sp v.face.a ((n + 31) / 32) else (s, ⟨[], none⟩)
  (s, (List.range n).map fun j =>
    let face : PByte := if isPip v.fmt then q.bytes.getD (j / 32) none else some 0
    match elemAt v.fmt r.bytes j, face with
    | some c, some fc => { v := decElem v.fmt c fc.toNat }
    | _, _ => { v := canonNan, pois := true }, r.fail.or q.fail)

/-- Read a source of `n` lanes; under BCAST every lane reads element 0. -/
def State.readSrc (s : State) (d : Fin 4) (coll : List Nat) (x : Src) (n : Nat) : State × SrcData :=
  let spread := fun (l : List Lane) => if x.desc.bcast then List.replicate n (l.headD { v := .zero false }) else l
  let spreadTl := fun (rs : List TlRaw) =>
    if x.desc.bcast then List.replicate ((n + 255) / 256) ((rs.headD (tlRaw 0 [])).spread) else rs
  match x.tile with
  | some t =>
    let die := s.die d
    if x.desc.fmt = 8 then
      let rs := spreadTl ((List.range ((x.cnt + 255) / 256)).map fun b => die.tileRaw (t.line + b / 2) (b % 2))
      (s, ⟨tlLanes rs n, rs, none⟩)
    else
      (s, ⟨spread ((List.range x.cnt).map fun j => let c := t.cell j; die.cellLane t.bank c.1 c.2), [], none⟩)
  | none =>
    if x.desc.fmt = 8 then
      let (s, rs, lost) := s.readTl d coll x.desc.loc x.cnt
      let rs := spreadTl rs
      (s, ⟨tlLanes rs n, rs, lost⟩)
    else
      let (s, l, lost) := s.readPlain d coll x.desc x.cnt
      (s, ⟨spread l, [], lost⟩)

/-- A mask: which lanes are active, and which of them have a poisoned mask element (R94). -/
structure MaskData where
  act  : List Bool
  bad  : List Bool
  lost : Option (Half × Half)

def MaskData.on (m : MaskData) (j : Nat) : Bool := m.act.getD j false
def MaskData.pois (m : MaskData) (j : Nat) : Bool := m.bad.getD j false

def State.readMask (s : State) (d : Fin 4) (coll : List Nat) (x : Option Src) (n : Nat) : State × MaskData :=
  match x with
  | none => (s, ⟨List.replicate n true, List.replicate n false, none⟩)
  | some m =>
    let (s, l) := s.readSrc d coll m n
    (s, ⟨l.lanes.map fun y => y.pois || isFinNz y.v, l.lanes.map (·.pois), l.lost⟩)

/-! ## Results (R93, R94) -/

/-- The result of an active lane before the final encode, and the banks on which it depends (R92). -/
structure LaneRes where
  v     : Val
  banks : List Nat := []

/-- Encoded results: pieces of bytes at offsets from ADDR, face bytes, and the flags of each lane. -/
structure Enc where
  pieces : List (Nat × List Byte)
  faces  : List Byte
  fls    : List Fl

/-- Maximal runs of present bytes, from offset `o` on; `run` holds the bytes of the run under way, reversed. -/
def runsOf : Nat → List Byte → List (Option Byte) → List (Nat × List Byte)
  | o, run, [] => if run.isEmpty then [] else [(o - run.length, run.reverse)]
  | o, run, some b :: r => runsOf (o + 1) (b :: run) r
  | o, run, none :: r => if run.isEmpty then runsOf (o + 1) [] r else (o - run.length, run.reverse) :: runsOf (o + 1) [] r

/-- One TL64 destination block (R42): inactive and absent lanes are 0 without poison. Flags by lane. -/
def encTlBlock (g : Int) (vs : List (Option Val)) : TlBlock × List Fl :=
  let es := vs.map fun v => match v with
    | some x => encTl g x
    | none => (0, false, 0)
  let pad := List.replicate (256 - es.length) (0 : Int)
  (⟨g, es.foldl (fun a e => a ||| e.2.2) 0, maskOf 256 ((List.range es.length).filter fun i => (es.getD i (0, false, 0)).2.1),
    es.map (·.1) ++ pad⟩, es.map fun e => if e.2.2 &&& tlSat = 0 then 0 else flOverflow)

/-- One pip block: the face over the active lanes, inactive lanes as code 0. -/
def encPipBlock (f : Nat) (rm : Rm) (sat : Bool) (us : Nat → Nat) (vs : List (Option Val)) : List Byte × Byte × List Fl :=
  let on := vs.filterMap id
  let face := if f = 2 then faceP8 on else faceP4 on
  let es := (List.range vs.length).map fun i => match vs.getD i none with
    | some v => if f = 2 then encP8 rm sat (us i) face v else encP4 rm sat (us i) face v
    | none => (0, 0)
  (packElems f (es.map (·.1) ++ List.replicate (32 - vs.length) 0), BitVec.ofNat 8 face, es.map (·.2))

/-- One element of another format. -/
def encPlain (f : Nat) (rm : Rm) (sat : Bool) (u : Nat) (v : Val) : Nat × Fl :=
  match f with
  | 0 => encT16 rm sat u v
  | 1 => encW32 rm sat u v
  | 4 => encInt 8 true rm u v
  | 5 => encInt 8 false rm u v
  | 6 => encInt 4 true rm u v
  | _ => encInt 4 false rm u v

/-- The bytes of elements, some of them inactive; `old` gives the byte that keeps the other nibble of a half-written pair. -/
def sparseBytes (f : Nat) (old : Nat → Byte) (cs : List (Option Nat)) : List (Option Byte) :=
  if fmtBits f = 4 then
    (List.range ((cs.length + 1) / 2)).map fun i =>
      match cs.getD (2 * i) none, cs.getD (2 * i + 1) none with
      | none, none => none
      | some a, some b => some (BitVec.ofNat 8 (a % 16 + 16 * (b % 16)))
      | some a, none => some (BitVec.ofNat 8 (a % 16 + (old i).toNat / 16 * 16))
      | none, some b => some (BitVec.ofNat 8 ((old i).toNat % 16 + 16 * (b % 16)))
  else cs.flatMap fun c => match c with
    | some x => (natLe (fmtBits f / 8) x).map some
    | none => List.replicate (fmtBits f / 8) none

/-- Encode results into a destination format. -/
def encLanes (f : Nat) (g : Int) (rm : Rm) (sat : Bool) (us : Nat → Nat) (old : Nat → Byte) (rs : List (Option Val)) : Enc :=
  if isPip f then
    let bs := chunks 32 (rs.length + 1) rs
    let es := (List.range bs.length).map fun b => encPipBlock f rm sat (fun i => us (32 * b + i)) (bs.getD b [])
    ⟨[(0, es.flatMap (·.1))], es.map (·.2.1), es.flatMap (·.2.2)⟩
  else if f = 8 then
    let es := (chunks 256 (rs.length + 1) rs).map (encTlBlock g)
    ⟨[(0, es.flatMap fun e => tlToBytes e.1)], [], es.flatMap (·.2)⟩
  else
    let es := (List.range rs.length).map fun j => (rs.getD j none).map fun v => encPlain f rm sat (us j) v
    ⟨runsOf 0 [] (sparseBytes f old (es.map fun e => e.map (·.1))), [], es.map fun e => match e with
      | some x => x.2
      | none => 0⟩

/-- The stored byte of a place, without any effect of a read: only for keeping the other nibble of a pair. -/
def State.peek (s : State) (l : Loc) : Byte :=
  match l.sp with
  | .spad d => (s.die d).byte l.a
  | .hub => s.hub.sram.rd l.a
  | .dev => let p := devPlace s.regionMode l.a; (s.stk p.stack).mem.rd p.off

/-- The writes of encoded results. -/
def Enc.writes (e : Enc) (v : VecDesc) : List (Loc × List PByte) :=
  e.pieces.map (fun p => (⟨v.loc.sp, v.loc.a + p.1⟩, p.2.map some)) ++
    (if e.faces.isEmpty then [] else [(v.face, e.faces.map some)])

/-- OR readout flags into the tile status words of the banks that results depend on (R92). -/
def State.tileFlags (s : State) (d : Fin 4) (bank : Nat) (fl : Fl) : State :=
  s.modRegs d fun g => g.modTsw bank (tswReadout (fl &&& (flOverflow ||| flUnderflow ||| flPoisoned)))

/-- Write the results of an instruction: encode, tile status, stores. `poisTiles` are banks from which poison was decoded. -/
def State.putResults (s : State) (d : Fin 4) (w : Writer) (v : VecDesc) (rm : Rm) (sat : Bool) (us : Nat → Nat)
    (poisTiles : List Nat) (rs : List (Option LaneRes)) (f : Flight) : Start :=
  let old := fun (i : Nat) => s.peek ⟨v.loc.sp, v.loc.a + i⟩
  let e := encLanes v.fmt v.grid rm sat us old (rs.map fun r => r.map (·.v))
  let fl := e.fls.foldl (· ||| ·) 0
  let bankFl := fun (b : Nat) => ((List.range rs.length).foldl (fun a j => match rs.getD j none with
    | some r => if r.banks.contains b then a ||| e.fls.getD j 0 else a
    | none => a) (0 : Fl)) ||| (if poisTiles.contains b then flPoisoned else 0)
  let s := (s.tileFlags d 0 (bankFl 0)).tileFlags d 1 (bankFl 1)
  let (s, p, rj) := s.writeAll w (e.writes v)
  .run s { f with
    stat := f.stat ||| fl ||| (if p then flPoisoned else 0)
    reject := f.reject.or rj }

/-- Write whole TL64 blocks. -/
def State.putBlocks (s : State) (d : Fin 4) (w : Writer) (v : VecDesc) (banks poisTiles : List Nat) (bs : List TlBlock)
    (f : Flight) : Start :=
  let sat : Fl := if bs.any fun b => b.flags &&& tlSat != 0 then flOverflow else 0
  let bankFl := fun (b : Nat) => (if banks.contains b then sat else 0) ||| (if poisTiles.contains b then flPoisoned else 0)
  let s := (s.tileFlags d 0 (bankFl 0)).tileFlags d 1 (bankFl 1)
  let (s, p, rj) := s.writeAll w [(v.loc, (bs.flatMap tlToBytes).map some)]
  .run s { f with
    stat := f.stat ||| sat ||| (if p then flPoisoned else 0)
    reject := f.reject.or rj }

end Sys2Proof.Machine
end

