-- ==== Sys2Proof/Machine/Vxe.lean ====
section
/-!
DEFINITION. The vector engine's instructions: VEW, VCVT, VTADD, VRED, VPERM and VOPT (spec 05 R96 to R108). Log entry 16 says
how a lane fed by poisoned bytes is taken.
-/
namespace Sys2Proof.Machine

/-! ## What the instructions share -/

/-- The writer of a VXE instruction. -/
def vxeWriter (d : Fin 4) (q : QInstr) : Writer := .engine d .vxe q.issue

/-- Parse several sources of one element count. -/
def State.vecSources (s : State) (d : Fin 4) (n : Nat) : List (List Byte) → Option (List Src)
  | [] => some []
  | b :: r => match s.vecSource d false n b, s.vecSources d n r with
    | some x, some l => some (x :: l)
    | _, _ => none

/-- Parse the mask, when there is one: U8 and no tile (R94). -/
def State.vecMask (s : State) (d : Fin 4) (n : Nat) (on : Bool) (b : List Byte) : Option (Option Src) :=
  if !on then some none
  else match s.vecSource d false n b with
    | some x => if x.tile.isNone ∧ x.desc.fmt = 5 then some (some x) else none
    | none => none

/-- Read sources in order. -/
def State.readSrcs (s : State) (d : Fin 4) (coll : List Nat) (n : Nat) (l : List Src) : State × List SrcData :=
  l.foldl (fun (x : State × List SrcData) y =>
    let (s, r) := x.1.readSrc d coll y n
    (s, x.2 ++ [r])) (s, [])

/-- A word with every unused descriptor field 0 and a rounding code that exists. -/
def vecWordBad (o : VecOp) : Bool := (rndOf o.rnd).isNone || o.rsvd != 0

/-- A TL64 destination takes RNE or RNE_SAT only (R42, R98). -/
def tlRndBad (o : VecOp) (v : VecDesc) : Bool := v.fmt == 8 && o.rnd != 0 && o.rnd != 4

/-- What one lane gives: its result if it is active, its flags, the tag of a NaN that it created, and the banks from which it
decoded poison. -/
structure LaneOut where
  res : Option LaneRes
  fl  : Fl := 0
  inv : Nat := 0
  tp  : List Nat := []

/-- The banks among the tiles of sources. -/
def srcBanks (l : List Src) : List Nat := l.filterMap fun x => x.tile.map (·.bank)

/-- What taking a lane of a source adds to a lane's flags and poisoned banks (R33, R38, R111). -/
def takeFl (l : Lane) : Fl := (if l.pois then flPoisoned else 0) ||| (if l.low then flOverflow else 0)
def takeTp (x : Src) (l : Lane) : List Nat := if l.pois then srcBanks [x] else []

/-- The drawn word of a lane's final encode (R93). -/
def vecDraw (s : State) (d : Fin 4) (c : VecCtx) (use : Nat) (j : Nat) : Nat :=
  draw (s.die d).seq.seed use c.stream (c.ebase + j) c.coord 0

/-- The flight of an instruction from its lanes. -/
def laneFlight (q : QInstr) (outs : List LaneOut) (lost : Option (Half × Half)) : Flight :=
  let fl := outs.foldl (fun a o => a ||| o.fl ||| (if o.inv = 0 then 0 else flInvalid)) 0
  let inv := (List.range outs.length).find? fun j => (outs.getD j ⟨none, 0, 0, []⟩).inv != 0
  { Flight.new q with
    stat := fl
    invalid := inv.map fun j => ⟨j, (outs.getD j ⟨none, 0, 0, []⟩).inv⟩
    lost := if fl &&& flPoisoned = 0 then none else lost }

/-- Encode and write the lanes of an instruction. -/
def State.finishLanes (s : State) (d : Fin 4) (q : QInstr) (v : VecDesc) (c : VecCtx) (outs : List LaneOut)
    (lost : Option (Half × Half)) : Start :=
  let r := (rndOf (vecOp q).rnd).getD (.rne, false)
  s.putResults d (vxeWriter d q) v r.1 r.2 (vecDraw s d c 5) (outs.flatMap (·.tp)) (outs.map (·.res)) (laneFlight q outs lost)

/-- The first lost part among several reads. -/
def firstLost (l : List (Option (Half × Half))) : Option (Half × Half) := l.foldl Option.or none

/-- A lane whose mask element is poisoned: the canonical NaN (R94, R111; log entry 16). -/
def maskedNan (banks : List Nat) : LaneOut := { res := some ⟨canonNan, banks⟩, fl := flPoisoned }

/-! ## VEW (R96, R97) -/

/-- How many sources a function has; none for a reserved FN. -/
def vewArity (fn : Nat) : Option Nat :=
  if fn = 0x03 ∨ fn = 0x1C then some 3
  else if fn ≤ 0x06 ∨ (0x18 ≤ fn ∧ fn ≤ 0x1B) then some 2
  else if fn ≤ 0x12 then some 1
  else none

/-- A compare. -/
def isCmp (fn : Nat) : Bool := 0x18 ≤ fn && fn ≤ 0x1B

/-- One and zero as results of a compare. -/
def boolVal (b : Bool) : Val := if b then .fin false 1 0 false else .zero false

/-- The number that stands for an input of an approximation (R97: its bits, log entry 7). -/
def valKey (f : Nat) (v : Val) : Nat :=
  match v with
  | .fin s m e _ => ((m * 2 ^ 24 + (e + 2 ^ 23).toNat) * 2 + b2n s) * 16 + f
  | v => b2n (vsign v) * 16 + f

/-- The exact result of a function on decoded values, or its approximation (Table 5-6). -/
def vewFn (fn f : Nat) (a b c : Val) : Res :=
  match fn with
  | 0x00 => addV a b
  | 0x01 => subV a b
  | 0x02 => mulV a b
  | 0x03 => fmaV a b c
  | 0x04 => divV a b
  | 0x05 => (minV a b, 0)
  | 0x06 => (maxV a b, 0)
  | 0x07 => (if vsign a then vneg a else a, 0)
  | 0x08 => (vneg a, 0)
  | 0x0A => sqrtV a
  | 0x18 => (boolVal (!isNan a && !isNan b && cmpV a b == 0), 0)
  | 0x19 => (boolVal (isNan a || isNan b || cmpV a b != 0), 0)
  | 0x1A => (boolVal (!isNan a && !isNan b && cmpV a b < 0), 0)
  | 0x1B => (boolVal (!isNan a && !isNan b && cmpV a b ≤ 0), 0)
  | _ => approxFn fn (valKey f a) a

/-- Whether a value is a zero. -/
def isZero : Val → Bool
  | .zero _ => true
  | _ => false

/-- One lane of VEW from the lanes of its sources. -/
def vewLane (fn : Nat) (srcs : List Src) (data : List SrcData) (j : Nat) : LaneOut :=
  let l := fun (i : Nat) => match data[i]? with
    | some x => x.at_ j
    | none => { v := .zero false }
  let used : List Nat := if fn = 0x1C then [2, if isZero (l 2).v then 1 else 0] else List.range srcs.length
  let fl := used.foldl (fun a i => a ||| takeFl (l i)) 0
  let at1 := used.flatMap fun i => match srcs[i]? with
    | some x => srcBanks [x]
    | none => []
  let tp := used.flatMap fun i => match srcs[i]? with
    | some x => takeTp x (l i)
    | none => []
  if fn = 0x1C then
    let v := (l (if isZero (l 2).v then 1 else 0)).v
    { res := some ⟨v, at1⟩, fl := fl ||| (if isNan v then flNanprop else 0), tp := tp }
  else
    let (v, t) := vewFn fn ((srcs.headD ⟨⟨⟨.hub, 0⟩, 0, false, false, ⟨.hub, 0⟩, 0, 0⟩, 0, none⟩).desc.fmt) (l 0).v (l 1).v (l 2).v
    { res := some ⟨v, at1⟩, inv := t, tp := tp
      fl := fl ||| (if t = 0 && isNan v && !isCmp fn then flNanprop else 0) }

/-- VEW. -/
def vewBody (d : Fin 4) (q : QInstr) (coll : List Nat) (s : State) : Start :=
  let o := vecOp q
  match vewArity o.fn with
  | none => .illegal s
  | some k =>
    if vecWordBad o || o.md != 0 || (o.mask && k == 3) || (k < 2 && o.ds2 != 0) || (k < 3 && !o.mask && o.ds3 != 0) then
      .illegal s
    else
      let idx := [o.dd, o.dx] ++ [o.ds1, o.ds2, o.ds3].take k ++ (if o.mask then [o.ds3] else [])
      match s.readDescs d coll idx with
      | (s, none) => .illegal s
      | (s, some none) => .poisoned s
      | (s, some (some ds)) =>
        match s.vecDest d o.n (ds.getD 0 []), parseVecCtx (ds.getD 1 []), s.vecSources d o.n (slice ds 2 k),
            s.vecMask d o.n o.mask (ds.getD (2 + k) []) with
        | some v, some c, some srcs, some m =>
          let ranges := srcs.flatMap Src.ranges ++ (m.toList.flatMap Src.ranges)
          if (isCmp o.fn && v.fmt != 5) || (o.fn == 0x1C && (srcs.getD 2 ⟨v, 0, none⟩).desc.fmt != 5) || tlRndBad o v
              || overlapBad true (vecRanges v o.n) ranges then .illegal s
          else match s.gate d srcs ((m.toList.flatMap Src.ranges)) with
            | .busy => .busy
            | .illegal => .illegal s
            | .wait rg => .wait rg
            | .go =>
              let (s, data) := s.readSrcs d coll o.n srcs
              let (s, mk) := s.readMask d coll m o.n
              let outs := (List.range o.n).map fun j =>
                if !mk.on j then { res := none }
                else if mk.pois j then maskedNan []
                else vewLane o.fn srcs data j
              s.finishLanes d q v c outs (firstLost (data.map (·.lost) ++ [mk.lost]))
        | _, _, _, _ => .illegal s

/-! ## VCVT (R98) -/

/-- A block that a VCVT or VTADD takes whole, and whether poisoned bytes fed an active element of it. -/
def TlRaw.fedOn (r : TlRaw) (active : Nat → Bool) : Bool := (List.range 256).any fun i => active i && r.fed.getLsbD i

/-- VCVT. -/
def vcvtBody (d : Fin 4) (q : QInstr) (coll : List Nat) (s : State) : Start :=
  let o := vecOp q
  if vecWordBad o || o.fn != 0 || o.md != 0 || o.ds2 != 0 || (!o.mask && o.ds3 != 0) then .illegal s
  else match s.readDescs d coll ([o.dd, o.dx, o.ds1] ++ (if o.mask then [o.ds3] else [])) with
  | (s, none) => .illegal s
  | (s, some none) => .poisoned s
  | (s, some (some ds)) =>
    match s.vecDest d o.n (ds.getD 0 []), parseVecCtx (ds.getD 1 []), s.vecSource d false o.n (ds.getD 2 []),
        s.vecMask d o.n o.mask (ds.getD 3 []) with
    | some v, some c, some x, some m =>
      if tlRndBad o v || (v.fmt == 8 && o.n % 256 != 0)
          || overlapBad true (vecRanges v o.n) (x.ranges ++ m.toList.flatMap Src.ranges) then .illegal s
      else match s.gate d [x] (m.toList.flatMap Src.ranges) with
        | .busy => .busy
        | .illegal => .illegal s
        | .wait rg => .wait rg
        | .go =>
          let (s, data) := s.readSrc d coll x o.n
          let (s, mk) := s.readMask d coll m o.n
          let lost := data.lost.or mk.lost
          if x.desc.fmt = 8 ∧ v.fmt = 8 then
            let bs := (List.range data.raws.length).map fun b =>
              tlConvert v.grid ((data.raws.getD b (tlRaw 0 [])).take (fun i => mk.on (256 * b + i)) fun i => mk.pois (256 * b + i))
            let fed := (List.range data.raws.length).any fun b =>
              (data.raws.getD b (tlRaw 0 [])).fedOn fun i => mk.on (256 * b + i)
            let bad := (List.range o.n).any mk.pois
            let st : Fl := if fed || bad then flPoisoned else 0
            s.putBlocks d (vxeWriter d q) v (srcBanks [x]) [] bs
              { Flight.new q with stat := st, lost := if st = 0 then none else lost }
          else
            let outs := (List.range o.n).map fun j =>
              let l := data.at_ j
              if !mk.on j then { res := none }
              else if mk.pois j then maskedNan []
              else { res := some ⟨l.v, srcBanks [x]⟩, tp := takeTp x l, fl := takeFl l ||| (if isNan l.v then flNanprop else 0) }
            s.finishLanes d q v c outs lost
    | _, _, _, _ => .illegal s

/-! ## VTADD (R99) -/

/-- VTADD. -/
def vtaddBody (d : Fin 4) (q : QInstr) (coll : List Nat) (s : State) : Start :=
  let o := vecOp q
  if vecWordBad o || o.fn != 0 || o.md != 0 || o.mask || o.ds3 != 0 || o.n % 256 != 0 then .illegal s
  else match s.readDescs d coll [o.dd, o.dx, o.ds1, o.ds2] with
  | (s, none) => .illegal s
  | (s, some none) => .poisoned s
  | (s, some (some ds)) =>
    match s.vecDest d o.n (ds.getD 0 []), parseVecCtx (ds.getD 1 []), s.vecSources d o.n (slice ds 2 2) with
    | some v, some _, some srcs =>
      if v.fmt != 8 || srcs.any (fun x => x.desc.fmt != 8) || overlapBad false (vecRanges v o.n) (srcs.flatMap Src.ranges) then
        .illegal s
      else match s.gate d srcs [] with
        | .busy => .busy
        | .illegal => .illegal s
        | .wait rg => .wait rg
        | .go =>
          let (s, data) := s.readSrcs d coll o.n srcs
          let raws := fun (i : Nat) => match data[i]? with
            | some x => x.raws
            | none => []
          let bs := (List.range (o.n / 256)).map fun b =>
            tlAdd ((raws 0).getD b (tlRaw 0 [])).whole ((raws 1).getD b (tlRaw 0 [])).whole
          let fed := (raws 0 ++ raws 1).any fun r => r.fedOn fun _ => true
          let st : Fl := if fed then flPoisoned else 0
          s.putBlocks d (vxeWriter d q) v (srcBanks srcs) [] bs
            { Flight.new q with stat := st, lost := if fed then firstLost (data.map (·.lost)) else none }
    | _, _, _ => .illegal s

/-! ## VRED (R100 to R102) -/

/-- A node of the tree: value, input index (ARGMAX and ARGMIN), whether a NaN in it came from an input, and the first invalid
operation in it (lowest input index, tag). -/
structure Node where
  v    : Val
  idx  : Nat
  nanp : Bool
  inv  : Option (Nat × Nat)
deriving DecidableEq, Repr

/-- The invalid operation at the lower input index. -/
def lowerInv (a b : Option (Nat × Nat)) : Option (Nat × Nat) :=
  match a, b with
  | none, y => y
  | x, none => x
  | some x, some y => if y.1 < x.1 then some y else some x

/-- Whether the right node wins MAX (or MIN) over the left one: NaN above every value, +0 above −0, the left one on a tie. -/
def rightWins (greater : Bool) (a b : Val) : Bool :=
  if isNan a then false else if isNan b then true
  else
    let c := cmpV a b
    if isZero a && isZero b then (if greater then vsign a && !vsign b else !vsign a && vsign b)
    else if greater then decide (c < 0) else decide (0 < c)

/-- A node from two present children; `base` is the lowest input index that it covers. -/
def redNode (fn base : Nat) (a b : Node) : Node :=
  let arith := fun (r : Res) (nanIn : Bool) =>
    let inv := lowerInv (a.inv) (b.inv)
    let inv := if r.2 = 0 then inv else lowerInv inv (some (base, r.2))
    ({ v := roundX .rne 0 r.1, idx := 0, nanp := r.2 == 0 && nanIn, inv := inv } : Node)
  let nan := if isNan a.v then a.nanp else if isNan b.v then b.nanp else false
  match fn with
  | 0 => arith (addV a.v b.v) nan
  | 7 => arith (addV a.v b.v) nan
  | 1 => arith (mulV a.v b.v) nan
  | _ =>
    let w := if rightWins (fn == 2 || fn == 4) a.v b.v then b else a
    { w with nanp := isNan w.v && w.nanp }

/-- One level of the tree: nodes of `span` inputs each. -/
def redLevel (fn span : Nat) : Nat → List (Option Node) → List (Option Node)
  | _, [] => []
  | _, [a] => [a]
  | i, a :: b :: r => (match a, b with
      | some x, some y => some (redNode fn (2 * i * span) x y)
      | some x, none => some x
      | none, y => y) :: redLevel fn span (i + 1) r

/-- The tree over a group's leaves; `fuel` bounds its levels. -/
def redTree (fn : Nat) : Nat → Nat → List (Option Node) → Option Node
  | 0, _, l => (l.headD none)
  | fuel + 1, span, l => match l with
    | [] => none
    | [a] => a
    | l => redTree fn fuel (2 * span) (redLevel fn span 0 l)

/-- The leaf of an active input. The square of SUMSQ is rounded as the node results are (Table 5-8). -/
def redLeaf (fn i : Nat) (v : Val) : Node :=
  ⟨if fn = 7 then roundX .rne 0 (mulV v v).1 else v, i, isNan v, none⟩

/-- The result of an empty group (Table 5-8). -/
def redEmpty : Nat → Val
  | 1 => .fin false 1 0 false
  | 2 => .inf true
  | 3 => .inf false
  | 4 => ofInt 65535 0
  | 5 => ofInt 65535 0
  | _ => .zero false

/-- The result of a group: active inputs as (value) options in order. `lane` is the lane of its first input. -/
def redGroup (fn lane : Nat) (ins : List (Option Val)) : Val × Fl × Option LaneInvalid :=
  if fn = 6 then
    let on := ins.filterMap id
    (ofInt ((on.filter fun v => !isZero v).length : Int) 0, if on.isEmpty then flEmpty else 0, none)
  else
    let leaves := (List.range ins.length).map fun i => (ins.getD i none).map (redLeaf fn i)
    match redTree fn ins.length 1 leaves with
    | none => (redEmpty fn, flEmpty, none)
    | some r =>
      let v := if fn = 4 ∨ fn = 5 then ofInt (r.idx : Int) 0 else r.v
      (v, (if isNan r.v && r.nanp then flNanprop else 0) ||| (if r.inv.isSome then flInvalid else 0),
        r.inv.map fun x => ⟨lane + x.1, x.2⟩)

/-- A node of the exact tree of a TL64 SUM: integer on the lowest grid, poison, saturation. -/
def tlNode (a b : Int × Bool × Bool) : Int × Bool × Bool :=
  if a.2.1 || b.2.1 then (0, true, a.2.2 || b.2.2)
  else let (n, c) := tlClamp (a.1 + b.1); (n, false, a.2.2 || b.2.2 || c)

/-- One level of that tree. -/
def tlLevel : List (Option (Int × Bool × Bool)) → List (Option (Int × Bool × Bool))
  | [] => []
  | [a] => [a]
  | a :: b :: r => (match a, b with
      | some x, some y => some (tlNode x y)
      | some x, none => some x
      | none, y => y) :: tlLevel r

def tlTree : Nat → List (Option (Int × Bool × Bool)) → Option (Int × Bool × Bool)
  | 0, l => l.headD none
  | fuel + 1, l => match l with
    | [] => none
    | [a] => a
    | l => tlTree fuel (tlLevel l)

/-- One input of VRED: its lane, whether it is active, whether its mask element is poisoned, and, for a TL64 source, the
block it lies in and its index there. -/
structure RedIn where
  lane : Lane
  on   : Bool
  bad  : Bool
  raw  : TlRaw
  i    : Nat

/-- The value that enters the tree (R111). -/
def RedIn.val (x : RedIn) : Val := if x.bad then canonNan else x.lane.v

/-- The result of a TL64 SUM group: number, poison, block flags, and instruction flags. -/
def tlGroup (gm : Int) (keepTl : Bool) (ins : List RedIn) : (Int × Bool) × Byte × Fl :=
  let on := ins.filter (·.on)
  let fed := fun (x : RedIn) => x.bad || x.raw.fed.getLsbD x.i
  let leaves := ins.map fun x =>
    if !x.on then none
    else if fed x || x.raw.blk.poison.getLsbD x.i then some ((0 : Int), true, false)
    else
      let (n, c) := tlClamp (x.raw.blk.elems.getD x.i 0 * 2 ^ (x.raw.blk.g - gm).toNat)
      some (n, false, c)
  let hf := on.foldl (fun (a : Byte) x => a ||| x.raw.blk.flags ||| (if fed x then tlNan else 0) |||
    (if x.raw.low.getLsbD x.i then tlSat else 0)) 0
  let fl : Fl := (if on.any fed then flPoisoned else 0) |||
    (if !keepTl && on.any (fun x => x.raw.low.getLsbD x.i) then flOverflow else 0)
  match tlTree ins.length leaves with
  | none => ((0, false), hf, fl ||| flEmpty)
  | some (n, p, c) => ((n, p), if c then hf ||| tlSat else hf, fl ||| (if c && !keepTl then flOverflow else 0))

/-- The inputs of VRED, group by group. -/
def redGroups (n l : Nat) (ins : List RedIn) : List (List RedIn) := chunks l (n + 1) ins

/-- The results of VRED over groups of inputs. -/
def State.vredRun (s : State) (d : Fin 4) (q : QInstr) (o : VecOp) (v : VecDesc) (c : VecCtx) (x : Src)
    (groups : List (List RedIn)) (lost : Option (Half × Half)) : Start :=
  let l := (groups.headD []).length
  let banks := srcBanks [x]
  let flat := groups.flatten
  let badFl : Fl := if flat.any fun y => y.bad then flPoisoned else 0
  if x.desc.fmt = 8 ∧ o.fn = 0 then
    let gm := flat.foldl (fun (a : Option Int) y => match a with
      | none => some y.raw.blk.g
      | some g => some (min g y.raw.blk.g)) none |>.getD 0
    let rs := groups.map (tlGroup gm (v.fmt == 8))
    let fl := rs.foldl (fun (a : Fl) r => a ||| r.2.2) badFl
    if v.fmt = 8 then
      let bs := (chunks 256 (rs.length + 1) rs).map fun ch =>
        (⟨gm, ch.foldl (fun (a : Byte) r => a ||| r.2.1) 0,
          maskOf 256 ((List.range ch.length).filter fun i => (ch.getD i ((0, false), 0, 0)).1.2),
          ch.map (fun r => r.1.1) ++ List.replicate (256 - ch.length) 0⟩ : TlBlock)
      s.putBlocks d (vxeWriter d q) v banks (if fl &&& flPoisoned = 0 then [] else banks) bs
        { Flight.new q with stat := fl, lost := if fl &&& flPoisoned = 0 then none else lost }
    else
      let outs := rs.map fun r =>
        let val := if r.1.2 then (.nan false 0x06 : Val) else ofInt r.1.1 gm
        let pf : Fl := if r.1.2 then flPoisoned else 0
        ({ res := some ⟨val, banks⟩, fl := r.2.2 ||| pf, tp := if r.1.2 then banks else [] } : LaneOut)
      match s.finishLanes d q v c outs lost with
      | .run s f => .run s { f with stat := f.stat ||| badFl }
      | r => r
  else
    let rs := (List.range groups.length).map fun g =>
      let ins := groups.getD g []
      let on := ins.filter (·.on)
      let r := redGroup o.fn (g * l) (ins.map fun y => if y.on then some y.val else none)
      let fl := on.foldl (fun (a : Fl) y => a ||| (if y.bad then flPoisoned else takeFl y.lane)) r.2.1
      (({ res := some ⟨r.1, banks⟩, fl := fl, tp := on.flatMap fun y => if y.bad then [] else takeTp x y.lane } : LaneOut),
        r.2.2)
    match s.finishLanes d q v c (rs.map (·.1)) lost with
    | .run s f => .run s { f with invalid := firstSome rs (·.2) }
    | r => r

/-- VRED. -/
def vredBody (d : Fin 4) (q : QInstr) (coll : List Nat) (s : State) : Start :=
  let o := vecOp q
  let shape := o.md % 4
  if vecWordBad o || 7 < o.fn || 4 ≤ o.md || shape == 3 || o.ds2 != 0 || (!o.mask && o.ds3 != 0) then .illegal s
  else match s.readDescs d coll ([o.dd, o.dx, o.ds1] ++ (if o.mask then [o.ds3] else [])) with
  | (s, none) => .illegal s
  | (s, some none) => .poisoned s
  | (s, some (some ds)) =>
    match parseVecCtx (ds.getD 1 []) with
    | none => .illegal s
    | some c =>
      let lines := shape == 2
      let l := if shape = 0 then o.n else c.len
      let count := if shape = 0 then 1 else if lines then o.n else o.n / l
      match s.vecDest d count (ds.getD 0 []), s.vecSource d lines o.n (ds.getD 2 []),
          s.vecMask d (if lines then l else o.n) o.mask (ds.getD 3 []) with
      | some v, some x, some m =>
        let lineBad := lines && match x.tile with
          | none => true
          | some t => decide (512 < l) || decide (512 < t.line + o.n) || (x.desc.fmt == 8 && t.axis)
        if (shape == 1 && o.n % l != 0) || lineBad || ((o.fn == 4 || o.fn == 5) && v.fmt != 1)
            || (v.fmt == 8 && !(x.desc.fmt == 8 && o.fn == 0)) || tlRndBad o v
            || overlapBad false (vecRanges v count) (x.ranges ++ m.toList.flatMap Src.ranges) then .illegal s
        else match s.gate d [x] (m.toList.flatMap Src.ranges) with
          | .busy => .busy
          | .illegal => .illegal s
          | .wait rg => .wait rg
          | .go =>
            match x.tile with
            | some t =>
              if lines then
                let (s, mk) := s.readMask d coll m l
                let die := s.die d
                let groups := (List.range o.n).map fun g => (List.range l).map fun i =>
                  let i' := if x.desc.bcast then 0 else i
                  let cell := if t.axis then (i', t.line + g) else (t.line + g, i')
                  if x.desc.fmt = 8 then
                    let raw := die.tileRaw cell.1 (cell.2 / 256)
                    (⟨raw.lane (cell.2 % 256), mk.on i, mk.pois i, raw, cell.2 % 256⟩ : RedIn)
                  else ⟨die.cellLane t.bank cell.1 cell.2, mk.on i, mk.pois i, tlRaw 0 [], 0⟩
                s.vredRun d q o v c x groups mk.lost
              else vredFlat s o v c x m l
            | none => vredFlat s o v c x m l
      | _, _, _ => .illegal s
where
  /-- ALL and SEG. -/
  vredFlat (s : State) (o : VecOp) (v : VecDesc) (c : VecCtx) (x : Src) (m : Option Src) (l : Nat) : Start :=
    let (s, data) := s.readSrc d coll x o.n
    let (s, mk) := s.readMask d coll m o.n
    let ins := (List.range o.n).map fun j =>
      (⟨data.at_ j, mk.on j, mk.pois j, data.raws.getD (j / 256) (tlRaw 0 []), j % 256⟩ : RedIn)
    s.vredRun d q o v c x (redGroups o.n l ins) (data.lost.or mk.lost)

/-! ## VPERM (R103, R104) -/

/-- The table position that an index names, if it is in range. -/
def permIndex (t : Nat) : Val → Option Nat
  | .zero _ => some 0
  | .fin false m e _ =>
    if 0 ≤ e then (if shl m e < t then some (shl m e) else none)
    else
      let k := 2 ^ (-e).toNat
      if m % k = 0 ∧ m / k < t then some (m / k) else none
  | _ => none

/-- PERM and GATHER. -/
def vpermBody (d : Fin 4) (q : QInstr) (coll : List Nat) (s : State) : Start :=
  let o := vecOp q
  if vecWordBad o || 1 < o.fn || o.md != 0 || (!o.mask && o.ds3 != 0) then .illegal s
  else match s.readDescs d coll ([o.dd, o.dx, o.ds1, o.ds2] ++ (if o.mask then [o.ds3] else [])) with
  | (s, none) => .illegal s
  | (s, some none) => .poisoned s
  | (s, some (some ds)) =>
    match parseVecCtx (ds.getD 1 []) with
    | none => .illegal s
    | some c =>
      let t := if o.fn = 0 then o.n else c.len
      match s.vecDest d o.n (ds.getD 0 []), s.vecSource d false t (ds.getD 2 []), s.vecSource d false o.n (ds.getD 3 []),
          s.vecMask d o.n o.mask (ds.getD 4 []) with
      | some v, some x, some ix, some m =>
        if v.fmt == 8 || x.desc.fmt == 8 || ix.tile.isSome || (ix.desc.fmt != 5 && ix.desc.fmt != 1)
            || overlapBad false (vecRanges v o.n) (x.ranges ++ ix.ranges ++ m.toList.flatMap Src.ranges) then .illegal s
        else match s.gate d [x, ix] (m.toList.flatMap Src.ranges) with
          | .busy => .busy
          | .illegal => .illegal s
          | .wait rg => .wait rg
          | .go =>
            let (s, data) := s.readSrc d coll x t
            let (s, idx) := s.readSrc d coll ix o.n
            let (s, mk) := s.readMask d coll m o.n
            let outs := (List.range o.n).map fun j =>
              let i := idx.at_ j
              if !mk.on j then ({ res := none } : LaneOut)
              else if mk.pois j then maskedNan []
              else match permIndex t i.v with
                | none => { res := some ⟨decW32 c.fill, []⟩, fl := takeFl i ||| flOor }
                | some k =>
                  let l := data.at_ k
                  { res := some ⟨l.v, srcBanks [x]⟩, tp := takeTp x l
                    fl := takeFl i ||| takeFl l ||| (if isNan l.v then flNanprop else 0) }
            s.finishLanes d q v c outs (firstLost [data.lost, idx.lost, mk.lost])
      | _, _, _, _ => .illegal s

/-! ## VOPT (R105 to R108) -/

/-- A state descriptor: weights, first and second moment. -/
structure OptState where
  w : Loc
  m : Loc
  v : Option Loc
deriving DecidableEq, Repr

/-- Parse a state descriptor; SGD_MOM has no second moment (R105). -/
def parseOpt (d : Fin 4) (adam : Bool) (b : List Byte) : Option OptState :=
  match parseLoc d (leAt b 0 8), parseLoc d (leAt b 8 8), parseLoc d (leAt b 16 8) with
  | some w, some m, some v =>
    if leAt b 24 8 ≠ 0 then none
    else if adam then some ⟨w, m, some v⟩
    else if leAt b 16 8 ≠ 0 then none else some ⟨w, m, none⟩
  | _, _, _ => none

def OptState.locs (x : OptState) : List Loc := [x.w, x.m] ++ x.v.toList

/-- The parameter block: eleven W32 values and BACKOFF_SHIFT. -/
structure OptParams where
  vals  : List Val
  shift : Nat

/-- Parse the parameter block; none for what makes the instruction illegal. -/
def parseParams (b : List Byte) : Option OptParams :=
  if 31 < leAt b 44 1 ∨ leAt b 45 19 ≠ 0 then none
  else some ⟨(List.range 11).map fun i => decW32 (leAt b (4 * i) 4), leAt b 44 1⟩

/-- A result rounded to W32 by RNE, with its flags and the tag of a NaN that it created. -/
structure OptVal where
  v   : Val
  fl  : Fl := 0
  inv : Nat := 0

/-- Round the result of an operation on values that carry flags and tags; the first created tag stays. -/
def optRound (ins : List OptVal) (r : Res) : OptVal :=
  let (c, fl) := encW32 .rne false 0 r.1
  { v := decW32 c
    fl := ins.foldl (fun a x => a ||| x.fl) fl
    inv := (ins.foldl (fun a x => if a = 0 then x.inv else a) 0) |> fun t => if t = 0 then r.2 else t }

def oMul (a b : OptVal) : OptVal := optRound [a, b] (mulV a.v b.v)
def oAdd (a b : OptVal) : OptVal := optRound [a, b] (addV a.v b.v)
def oSub (a b : OptVal) : OptVal := optRound [a, b] (subV a.v b.v)
def oDiv (a b : OptVal) : OptVal := optRound [a, b] (divV a.v b.v)
def oSqrt (a : OptVal) : OptVal := optRound [a] (sqrtV a.v)
def oFma (a b c : OptVal) : OptVal := optRound [a, b, c] (fmaV a.v b.v c.v)

/-- New weight, first moment and second moment of a lane (R106). -/
def optLane (adam : Bool) (p : OptParams) (g w m v : Val) : OptVal × OptVal × OptVal :=
  let k := fun (i : Nat) => ({ v := p.vals.getD i (.zero false) } : OptVal)
  let pl := fun (x : Val) => ({ v := x } : OptVal)
  let g := oMul (pl g) (k 9)
  let m1 := if adam then oFma (k 2) (pl m) (oMul (k 3) g) else oFma (k 2) (pl m) g
  let v1 := if adam then oFma (k 4) (pl v) (oMul (k 5) (oMul g g)) else pl v
  let u := if adam then oDiv (oMul m1 (k 7)) (oAdd (oSqrt (oMul v1 (k 8))) (k 6)) else m1
  (oSub (pl w) (oMul (k 0) (oFma (k 1) (pl w) u)), m1, v1)

/-- The T16 vector descriptor of a place. -/
def t16At (l : Loc) : VecDesc := ⟨l, 0, false, false, ⟨l.sp, 0⟩, 0, 0⟩

/-- LOSS_SCALE × 2^−BACKOFF_SHIFT (R107): a non-zero product below 2^−126 becomes +0 with UNDERFLOW. -/
def backOff (shift code : Nat) : Nat × Fl :=
  match decW32 code with
  | .fin s m e st => match encW32 .rne false 0 (.fin s m (e - (shift : Int)) st) with
    | (c, fl) => if fl &&& flUnderflow = 0 then (c, fl) else (0, flUnderflow)
  | _ => (code, 0)

/-- The skip of a gated update (R107): copy, back off once, SKIPPED. -/
def State.voptSkip (s : State) (d : Fin 4) (q : QInstr) (coll : List Nat) (n : Nat) (src dst : OptState) (backoff : Bool)
    (shift po fo flag : Nat) : Start :=
  let pairs := (src.locs.zip dst.locs).filter fun p => p.1 != p.2
  let (s, ws, lost) := pairs.foldl (fun (x : State × List (Loc × List PByte) × Option (Half × Half)) p =>
    let (s, ws, lost) := x
    let (s, r) := s.readCached d coll p.1.sp p.1.a (2 * n)
    (s, ws ++ [(p.2, r.bytes)], lost.or r.fail)) (s, [], none)
  let pois := ws.any fun w => w.2.any Option.isNone
  let (s, pb) := s.readSpad d coll (po + 40) 4
  let (ls, bf) := backOff shift (leNat pb.data)
  let go := backoff && !nbit flag 1
  let ws := ws ++ (if go then [(⟨.spad d, po + 40⟩, (natLe 4 ls).map some), (⟨.spad d, fo⟩, (natLe 8 (flag + 2)).map some)]
    else [])
  let (s, p, rj) := s.writeAll (vxeWriter d q) ws
  .run s { Flight.new q with
    stat := flSkipped ||| (if go then bf else 0) ||| (if pois || p then flPoisoned else 0)
    reject := rj, lost := if pois then lost else none }

/-- The update of R106 over all lanes. -/
def State.voptRun (s : State) (d : Fin 4) (q : QInstr) (coll : List Nat) (n : Nat) (adam : Bool) (g : Src)
    (src dst : OptState) (c : VecCtx) (p : OptParams) : Start :=
  let (s, gd) := s.readSrc d coll g n
  let (s, wl, lw) := s.readPlain d coll (t16At src.w) n
  let (s, ml, lm) := s.readPlain d coll (t16At src.m) n
  let (s, vl, lv) := match src.v with
    | some v => s.readPlain d coll (t16At v) n
    | none => (s, [], none)
  let zero : Lane := { v := .zero false }
  let outs := (List.range n).map fun j =>
    let gl := gd.at_ j
    let wv := wl.getD j zero
    let mv := ml.getD j zero
    let vv := vl.getD j zero
    let (w1, m1, v1) := optLane adam p gl.v wv.v mv.v vv.v
    let vs := [w1, m1] ++ (if adam then [v1] else [])
    let tag := vs.foldl (fun a x => if a = 0 then x.inv else a) 0
    let np := vs.any fun x => isNan x.v && x.inv == 0
    ((w1, m1, v1), ({ res := none, inv := tag, tp := takeTp g gl
                      fl := vs.foldl (fun a x => a ||| x.fl)
                        (takeFl gl ||| takeFl wv ||| takeFl mv ||| takeFl vv ||| (if np then flNanprop else 0)) } : LaneOut))
  let enc := fun (use : Nat) (f : OptVal × OptVal × OptVal → OptVal) =>
    (List.range n).map fun j => encT16 .sr false (vecDraw s d c use j) (f (outs.getD j ((⟨zero.v, 0, 0⟩, ⟨zero.v, 0, 0⟩,
      ⟨zero.v, 0, 0⟩), { res := none })).1).v
  let ew := enc 1 (·.1)
  let em := enc 2 (·.2.1)
  let ev := if adam then enc 3 (·.2.2) else []
  let bytes := fun (l : List (Nat × Fl)) => (packElems 0 (l.map (·.1))).map some
  let fl := (ew ++ em ++ ev).foldl (fun a x => a ||| x.2) 0
  let f := laneFlight q (outs.map (·.2)) (firstLost [gd.lost, lw, lm, lv])
  let tps := (outs.flatMap fun x => x.2.tp)
  let s := forEach [0, 1] (fun s b => s.tileFlags d b
    (if (srcBanks [g]).contains b then (fl ||| (if tps.contains b then flPoisoned else 0)) else 0)) s
  let ws := [(dst.w, bytes ew), (dst.m, bytes em)] ++ (match dst.v with
    | some v => [(v, bytes ev)]
    | none => [])
  let (s, pw, rj) := s.writeAll (vxeWriter d q) ws
  .run s { f with stat := f.stat ||| fl ||| (if pw then flPoisoned else 0), reject := rj }

/-- VOPT: SGD_MOM and ADAMW. -/
def voptBody (d : Fin 4) (q : QInstr) (coll : List Nat) (s : State) : Start :=
  let o := vecOp q
  let adam := o.fn == 1
  let gated := nbit o.md 0
  if vecWordBad o || 1 < o.fn || 4 ≤ o.md || o.mask || o.ds3 != 0 then .illegal s
  else match s.readDescs d coll [o.dd, o.dx, o.ds1, o.ds2] with
  | (s, none) => .illegal s
  | (s, some none) => .poisoned s
  | (s, some (some ds)) =>
    match parseOpt d adam (ds.getD 0 []), parseVecCtx (ds.getD 1 []), s.vecSource d false o.n (ds.getD 2 []),
        parseOpt d adam (ds.getD 3 []) with
    | some dst, some c, some g, some src =>
      let rng := fun (x : OptState) => x.locs.map fun l => ((l, 2 * o.n, 16) : OpRange)
      let bad := fun (x : OptState) => x.locs.any fun l => l.a % 2 != 0 || s.rangeBad l.sp l.a (2 * o.n)
      if bad dst || bad src || !(g.desc.fmt == 0 || g.desc.fmt == 1 || g.desc.fmt == 8)
          || overlapBad true (rng dst) (rng src ++ g.ranges) || c.param % 64 != 0 || decide (spadSize < c.param + 64)
          || (gated && (c.flag % 8 != 0 || decide (spadSize < c.flag + 8))) then .illegal s
      else
        let (s, pb) := s.readSpad d coll c.param 64
        let (s, fb) := if gated then s.readSpad d coll c.flag 8 else (s, ⟨[], none⟩)
        if pb.bad || fb.bad then .poisoned s
        else match parseParams pb.data with
          | none => .illegal s
          | some p =>
            if gated && nbit (leNat fb.data) 0 then
              let rg := devRanges (rng src)
              if s.rangesWait rg then .wait rg
              else s.voptSkip d q coll o.n src dst (nbit o.md 1) p.shift c.param c.flag (leNat fb.data)
            else match s.gate d [g] (rng src) with
              | .busy => .busy
              | .illegal => .illegal s
              | .wait rg => .wait rg
              | .go => s.voptRun d q coll o.n adam g src dst c p
    | _, _, _, _ => .illegal s

end Sys2Proof.Machine
end

