-- ==== Sys2Proof/Machine/Mov.lean ====
section
/-!
DEFINITION. The instructions of MOV, TRN and RNG (spec 06 R121 to R123). Log entry 17 names the descriptor forms that the spec
gives them no meaning for, log entry 19 the blocks that a layout change leaves without one face.
-/
namespace Sys2Proof.Machine

/-! ## Places that MOV names (R121, spec 07 R138) -/

/-- A MOV operand: place and alias selector. -/
structure MovLoc where
  loc : Loc
  sel : Nat
deriving DecidableEq, Repr

/-- Parse a MOV descriptor for `n` bytes aligned to `al`; none for what makes the instruction illegal. -/
def State.movLoc (s : State) (d : Fin 4) (al n : Nat) (b : List Byte) : Option MovLoc :=
  match parseVec d true b with
  | none => none
  | some v =>
    let gone : Bool := match v.loc.sp with
      | .spad e => e != d && s.dieSt e == dsExcluded
      | _ => false
    if v.tile ∨ v.bcast ∨ v.sel = 3 ∨ v.loc.a % al ≠ 0 ∨ s.rangeBad v.loc.sp v.loc.a n ∨ gone then none
    else some ⟨v.loc, v.sel⟩

/-- A MOV read; an alias address reads as 0 (spec 07 R138). -/
def State.movRead (s : State) (d : Fin 4) (coll : List Nat) (m : MovLoc) (n : Nat) : State × Rd :=
  if m.sel ≠ 0 then (s, ⟨List.replicate n (some 0), none⟩) else s.readMem d coll m.loc.sp m.loc.a n

/-- A MOV write: another die's scratchpad is refused as R177, R178 and R364 say, an alias of the semaphore words with
BAD_DESCRIPTOR (R138). -/
def State.movWrite (s : State) (d : Fin 4) (w : Writer) (m : MovLoc) (bs : List PByte) :
    State × Bool × Option (Half × Half) :=
  match m.loc.sp with
  | .spad e =>
    let away : Option (Half × Half) := if e = d then none else s.twinStatus e
    match away with
    | some x => (s, false, some x)
    | none =>
      if m.sel ≠ 0 ∧ m.loc.a < twinBase + 2048 ∧ twinBase < m.loc.a + bs.length then
        (s, false, some (stBadDescriptor, partUnit d unitMov))
      else
        let (x, p, o) := (s.die e).write m.sel m.loc.a bs
        let s := s.modDie e fun _ => x
        (if o then s.raise e (overflowPortB e x.seq.pc) else s, p, none)
  | _ => s.writeLoc w m.loc bs

/-- The writer of a MOV instruction. -/
def movWriter (d : Fin 4) (q : QInstr) : Writer := .engine d .mov q.issue

/-- The fields that COPY, FILL and HUBOP leave unused. -/
def movWordBad (o : VecOp) : Bool := vecWordBad o || o.md != 0 || o.mask || o.ds2 != 0 || o.ds3 != 0 || 2 < o.fn

/-- A MOV instruction's flight after its write. -/
def movDone (q : QInstr) (st : Fl) (lost : Option (Half × Half)) (x : State × Bool × Option (Half × Half)) : Start :=
  .run x.1 { Flight.new q with stat := st ||| (if x.2.1 then flPoisoned else 0), reject := x.2.2, lost := lost }

/-- COPY, and every reserved function. -/
def copyBody (d : Fin 4) (q : QInstr) (coll : List Nat) (s : State) : Start :=
  let o := vecOp q
  if movWordBad o then .illegal s
  else match s.readDescs d coll [o.dd, o.dx, o.ds1] with
  | (s, none) => .illegal s
  | (s, some none) => .poisoned s
  | (s, some (some ds)) =>
    let n := 256 * o.n
    match s.movLoc d 256 n (ds.getD 0 []), parseVecCtx (ds.getD 1 []), s.movLoc d 256 n (ds.getD 2 []) with
    | some dst, some _, some src =>
      if overlaps dst.loc n src.loc n then .illegal s
      else
        let rg := devRanges [(src.loc, n, 8)]
        if s.rangesWait rg then .wait rg
        else
          let (s, r) := s.movRead d coll src n
          movDone q (if r.bad then flPoisoned else 0) (if r.bad then r.fail else none)
            (s.movWrite d (movWriter d q) dst r.bytes)
    | _, _, _ => .illegal s

/-- FILL. -/
def fillBody (d : Fin 4) (q : QInstr) (coll : List Nat) (s : State) : Start :=
  let o := vecOp q
  if movWordBad o || o.ds1 != 0 then .illegal s
  else match s.readDescs d coll [o.dd, o.dx] with
  | (s, none) => .illegal s
  | (s, some none) => .poisoned s
  | (s, some (some ds)) =>
    match s.movLoc d 256 (256 * o.n) (ds.getD 0 []), parseVecCtx (ds.getD 1 []) with
    | some dst, some c =>
      movDone q 0 none (s.movWrite d (movWriter d q) dst ((List.replicate (64 * o.n) (natLe 4 c.fill)).flatten.map some))
    | _, _ => .illegal s

/-- HUBOP: send the message, or write a POISONED reply without sending (R121). -/
def hubopBody (d : Fin 4) (q : QInstr) (coll : List Nat) (s : State) : Start :=
  let o := vecOp q
  if movWordBad o || o.n != 1 then .illegal s
  else match s.readDescs d coll [o.dd, o.dx, o.ds1] with
  | (s, none) => .illegal s
  | (s, some none) => .poisoned s
  | (s, some (some ds)) =>
    match s.movLoc d 1 8 (ds.getD 0 []), parseVecCtx (ds.getD 1 []), s.movLoc d 1 32 (ds.getD 2 []) with
    | some dst, some _, some src =>
      let rg := devRanges [(src.loc, 32, 8)]
      if s.rangesWait rg then .wait rg
      else
        let (s, r) := s.movRead d coll src 32
        if r.bad then
          movDone q flPoisoned r.fail (s.movWrite d (movWriter d q) dst ((natLe 8 stPoisoned.toNat).map some))
        else
          let m : HubMsg := ⟨d, (r.data.headD 0).toNat, r.data, q.issue, leAt (ds.getD 0 []) 0 8⟩
          .run { s with hubMsgs := s.hubMsgs ++ [m] } { Flight.new q with replyDue := true }
    | _, _, _ => .illegal s

/-- A hub unit's reply (R121): status, detail and four further bytes, written to the place that the instruction names. -/
def State.hubReply (s : State) (m : HubMsg) (reply : List Byte) : State :=
  let s := { s with hubMsgs := dropFirst (fun x => x.die == m.die && x.issue == m.issue) s.hubMsgs }
  if s.dieFenced m.die then s
  else match parseVecLoc m.die true (m.reply % 2 ^ 61 + m.reply / 2 ^ 63 * 2 ^ 63) with
  | none => s
  | some (l, sel) =>
    let (s, p, rj) := s.movWrite m.die (.engine m.die .mov m.issue) ⟨l, sel⟩ ((padTo 8 reply).map some)
    let up := fun (f : Flight) =>
      { f with replyDue := false, reject := f.reject.or rj, stat := f.stat ||| (if p then flPoisoned else 0) }
    s.modDie m.die fun x => { x with movFly := updateWhere (fun f => f.instr.issue == m.issue) up x.movFly }

/-- The bytes of a reply from its fields. -/
def replyBytes (st detail : Half) (rest : List Byte) : List Byte :=
  natLe 2 st.toNat ++ natLe 2 detail.toNat ++ padTo 4 rest

/-! ## RNG (R122, Table 6-4) -/

/-- UNIFORM: (u >> 8) × 2^−24. -/
def uniformV (u : Nat) : Val := ofInt ((u / 2 ^ 8 : Nat) : Int) (-24)

/-- The threshold ⌊p × 2^32⌋ of BERNOULLI, and INVALID for a NaN. -/
def bernoulliThr (code : Nat) : Nat × Fl :=
  match decW32 code with
  | .nan _ _ => (0, flInvalid)
  | .inf s => (if s then 0 else 2 ^ 32, 0)
  | .zero _ => (0, 0)
  | .fin s m e _ =>
    if s then (0, 0)
    else
      let k := e + 32
      (min (2 ^ 32) (if 0 ≤ k then shl m k else m / 2 ^ (-k).toNat), 0)

/-- The format that each function writes. -/
def rngFmt (fn : Nat) : Nat := if fn = 1 then 5 else 1

/-- One element of an RNG function. -/
def rngElem (fn thr : Nat) (w : Nat × Nat × Nat × Nat) : Nat :=
  match fn with
  | 0 => (encW32 .rne false 0 (uniformV w.1)).1
  | 1 => b2n (decide (w.1 < thr))
  | _ => (encW32 .rne false 0 (normalV w.1 w.2.1)).1

/-- UNIFORM, BERNOULLI, NORMAL, and every reserved function. -/
def rngBody (d : Fin 4) (q : QInstr) (coll : List Nat) (s : State) : Start :=
  let o := vecOp q
  if vecWordBad o || o.md != 0 || o.mask || o.ds1 != 0 || o.ds2 != 0 || o.ds3 != 0 || 2 < o.fn then .illegal s
  else match s.readDescs d coll [o.dd, o.dx] with
  | (s, none) => .illegal s
  | (s, some none) => .poisoned s
  | (s, some (some ds)) =>
    match s.vecDest d o.n (ds.getD 0 []), parseVecCtx (ds.getD 1 []) with
    | some v, some c =>
      if v.fmt ≠ rngFmt o.fn then .illegal s
      else
        let (thr, fl) := bernoulliThr c.fill
        let seed := (s.die d).seq.seed
        let es := (List.range o.n).map fun j =>
          rngElem o.fn thr (philox seed (streamId 6 c.stream) (c.ebase + j) c.coord 0)
        let (s, p, rj) := s.writeAll (.engine d .rng q.issue) [(v.loc, (packElems v.fmt es).map some)]
        let st : Fl := (if o.fn = 1 then fl else 0) ||| (if p then flPoisoned else 0)
        .run s { Flight.new q with stat := st, reject := rj }
    | _, _ => .illegal s

/-! ## TRN (Table 6-4) -/

/-- An element on its way through TRN: its code, the face or grid it belongs to (none where any will do), its poison bit in
TL64, and the flags of its TL64 block. -/
structure TElem where
  code  : Nat
  scale : Option Nat
  pois  : Bool := false
  flags : Byte := 0
deriving DecidableEq, Repr

/-- Row and column of a row-major index, and where the element lies in panels (spec 03 R49): byte and face offsets. -/
def panelPlace (f row k : Nat) : Nat × Nat :=
  (k / 32 * panelSize f + fmtBytes f (32 * row) + k % 32 * fmtBits f / 8, 512 * (k / 32) + row)

/-- One source element as TRN takes it: poisoned bytes give the canonical NaN in the element's format (R111, R123). Answers
its flags too. -/
def trnElem (f : Nat) (code : Option Nat) (face : PByte) : TElem × Fl :=
  match code, face with
  | some c, some fc => (⟨c, if isPip f then some fc.toNat else none, false, 0⟩, 0)
  | _, fc =>
    if isPip f then (⟨if f = 2 then 0x80 else 0x8, fc.map (·.toNat), false, 0⟩, flPoisoned)
    else
      let (c, fl) := encPlain f .rne false 0 canonNan
      (⟨c, none, false, 0⟩, fl ||| flPoisoned)

/-- Read the elements of a row-major vector. -/
def State.trnRead (s : State) (d : Fin 4) (coll : List Nat) (v : VecDesc) (n : Nat) :
    State × List (TElem × Fl) × Option (Half × Half) :=
  if v.fmt = 8 then
    let (s, rs, lost) := s.readTl d coll v.loc n
    (s, (List.range n).map fun j =>
      let r := rs.getD (j / 256) (tlRaw 0 [])
      let i := j % 256
      let fed := r.fed.getLsbD i
      let p := fed || r.blk.poison.getLsbD i
      let x := if p then 0 else r.blk.elems.getD i 0
      (⟨(x % 2 ^ 64).toNat, if fed then none else some (r.blk.g % 65536).toNat, p,
        r.blk.flags ||| (if fed then tlNan else 0) ||| (if r.low.getLsbD i then tlSat else 0)⟩,
        if fed then flPoisoned else 0), lost)
  else
    let (s, r) := s.readCached d coll v.loc.sp v.loc.a (fmtBytes v.fmt n)
    let (s, q) := if isPip v.fmt then s.readCached d coll v.face.sp v.face.a ((n + 31) / 32) else (s, ⟨[], none⟩)
    (s, (List.range n).map fun j =>
      trnElem v.fmt (elemAt v.fmt r.bytes j) (if isPip v.fmt then q.bytes.getD (j / 32) none else some 0), r.fail.or q.fail)

/-- Read the elements of a matrix in panels: row r, index k for r·len + k. -/
def State.trnReadPanels (s : State) (d : Fin 4) (coll : List Nat) (v : VecDesc) (n len : Nat) :
    State × List (TElem × Fl) × Option (Half × Half) :=
  (List.range n).foldl (fun (x : State × List (TElem × Fl) × Option (Half × Half)) j =>
    let (s, es, lost) := x
    let (a, fa) := panelPlace v.fmt (j / len) (j % len)
    let (s, r) := s.readCached d coll v.loc.sp (v.loc.a + a) (fmtBytes v.fmt 1)
    let (s, q) := if isPip v.fmt then s.readCached d coll v.face.sp (v.face.a + fa) 1 else (s, ⟨[some 0], none⟩)
    let bs := if fmtBits v.fmt = 4 ∧ j % len % 2 = 1 then
        r.bytes.map fun b => b.map fun y => BitVec.ofNat 8 (y.toNat / 16) else r.bytes
    (s, es ++ [trnElem v.fmt (elemAt v.fmt bs 0) (q.bytes.getD 0 none)], lost.or (r.fail.or q.fail))) (s, [], none)

/-- The scale that all elements of a destination block share, if they do; `dflt` where none has one. -/
def commonScale (dflt : Nat) (es : List TElem) : Option Nat :=
  match (es.filterMap (·.scale)).eraseDups with
  | [] => some dflt
  | [x] => some x
  | _ => none

/-- The bytes and the face of a destination pip block; free where its elements do not share one face (log entry 19). -/
def State.trnPipBlock (s : State) (f : Nat) (es : List TElem) : List Byte × Byte × State :=
  match commonScale 0x7F es with
  | some fc => (packElems f (es.map (·.code)), BitVec.ofNat 8 fc, s)
  | none =>
    let (bs, s) := s.freshBytes (fmtBytes f es.length + 1)
    (bs.drop 1, bs.headD 0, s)

/-- A destination TL64 block; free where its elements do not share one grid (log entry 19). -/
def State.trnTlBlock (s : State) (es : List TElem) : List Byte × State :=
  match commonScale 0 es with
  | some g =>
    (tlToBytes ⟨sInt 16 g, es.foldl (fun a e => a ||| e.flags) 0, maskOf 256 ((List.range es.length).filter fun i =>
      (es.getD i ⟨0, none, false, 0⟩).pois),
      es.map (fun e => sInt 64 e.code) ++ List.replicate (256 - es.length) 0⟩, s)
  | none => s.freshBytes 2112

/-- The writes of elements as a row-major vector. -/
def State.trnWrites (s : State) (v : VecDesc) (es : List TElem) : State × List (Loc × List PByte) :=
  if v.fmt = 8 then
    let (s, bs) := (chunks 256 (es.length + 1) es).foldl (fun (x : State × List Byte) ch =>
      let (b, s) := x.1.trnTlBlock ch
      (s, x.2 ++ b)) (s, [])
    (s, [(v.loc, bs.map some)])
  else if isPip v.fmt then
    let (s, bs, fs) := (chunks 32 (es.length + 1) es).foldl (fun (x : State × List Byte × List Byte) ch =>
      let (b, fc, s) := x.1.trnPipBlock v.fmt ch
      (s, x.2.1 ++ b, x.2.2 ++ [fc])) (s, [], [])
    (s, [(v.loc, bs.map some), (v.face, fs.map some)])
  else
    let bs := sparseBytes v.fmt (fun i => s.peek ⟨v.loc.sp, v.loc.a + i⟩) (es.map fun e => some e.code)
    (s, (runsOf 0 [] bs).map fun p => (⟨v.loc.sp, v.loc.a + p.1⟩, p.2.map some))

/-- The writes of a matrix into panels, line by line. -/
def State.trnPanelWrites (s : State) (v : VecDesc) (len : Nat) (es : List TElem) : State × List (Loc × List PByte) :=
  let rows := chunks len (es.length + 1) es
  (List.range rows.length).foldl (fun (x : State × List (Loc × List PByte)) r =>
    let bl := chunks 32 (len + 1) (rows.getD r [])
    (List.range bl.length).foldl (fun (x : State × List (Loc × List PByte)) p =>
      let (s, ws) := x
      let ch := bl.getD p []
      let (a, fa) := panelPlace v.fmt r (32 * p)
      let at_ : Loc := ⟨v.loc.sp, v.loc.a + a⟩
      if isPip v.fmt then
        let (b, fc, s) := s.trnPipBlock v.fmt ch
        (s, ws ++ [(at_, b.map some), (⟨v.face.sp, v.face.a + fa⟩, [some fc])])
      else
        let bs := sparseBytes v.fmt (fun i => s.peek ⟨at_.sp, at_.a + i⟩) (ch.map fun e => some e.code)
        (s, ws ++ (runsOf 0 [] bs).map fun q => (⟨at_.sp, at_.a + q.1⟩, q.2.map some))) x) (s, [])

/-- The ranges of a matrix in panels. -/
def panelRanges (v : VecDesc) (n len : Nat) : List OpRange :=
  let np := (len + 31) / 32
  let rows := (n + len - 1) / len
  (v.loc, (np - 1) * panelSize v.fmt + fmtBytes v.fmt (32 * rows), fmtBits v.fmt) ::
    (if isPip v.fmt then [(v.face, 512 * (np - 1) + rows, 0)] else [])

/-- TRANSPOSE, PANEL, UNPANEL, and every reserved function. -/
def trnBody (d : Fin 4) (q : QInstr) (coll : List Nat) (s : State) : Start :=
  let o := vecOp q
  if vecWordBad o || o.md != 0 || o.mask || o.ds2 != 0 || o.ds3 != 0 || 2 < o.fn then .illegal s
  else match s.readDescs d coll [o.dd, o.dx, o.ds1] with
  | (s, none) => .illegal s
  | (s, some none) => .poisoned s
  | (s, some (some ds)) =>
    match parseVec d false (ds.getD 0 []), parseVecCtx (ds.getD 1 []), parseVec d false (ds.getD 2 []) with
    | some v, some c, some x =>
      let len := c.len
      let rows := (o.n + len - 1) / len
      let rd := if o.fn = 2 then panelRanges x o.n len else vecRanges x o.n
      let rw := if o.fn = 1 then panelRanges v o.n len else vecRanges v o.n
      let out := fun (l : List OpRange) => l.any fun r => s.rangeBad r.1.sp r.1.a r.2.1
      let mis := fun (y : VecDesc) => y.loc.a % vecAlign y.fmt != 0
      if v.tile || v.bcast || x.tile || x.bcast || v.fmt != x.fmt || 9 ≤ v.fmt || (o.fn == 0 && o.n % len != 0)
          || (o.fn != 0 && (v.fmt == 8 || 512 < rows)) || mis v || mis x || out rd || out rw || overlapBad false rw rd then
        .illegal s
      else
        let rg := devRanges rd
        if s.rangesWait rg then .wait rg
        else
          let (s, es, lost) := if o.fn = 2 then s.trnReadPanels d coll x o.n len else s.trnRead d coll x o.n
          let fl := es.foldl (fun a e => a ||| e.2) (0 : Fl)
          let es := es.map (·.1)
          let nil : TElem := ⟨0, none, false, 0⟩
          let es := if o.fn = 0 then
              (List.range o.n).map fun j => es.getD (j % rows * len + j / rows) nil
            else es
          let (s, ws) := if o.fn = 1 then s.trnPanelWrites v len es else s.trnWrites v es
          let (s, p, rj) := s.writeAll (.engine d .trn q.issue) ws
          .run s { Flight.new q with
            stat := fl ||| (if p then flPoisoned else 0), reject := rj
            lost := if fl &&& flPoisoned = 0 then none else lost }
    | _, _, _ => .illegal s

end Sys2Proof.Machine
end

