-- ==== Sys2Proof/Machine/Seq.lean ====
section
/-!
DEFINITION. The sequencer: fetch, dispatch, control instructions and waits (spec 06 R114 to R120, R130), and adds through
port B (R119).
-/
namespace Sys2Proof.Machine

/-- A fault that the SEQ raises itself (Table 6-6). -/
def State.seqFault (s : State) (d : Fin 4) (cause : Nat) (q : QInstr) (st part : Half) : State :=
  s.raise d ⟨cause, q.opc, q.fn, unitSeq, q.pc, st, part⟩

/-- Whether an instruction word lies in the image of the running program (R124, FETCH in Table 6-6). -/
def inImage (p : DieProgram) (pc : BitVec 24) : Bool :=
  p.base ≤ 16 * pc.toNat && 16 * pc.toNat + 16 ≤ p.base + 256 + 16 * p.len && 16 * pc.toNat + 16 ≤ spadSize

/-- Whether every queue is empty and every started instruction has completed (R120, BARRIER and END). -/
def Die.quiet (x : Die) : Bool :=
  x.seq.mxaQ.isEmpty && x.seq.vxeQ.isEmpty && x.seq.movQ.isEmpty && x.seq.trnQ.isEmpty && x.seq.rngQ.isEmpty &&
  x.mxaFly.isEmpty && x.vxeFly.isEmpty && x.movFly.isEmpty && x.trnFly.isEmpty && x.rngFly.isEmpty

/-- The engine class of an opcode and its queue depth (Table 6-1): none for MXA. -/
inductive OpClass where
  | control
  | matrix
  | engine (e : Engine) (depth : Nat)
  | reserved
deriving DecidableEq, Repr

def opClass (opc : Nat) : OpClass :=
  if opc ≤ 7 then .control
  else if opc = 0x20 then .matrix
  else if 0x40 ≤ opc ∧ opc ≤ 0x45 then .engine .vxe 16
  else if opc = 0x60 then .engine .mov 32
  else if opc = 0x70 then .engine .trn 8
  else if opc = 0x80 then .engine .rng 8
  else .reserved

/-- Depth of the MXA queue (Table 6-1). -/
def mxaDepth : Nat := 4

/-- Whether a control instruction has a non-zero reserved bit (Table 6-3). -/
def ctlBad (n : Nat) : Bool :=
  match nbits n 127 120 with
  | 0x02 => nbits n 103 24 != 0
  | 0x03 => nbits n 103 100 != 0 || nbits n 95 24 != 0
  | 0x04 => nbits n 103 100 != 0 || nbits n 95 64 != 0 || nbits n 31 0 != 0
  | 0x06 => nbits n 103 39 != 0
  | 0x07 => true
  | _ => nbits n 103 0 != 0

/-- The loop counter that bits [99:96] name. -/
def loopIdx (n : Nat) : Fin 16 := ⟨nbits n 99 96 % 16, Nat.mod_lt _ (by decide)⟩

/-- What a control instruction does to the sequencer (Table 6-3); SEMSET is done by `control` itself. -/
def ctlSeq (n : Nat) (q : Seq) : Seq :=
  let next : Seq := { q with pc := q.pc + 1 }
  match nbits n 127 120 with
  | 0x01 => { next with stopped := true }
  | 0x02 => { q with pc := BitVec.ofNat 24 n }
  | 0x03 =>
    let c := vget q.loops (loopIdx n)
    if c = 0 then next else { q with pc := BitVec.ofNat 24 n, loops := vset q.loops (loopIdx n) (c - 1) }
  | 0x04 => { next with loops := vset q.loops (loopIdx n) (BitVec.ofNat 32 (nbits n 63 32)) }
  | _ => next

/-- The die's program ends by END (R120): noted in the command. -/
def State.noteEnd (s : State) (d : Fin 4) : State :=
  match (s.die d).seq.prog with
  | some p => s.modRun p.handle fun r => { r with dies := vmod r.dies d fun y => { y with byEnd := true } }
  | none => s

/-- Execute a control instruction, or hold dispatch on its wait (R114, R116, R119, R120). -/
def State.control (s : State) (d : Fin 4) (q : QInstr) : State :=
  if ctlBad q.n then s.seqFault d 1 q stBadDescriptor (partUnit d unitSeq)
  else if q.opc = 5 ∧ !(s.die d).quiet then s
  else if !(s.die d).waitMet q then
    s.modSeq d fun x => { x with wait := match x.wait with
      | some w => if !w.mxa && w.sem == q.wsem.1 then some w else some ⟨q.wsem.1, s.aon, false⟩
      | none => if x.mxaQ.isEmpty then some ⟨q.wsem.1, s.aon, false⟩ else none }
  else
    let s := s.modDie d fun x =>
      let x := x.takeWait q
      { x with seq := { ctlSeq q.n x.seq with wait := none } }
    let s := s.postOwn d unitSeq q
    let s := if q.opc = 6 then s.modDie d fun x => x.semSet (semIdx (nbits q.n 38 32)) (nbits q.n 31 0) else s
    if q.opc = 1 then s.noteEnd d else s

/-- Queue an instruction for an engine if its queue has room (R114). -/
def State.enqueue (s : State) (d : Fin 4) (q : QInstr) (e : Option (Engine × Nat)) : State :=
  let room := match e with
    | none => decide ((s.die d).seq.mxaQ.length < mxaDepth)
    | some (e, k) => decide (((s.die d).seq.queue e).length < k)
  if !room then s
  else s.modSeq d fun x =>
    let x := { x with pc := x.pc + 1, issued := x.issued + 1 }
    match e with
    | none => { x with mxaQ := x.mxaQ ++ [q] }
    | some (e, _) => x.setQueue e (x.queue e ++ [q])

/-- Fetch at PC and dispatch (R114, R115). -/
def doDispatch (d : Fin 4) (u : List Upset) (s0 : State) : State :=
  let x := s0.die d
  match x.seq.prog with
  | none => s0
  | some p =>
    if !s0.dieServes d || x.hubClkLost || x.seq.stopped then s0
    else
      let at0 : QInstr := ⟨0, x.seq.pc, x.seq.issued⟩
      if !inImage p x.seq.pc then s0.seqFault d 2 at0 stBadDescriptor (partUnit d unitSeq)
      else
        let (s, r) := (s0.upset u).readSpad d (collided d u) (16 * x.seq.pc.toNat) 16
        if r.bad then s.seqFault d 2 at0 stPoisoned (partUnit d unitSeq)
        else
          let q : QInstr := { at0 with bits := BitVec.ofNat 128 (leNat r.data) }
          match opClass q.opc with
          | .control => s.control d q
          | .matrix => s.enqueue d q none
          | .engine e k => s.enqueue d q (some (e, k))
          | .reserved => s.seqFault d 1 q stBadDescriptor (partUnit d unitSeq)

/-- A wait has lasted WAIT_LIMIT (R130). The instruction recorded is the one that waits. -/
def doWaitTimeout (d : Fin 4) (s : State) : State :=
  let x := s.die d
  match x.seq.prog, x.seq.wait with
  | some p, some w =>
    if p.waitLimit = 0 ∨ x.seq.stopped ∨ s.aon < w.since + p.waitLimit then s
    else
      let bits := BitVec.ofNat 128 (leNat ((List.range 16).map fun i => x.byte (16 * x.seq.pc.toNat + i)))
      let q : QInstr := if w.mxa then x.seq.mxaQ.headD ⟨0, x.seq.pc, 0⟩ else ⟨bits, x.seq.pc, 0⟩
      s.raise d ⟨7, q.opc, q.fn, if w.mxa then unitMxa else unitSeq, q.pc, stCancelled, partDie d⟩
  | _, _ => s

/-- An add through port B (R119): no effect where the die does not serve (R177, R364). -/
def doSemAddPortB (d : Fin 4) (i : Fin 128) (v : Word) (s : State) : State := (s.post d i v.toNat).1

/-- Start VEW. -/
def startVew (d : Fin 4) (u : List Upset) (s : State) : State := startEngine .vxe d u (fun q => q.opc == 0x40) (vewBody d) s
/-- Start VCVT. -/
def startVcvt (d : Fin 4) (u : List Upset) (s : State) : State := startEngine .vxe d u (fun q => q.opc == 0x41) (vcvtBody d) s
/-- Start VTADD. -/
def startVtadd (d : Fin 4) (u : List Upset) (s : State) : State := startEngine .vxe d u (fun q => q.opc == 0x42) (vtaddBody d) s
/-- Start VRED. -/
def startVred (d : Fin 4) (u : List Upset) (s : State) : State := startEngine .vxe d u (fun q => q.opc == 0x43) (vredBody d) s
/-- Start PERM, or a VPERM with a reserved function, which is illegal (R113; log entry 2). -/
def startPerm (d : Fin 4) (u : List Upset) (s : State) : State :=
  startEngine .vxe d u (fun q => q.opc == 0x44 && q.fn != 1) (vpermBody d) s
/-- Start GATHER. -/
def startGather (d : Fin 4) (u : List Upset) (s : State) : State :=
  startEngine .vxe d u (fun q => q.opc == 0x44 && q.fn == 1) (vpermBody d) s
/-- Start SGD_MOM, or a VOPT with a reserved function. -/
def startSgd (d : Fin 4) (u : List Upset) (s : State) : State :=
  startEngine .vxe d u (fun q => q.opc == 0x45 && q.fn != 1) (voptBody d) s
/-- Start ADAMW. -/
def startAdamw (d : Fin 4) (u : List Upset) (s : State) : State :=
  startEngine .vxe d u (fun q => q.opc == 0x45 && q.fn == 1) (voptBody d) s
/-- Start COPY, or a MOV with a reserved function. -/
def startCopy (d : Fin 4) (u : List Upset) (s : State) : State :=
  startEngine .mov d u (fun q => q.fn != 1 && q.fn != 2) (copyBody d) s
/-- Start FILL. -/
def startFill (d : Fin 4) (u : List Upset) (s : State) : State := startEngine .mov d u (fun q => q.fn == 1) (fillBody d) s
/-- Start HUBOP. -/
def startHubop (d : Fin 4) (u : List Upset) (s : State) : State := startEngine .mov d u (fun q => q.fn == 2) (hubopBody d) s
/-- Start TRANSPOSE, or a TRN with a reserved function. -/
def startTranspose (d : Fin 4) (u : List Upset) (s : State) : State :=
  startEngine .trn d u (fun q => q.fn != 1 && q.fn != 2) (trnBody d) s
/-- Start PANEL. -/
def startPanel (d : Fin 4) (u : List Upset) (s : State) : State := startEngine .trn d u (fun q => q.fn == 1) (trnBody d) s
/-- Start UNPANEL. -/
def startUnpanel (d : Fin 4) (u : List Upset) (s : State) : State := startEngine .trn d u (fun q => q.fn == 2) (trnBody d) s
/-- Start UNIFORM, or an RNG with a reserved function. -/
def startUniform (d : Fin 4) (u : List Upset) (s : State) : State :=
  startEngine .rng d u (fun q => q.fn != 1 && q.fn != 2) (rngBody d) s
/-- Start BERNOULLI. -/
def startBernoulli (d : Fin 4) (u : List Upset) (s : State) : State := startEngine .rng d u (fun q => q.fn == 1) (rngBody d) s
/-- Start NORMAL. -/
def startNormal (d : Fin 4) (u : List Upset) (s : State) : State := startEngine .rng d u (fun q => q.fn == 2) (rngBody d) s

end Sys2Proof.Machine
end

