-- ==== Sys2Proof/Machine/Coherence.lean ====
section
/-!
DEFINITION. Accesses to memory from outside the dies and the events of the memories: write-back of corrected words, host
CXL.mem accesses (spec 15 R279, R280, spec 07 R137), home filters and remote caches (spec 09 R172 to R174), patrol scrub, and
loss of a stack (spec 08 R154 to R160).
-/
namespace Sys2Proof.Machine

/-! ## Write-back and scrub -/

/-- Write a corrected scratchpad or hub SRAM word back (spec 07 R134), if a read has found it. -/
def doSpadCeWriteback (site : Site) (w : Nat) (s : State) : State :=
  match site with
  | .spad d => s.modDie d fun x =>
      if x.spad.mark w = some (.ce true) then { x with spad := x.spad.setMark w none } else x
  | .hub => s.modHub fun h => if h.sram.mark w = some (.ce true) then { h with sram := h.sram.setMark w none } else h
  | .stack _ => s

/-- The four codewords of a group. -/
def groupCws (g : Nat) : List Nat := [4 * g, 4 * g + 1, 4 * g + 2, 4 * g + 3]

/-- Write a corrected group back (spec 08 R154). -/
def doStkCeWriteback (k : Fin 8) (g : Nat) (s : State) : State :=
  s.modStk k fun x => (groupCws g).foldl (fun y cw => y.writeBack cw) x

/-- The device address that a stack's group holds. -/
def State.groupDev (s : State) (k : Fin 8) (g : Nat) : Nat := devOf s.regionMode k.1 (256 * g)

/-- Read, decode and write back one group (spec 08 R156). -/
def Stack.scrubGroup (x : Stack) (win dev g : Nat) : Stack :=
  (groupCws g).foldl (fun y cw => (y.readCw win (dev + 64 * (cw % 4)) cw).1.writeBack cw) x

/-- Groups of a stack. -/
def stackGroups : Nat := 2 ^ 28

/-- The patrol scrub's next group: stopped by PERIOD_H = 0 and by the loss of the stack, paused in DIE_OFF (spec 08 R156). -/
def doPatrolScrub (k : Fin 8) (u : List Upset) (s0 : State) : State :=
  let x := s0.stk k
  let d := dieIdx (k.1 / 2)
  if fget scrubPeriodH x.scrub = 0 ∨ fon stkLost x.status ∨ !s0.dieServes d then s0
  else
    let s := s0.upset u
    let g := x.scrubPos
    let dev := s.groupDev k g
    s.useStk k fun y =>
      let y := y.scrubGroup s0.eraseWindow dev g
      let last := decide (stackGroups ≤ g + 1)
      { y with scrubPos := if last then 0 else g + 1
               scrub := if last then fsat scrubPasses 1 y.scrub else y.scrub }

/-- The erase window of R155 ends and its counts restart. -/
def doEraseWindowEnd (k : Fin 8) (s : State) : State :=
  s.modStk k fun x => if x.eraseWin < s.eraseWindow then { x with eraseWin := s.eraseWindow, erase := [] } else x

/-! ## Loss of a stack (spec 08 R160, Table 8-8) -/

/-- Perform the writes of a line that nothing holds any longer. -/
def State.release (s : State) (l : Nat) : State :=
  releaseWrites s.fab.pendingWrites.length (fun s w x => match w with
    | .host => s.modHost fun h => { h with memErr := fsat memErrWritesDropped 1 h.memErr }
    | w => s.refuse w x) l s

/-- Refuse the outstanding writes that a lost part can no longer take. -/
def State.refusePending (s : State) : State :=
  let gone := fun (w : PendingWrite) => (s.devStatus (128 * w.line)).isSome
  let out := s.fab.pendingWrites.filter gone
  let s := s.modFab fun f => { f with pendingWrites := f.pendingWrites.filter fun w => !gone w }
  forEach out (fun s w => match s.devStatus (128 * w.line) with
    | some x => match w.writer with
      | .host => s.modHost fun h => { h with memErr := fsat memErrWritesDropped 1 h.memErr }
      | y => s.refuse y x
    | none => s) s

/-- A stack is lost in service: reported, and its outstanding writes are refused. -/
def State.loseStack (s : State) (k : Fin 8) (cause : Nat) : State :=
  if fon stkLost (s.stk k).status then s
  else (s.useStk k fun x => x.lose cause).refusePending

/-- No response within 2^16 MCLK cycles. -/
def doStackNoResponse (k : Fin 8) (s : State) : State := s.loseStack k 3

/-- A pseudo-channel failed retraining in service. -/
def doPcRetrainFail (k : Fin 8) (s : State) : State := s.loseStack k 2

/-! ## The home filter and the remote caches (spec 09 R172 to R174) -/

/-- Lines of a remote cache: 24 MiB of 128 B. -/
def cacheLines : Nat := 196608

/-- A fill arrives: it is installed unless an invalidation of its line is pending at the die; a full cache evicts a line of
its choice (log entry 10). -/
def doFillArrival (d : Fin 4) (l : Nat) (s : State) : State :=
  let x := s.die d
  match x.fills.find? fun c => c.line == l with
  | none => s
  | some c =>
    let s := s.modDie d fun y => { y with fills := dropFirst (fun c => c.line == l) y.fills }
    if x.invals.contains l then s
    else
      let full := decide (cacheLines ≤ x.cache.length)
      let (v, s) := if full then s.fresh x.cache.length else (0, s)
      s.modDie d fun y => { y with cache := (if full then y.cache.eraseIdx v else y.cache) ++ [c] }

/-- An invalidation reaches a die. The fills that the filter sent earlier have arrived by then (R15, R174). -/
def doRemoteInvalidate (d : Fin 4) (l : Nat) (s : State) : State :=
  let x := s.die d
  if !x.invals.contains l || x.fills.any fun c => c.line == l then s
  else
    let up := fun (e : FilterEntry) => { e with presence := e.presence &&& ~~~(BitVec.twoPow 4 d.1) }
    (s.modDie d fun y => { y with
      invals := y.invals.filter fun m => m != l
      cache := y.cache.filter fun c => c.line != l }).modFab fun f =>
      { f with filters := updateWhere (fun e => e.line == l) up f.filters }

/-- All invalidations of a line are acknowledged: the home filter performs the writes that waited for them (R173). -/
def doInvalAck (l : Nat) (s : State) : State :=
  if (allFin 4).any fun d => (s.die d).invals.contains l then s
  else
    let up := fun (w : PendingWrite) => { w with needInv := false }
    (s.modFab fun f => { f with
      filters := f.filters.filter fun e => e.line != l || e.presence != 0
      pendingWrites := updateWhere (fun w => w.line == l) up f.pendingWrites }).release l

/-! ## The host's CXL.mem accesses (spec 15 R279, R280, spec 07 R137) -/

/-- Where an HDM offset leads (Table 15-4). -/
inductive Hdm where
  | dev
  | twin (d : Fin 4) (sel off : Nat)
  | nothing
  | outside
deriving DecidableEq, Repr

def hdmOf (a : Nat) : Hdm :=
  if a < devSize then .dev
  else if a < devSize + 0x2000000 then
    let x := a - devSize
    let sel := x % 2 ^ 23 / 2 ^ 21
    if sel = 3 then .nothing else .twin (dieIdx (x / 2 ^ 23)) sel (twinBase + x % 2 ^ 21)
  else if a < devSize + 0x10000000 then .nothing
  else .outside

/-- Return data to the host; poison is counted. -/
def State.hostReturn (s : State) (a : Nat) (bs : List Byte) (bad : Bool) : State :=
  let s := s.emit (.hostData a bs bad)
  if bad then s.modHost fun h => { h with memErr := fsat memErrReadsPoisoned 1 h.memErr } else s

/-- The host's write completes; a dropped one is counted. -/
def State.hostWrote (s : State) (a : Nat) (ok : Bool) : State :=
  let s := s.emit (.hostWriteDone a ok)
  if ok then s else s.modHost fun h => { h with memErr := fsat memErrWritesDropped 1 h.memErr }

/-- Entries of the host filter (R280). -/
def hostFilterSize : Nat := 1048576

/-- Record the lines that the host may now hold. -/
def State.grantHost (s : State) (a n : Nat) (own : Bool) : State :=
  let ls := if n = 0 then [] else (List.range ((a + n - 1) / 64 - a / 64 + 1)).map (· + a / 64)
  s.modFab fun f => { f with hostFilter := ls.foldl (fun l x =>
    (l.filter fun h => h.line != x) ++ [⟨x, own || l.any fun h => h.line == x && h.dirty⟩]) f.hostFilter }

/-- A read of the twin window: `busy` of at most four attempts meet a same-word write (R137). -/
def State.hostTwinRead (s : State) (a : Nat) (d : Fin 4) (sel off n busy : Nat) : State :=
  if sel ≠ 0 then s.hostReturn a (List.replicate n 0) false
  else match s.twinStatus d with
    | some _ => s.hostReturn a (List.replicate n 0) true
    | none =>
      let b := min busy 4
      let s := s.modRegs d fun g => { g with collide := fsat collideBusy b g.collide }
      if b = 4 then
        let (bs, s) := s.freshBytes n
        (s.modRegs d fun g => { g with collide := fsat collidePoisoned 1 g.collide }).hostReturn a bs true
      else
        let (s, r) := s.readSpad d [] off n
        s.hostReturn a r.data r.bad

/-- A host read (R279). It waits, with no effect yet, while its lines wait at their home, and while the full host filter's
oldest entry is back-invalidated (R280). -/
def doHostMemRead (a n busy : Nat) (own : Bool) (u : List Upset) (s : State) : State :=
  if !s.host.linkUp then s
  else match hdmOf a with
  | .outside => s
  | .nothing => s.hostReturn a (List.replicate n 0) false
  | .twin d sel off => (s.upset u).hostTwinRead a d sel off n busy
  | .dev =>
    if s.fab.pendingWrites.any fun w => lineOf a ≤ w.line && w.line ≤ lineOf (a + n - 1) then s
    else if hostFilterSize ≤ s.fab.hostFilter.length then
      match s.fab.hostFilter.head? with
      | some h => s.emit (.backInvalidate h.line false)
      | none => s
    else
      let (s, r) := (s.upset u).readDev a n
      let bad := r.bad || r.fail.isSome
      (if bad then s else s.grantHost a n own).hostReturn a r.data bad

/-- A host write (R279). `busy` is a same-word collision in the twin region, which a plain write survives (R137). -/
def doHostMemWrite (a : Nat) (bs : List Byte) (busy : Bool) (u : List Upset) (s : State) : State :=
  if !s.host.linkUp then s
  else match hdmOf a with
  | .outside => s
  | .nothing => s.hostWrote a false
  | .twin d sel off =>
    let sem := decide (off < twinBase + 2048)
    let adds := decide (twinBase + 1024 ≤ off) && sem
    if (s.twinStatus d).isSome || (sel != 0 && sem) then s.hostWrote a false
    else
      let s := s.upset u
      let (x, _, o) := (s.die d).write sel off (bs.map some)
      let s := s.modDie d fun _ => x
      let s := if o then s.raise d (overflowPortB d x.seq.pc) else s
      let s := if busy && sel == 0 && !adds then s.modRegs d fun g => { g with collide := fsat collideBusy 1 g.collide } else s
      s.hostWrote a true
  | .dev =>
    let (s, r) := (s.upset u).writeDev .host a (bs.map some)
    s.hostWrote a r.isNone

/-- BIRsp (R280): the line leaves the host filter; modified data is written first, through the home filter; then the accesses
that waited proceed. -/
def doBackInvalidateResponse (h : Nat) (dirty : HostData) (s : State) : State :=
  if !s.fab.hostFilter.any fun x => x.line == h then s
  else
    let l := h / 2
    let s := s.modFab fun f => { f with hostFilter := f.hostFilter.filter fun x => x.line != h }
    let s := match dirty with
      | none => s
      | some bs =>
        if (s.devStatus (64 * h)).isSome then s.modHost fun x => { x with memErr := fsat memErrWritesDropped 1 x.memErr }
        else
          let inv := s.presence l
          let s := s.sendInvals inv l
          let cells := (List.range 64).map fun i => (64 * h + i, bs.getD i 0)
          let pw : PendingWrite := ⟨l, cells, false, .host, inv != 0, false⟩
          s.modFab fun f => { f with pendingWrites := pw :: f.pendingWrites }
    let clear := (s.hostLines l).isEmpty
    let up := fun (w : PendingWrite) => { w with needBi := w.needBi && !clear }
    (s.modFab fun f => { f with pendingWrites := updateWhere (fun w => w.line == l) up f.pendingWrites }).release l

/-- A host snoop: the device holds no host line (R277). -/
def doSnoop (l : Nat) (s : State) : State := if s.host.linkUp then s.emit (.snoopResponse l) else s

end Sys2Proof.Machine
end

