-- ==== Sys2Proof/Machine/Marb.lean ====
section
/-!
DEFINITION. The maintenance arbiter (spec 19 R331 to R336): what each activity holds and reserves, when a request is admitted,
queued or refused, and the release of an activity that ends. A resource is a part code with a sub-index (the bank group, or 99
for a thermal zone); a budget is a path's part code with a time in units of 1/24 ns, so that ACLK and FCLK cycles are whole.
-/
namespace Sys2Proof.Machine

/-! ## Resource sets and stall budgets (Table 19-1) -/

/-- 1/24 ns units of a microsecond, of a 1.2 GHz ACLK cycle and of an FCLK cycle (1.6 GHz). -/
def unitsPerUs : Nat := 24000
def unitsPerAclk : Nat := 20
def unitsPerFclk : Nat := 15

/-- The part code of hub SRAM. -/
def codeHub : Nat := 0x000C
/-- The part code of SEC, which stands for the fuse array. -/
def codeSec : Nat := 0x0009
/-- The part code of the MARB. -/
def codeMarb : Nat := 0x000B
/-- The part code of a unit of a die. -/
def codeUnit (d unit : Nat) : Nat := 0x2000 + 16 * d + unit

/-- The part code of a bundle as a number. -/
def codeBundle (b : Fin 80) : Nat := (partBundle b).toNat

/-- The operations per word of a march list (spec 07 Table 7-5). -/
def marchOps (l : List Word) : Nat := (l.map fun w => nbits w.toNat 29 27).sum

/-- The bank groups of a march as resources: a die's scratchpad, or hub SRAM. -/
def groupResources (target : Nat) (g : BitVec 32) : List (Nat × Nat) :=
  let code := if target < 4 then codeUnit target 8 else codeHub
  (maskBits g).map fun i => (code, i)

/-- The bundles that a per-die reset holds: the die's HB bundles and its pair's NB bundles. -/
def resetBundles (d : Fin 4) : List (Fin 80) := (allFin 80).filter fun b => bundleOfDie b d

/-- The resource set of an activity. -/
def actResources : ActKind → List (Nat × Nat)
  | .march t _ _ _ g _ => groupResources t g
  | .scrub m => (maskBits m).map fun k => (0x3000 + k, 0)
  | .castle b _ => [(codeBundle b, 0)]
  | .retrain b => [(codeBundle b, 0)]
  | .reeq p => [(0x7000 + p.1, 0)]
  | .thermal c => [(c.toNat, 99)]
  | .fuse _ _ => [(codeSec, 0)]
  | .dieReset d =>
    groupResources d.1 0x1FFFF#32 ++ [(codeUnit d.1 6, 0), (codeUnit d.1 7, 0), (0x3000 + 2 * d.1, 0), (0x3001 + 2 * d.1, 0)] ++
    (resetBundles d).map (fun b => (codeBundle b, 0)) ++ [(0x1000 + d.1, 99)]

/-- The path of a bundle's link (R332). -/
def linkPath (b : Fin 80) : Nat := if b.1 < 64 then 0x1000 + b.1 / 16 else 0x5000 + 8 * ((b.1 - 64) / 8)

/-- The stall budgets of an activity, as they stand. -/
def State.actBudgets (s : State) : ActKind → List (Nat × Nat)
  | .march t true _ l g _ =>
    if t < 4 then
      let n := ((marchOps l + 3) * 64 + 16) * unitsPerAclk
      (0x1000 + t, n) :: (if g.getLsbD 16 then [(codeUnit t 8, n)] else [])
    else [(codeHub, ((marchOps l + 3) * 32 + 16) * unitsPerFclk)]
  | .scrub m => (maskBits m).map fun k => (0x3000 + k, 200 * 24)
  | .castle b _ => [(linkPath b, 1900 * 24 * fget bunSparesFree (vget s.fab.bundles b).status)]
  | .retrain b => [(linkPath b, 24000 * 24)]
  | .reeq p => [(0x7000 + p.1, 46000 * 24)]
  | _ => []

/-- The limit of a path (Tables 19-2, 19-3). -/
def pathLimit (wdog : Quad) (path : Nat) : Nat :=
  unitsPerUs * (match path / 4096 with
    | 0 => fget wdogHsram wdog
    | 1 => fget wdogHlink wdog
    | 2 => fget wdogTwin wdog
    | 3 => fget wdogStk wdog
    | 5 => fget wdogNlink wdog
    | _ => fget wdogTport wdog)

/-! ## Refusal (R336) -/

/-- Whether a die is in DIE_OFF, fenced or excluded. -/
def State.dieGone (s : State) (d : Fin 4) : Bool := s.dieFenced d || s.dieSt d == dsOff || s.dieSt d == dsExcluded

/-- Whether a stack is lost, or its die gone. -/
def State.stackGone (s : State) (k : Fin 8) : Bool := fon stkLost (s.stk k).status || s.dieGone (dieIdx (k.1 / 2))

/-- PORT_STATUS.STATE of a port that is LOST. -/
def pstLost : Nat := 5

/-- Whether a part of the activity's resource set is in DIE_OFF, fenced, excluded or lost. A per-die reset is what rejoins
a fenced die (spec 09 R177), so the fence of its own die does not refuse it (log entry 21). -/
def State.actGone (s : State) : ActKind → Bool
  | .march t _ _ _ _ _ => match fin? 4 t with
    | some d => s.dieGone d
    | none => false
  | .scrub m => (allFin 8).any fun k => m.getLsbD k.1 && s.stackGone k
  | .castle b _ => (allFin 4).any fun d => bundleOfDie b d && s.dieGone d
  | .retrain b => (allFin 4).any fun d => bundleOfDie b d && s.dieGone d
  | .reeq p => s.portState p == pstLost
  | .thermal c =>
    if c.toNat / 4096 = 1 then s.dieGone (dieIdx c.toNat)
    else if c.toNat / 4096 = 3 then s.stackGone ⟨c.toNat % 8, Nat.mod_lt _ (by decide)⟩ else false
  | .fuse _ _ => false
  | .dieReset d => s.dieSt d == dsOff || s.dieSt d == dsExcluded ||
      (allFin 8).any fun k => k.1 / 2 == d.1 && fon stkLost (s.stk k).status

/-- Whether the activity may not meet a running program: a destructive march (spec 07 R144) and a per-die reset (spec 09
R178) of a die that runs one. -/
def State.actMeetsProgram (s : State) : ActKind → Bool
  | .march t false _ _ _ _ => match fin? 4 t with
    | some d => (s.die d).seq.prog.isSome
    | none => false
  | .dieReset d => (s.die d).seq.prog.isSome
  | _ => false

/-! ## Admission (R333, R334) -/

/-- The first resource of a set that a list of sets shares. -/
def sharedWith (rs : List (Nat × Nat)) (held : List (List (Nat × Nat))) : Option Half :=
  firstSome rs fun r => if held.any fun h => h.contains r then some (BitVec.ofNat 16 r.1) else none

/-- The resource sets of the running activities; SEC holds the fuse array while it blows fuses. -/
def State.heldSets (s : State) : List (List (Nat × Nat)) :=
  s.marb.running.map (·.resources) ++ (if s.sec.fuseHeld then [[(codeSec, 0)]] else [])

/-- What the running activities reserve on a path. -/
def State.reserved (s : State) (path : Nat) : Nat :=
  (s.marb.running.map fun a => (a.budgets.filterMap fun b => if b.1 = path then some b.2 else none).sum).sum

/-- The first path on which `have_` and a budget exceed the limit. -/
def State.overPath (s : State) (bs : List (Nat × Nat)) (have_ : Nat → Nat) : Option Half :=
  firstSome bs fun b => if pathLimit s.marb.wdog b.1 < have_ b.1 + b.2 then some (BitVec.ofNat 16 b.1) else none

/-- Why a request cannot be admitted now (R333, R334): a resource shared with a running activity or with an earlier queued
request, or a path over its limit. -/
def State.blocked (s : State) (rs bs : List (Nat × Nat)) (earlier : List Activity) : Option Half :=
  (sharedWith rs s.heldSets).or ((s.overPath bs s.reserved).or (sharedWith rs (earlier.map (·.resources))))

/-- MARB.STATUS's QUEUED and RUNNING follow the lists (Table 19-6). -/
def State.syncMarb (s : State) : State :=
  let run := s.marb.running.length + b2n s.sec.fuseHeld
  s.modMarb fun m => { m with status := fput marbRunning run (fput marbQueued m.queue.length m.status) }

/-- SEC takes or leaves the fuse array. -/
def State.holdFuses (s : State) (b : Bool) : State := (s.modSec fun x => { x with fuseHeld := b }).syncMarb

/-- The progress units of a maintenance command (spec 15 R290): elements of a march, groups of a scrub. -/
def actUnits : ActKind → Nat
  | .march _ _ _ l _ _ => l.length
  | .scrub m => (maskBits m).length * 2 ^ 28
  | _ => 0

/-- The progress record of a maintenance command: units done and in total. -/
def State.actProgress (s : State) (h : Quad) (st : Half) (done total : Nat) : State :=
  s.progress h st 0 (natLe 4 done ++ natLe 4 total)

/-- The start of a per-die reset (spec 09 R178 step 1). -/
def State.beginReset (s : State) (d : Fin 4) (h : Quad) (act : Nat) : State :=
  let w := vget s.fab.dieState d
  let r : DieResetRun := ⟨h, act, w.toNat % 65536, s.aon, nbit (fget dietestEnable s.marb.dietest) d.1, false⟩
  s.modFab fun f => { f with
    resets := vset f.resets d (some r)
    dieState := vset f.dieState d (fput dieCause 3 (fput dieState dsResetting w)) }

/-- Admit an activity: its reservation stands from now on (R333). -/
def State.takeOn (s : State) (a : Activity) : State :=
  let a := { a with budgets := s.actBudgets a.kind }
  let s := (s.modMarb fun m => { m with
    running := m.running ++ [a]
    status := fsat marbAdmitted 1 m.status }).syncMarb
  match a.handle with
  | none => s
  | some h =>
    let s := s.modCmd h fun c => { c with st := .running, done := 0, total := actUnits a.kind }
    match a.kind with
    | .dieReset d => s.beginReset d h a.id
    | _ => s

/-- A request completes with CONFLICT. -/
def State.conflict (s : State) (h : Option Quad) (detail : Half) : State :=
  let s := s.modMarb fun m => { m with status := fsat marbConflicts 1 m.status }
  match h with
  | some h => s.final h stConflict detail
  | none => s

/-- A request is refused with NOT_PERMITTED. -/
def State.refuseAct (s : State) (h : Option Quad) (detail : Half) : State :=
  match h with
  | some h => s.final h stNotPermitted detail
  | none => s

/-- Why a request or a queued request may not run at all. -/
def State.actRefusal (s : State) (k : ActKind) : Option Half :=
  if s.actGone k then some dtState
  else if s.actMeetsProgram k then some dtRunning else none

/-- The queue's entries (R334). -/
def marbQueueSize : Nat := 64

/-- A request at the MARB, by a command or by an internal call (R333, R334, R336). -/
def State.requestAct (s : State) (h : Option Quad) (noqueue : Bool) (k : ActKind) : State :=
  let rs := actResources k
  let bs := s.actBudgets k
  match s.actRefusal k with
  | some x => s.refuseAct h x
  | none =>
    match s.overPath bs fun _ => 0 with
    | some x => s.conflict h x
    | none =>
      let a : Activity := ⟨s.marb.nextId, k, h, rs, bs⟩
      let s := s.modMarb fun m => { m with nextId := m.nextId + 1 }
      match s.blocked rs bs s.marb.queue with
      | none => s.takeOn a
      | some x =>
        if marbQueueSize ≤ s.marb.queue.length then s.conflict h (BitVec.ofNat 16 codeMarb)
        else if noqueue then s.conflict h x
        else
          let s := (s.modMarb fun m => { m with queue := m.queue ++ [a] }).syncMarb
          match h with
          | none => s
          | some h =>
            let s := s.modCmd h fun c => { c with st := .queued, done := 0, total := actUnits k }
            match k with
            | .fuse _ _ => s
            | _ => s.actProgress h stQueued 0 (actUnits k)

/-- Examine one queued request; `kept` are the earlier ones that stay queued. -/
def examineQueued (s : State) (a : Activity) : State :=
  match s.actRefusal a.kind with
  | some x => s.refuseAct a.handle x
  | none =>
    match s.blocked a.resources (s.actBudgets a.kind) s.marb.queue with
    | some _ => s.modMarb fun m => { m with queue := m.queue ++ [a] }
    | none =>
      let s := s.takeOn a
      match a.handle, a.kind with
      | _, .fuse _ _ => s
      | some h, k => s.actProgress h stAccepted 0 (actUnits k)
      | none, _ => s

/-- MARB_ADMIT: the queued requests are examined in arrival order (R334). -/
def doMarbAdmit (s : State) : State :=
  let q := s.marb.queue
  ((s.modMarb fun m => { m with queue := [] }) |> forEach q examineQueued).syncMarb

/-- The running activity of an identifier. -/
def State.act? (s : State) (id : Nat) : Option Activity := s.marb.running.find? fun a => a.id == id

/-- An activity ends and its reservation is released. -/
def State.endAct (s : State) (id : Nat) : State :=
  (s.modMarb fun m => { m with running := m.running.filter fun a => a.id != id }).syncMarb

/-- Drop a command's request from the queue or from the running activities (CANCEL, spec 15 R288). -/
def State.dropAct (s : State) (h : Quad) : State :=
  (s.modMarb fun m => { m with
    running := m.running.filter fun a => a.handle != some h
    queue := m.queue.filter fun a => a.handle != some h }).syncMarb

/-- Whether an activity holds a resource of a die (spec 17 R309). -/
def State.dieHeld (s : State) (d : Fin 4) : Bool :=
  let mine := (actResources (.dieReset d))
  s.marb.running.any fun a => a.resources.any fun r => mine.contains r

/-- The running activity of a kind on a bundle, if any. -/
def State.bundleAct (s : State) (b : Fin 80) : Option Activity :=
  s.marb.running.find? fun a => match a.kind with
    | .castle c _ => c == b
    | .retrain c => c == b
    | _ => false

/-- Whether an internal call or a command for the bundle waits or runs. -/
def State.bundleCalled (s : State) (b : Fin 80) : Bool :=
  (s.marb.running ++ s.marb.queue).any fun a => match a.kind with
    | .castle c _ => c == b
    | .retrain c => c == b
    | _ => false

/-- One full pass of a stack (spec 08 R156): every marked group is read, decoded and written back; where a core die is erased,
every other codeword reads as corrected too (Table 8-2). PASSES counts the pass (log entry 22). -/
def State.scrubStack (s : State) (k : Fin 8) : State :=
  let gs := ((s.stk k).mem.marks.map fun x => x.1 / 4).eraseDups
  let s := forEach gs (fun s g =>
    let dev := s.groupDev k g
    s.useStk k fun y => y.scrubGroup s.eraseWindow dev g) s
  s.modStk k fun y =>
    let rest := if fon stkErased y.status then 4 * (stackGroups - gs.length) else 0
    { y with ecc := fsat eccCeCount rest y.ecc, scrub := fsat scrubPasses 1 y.scrub }

/-- A requested scrub ends: one full pass of the named stacks. -/
def doScrubComplete (id : Nat) (s : State) : State :=
  match s.act? id with
  | some ⟨_, .scrub m, h, _, _⟩ =>
    let s := forEach (allFin 8) (fun s k => if m.getLsbD k.1 then s.scrubStack k else s) s
    let s := s.endAct id
    match h with
    | some h =>
      let lost := firstSome (allFin 8) fun k => if m.getLsbD k.1 && s.stackGone k then some (partStack k) else none
      match lost with
      | some p => s.final h stStackLost p
      | none => s.finalOk h ((allFin 4).filter fun d => m.getLsbD (2 * d.1) || m.getLsbD (2 * d.1 + 1))
    | none => s
  | _ => s

/-- A thermal calibration ends after 2 ms (R331). -/
def doThermalCalibrationComplete (id : Nat) (s : State) : State :=
  match s.act? id with
  | some ⟨_, .thermal _, h, _, _⟩ =>
    let s := s.endAct id
    match h with
    | some h => s.finalOk h []
    | none => s
  | _ => s

end Sys2Proof.Machine
end

