-- ==== Sys2Proof/Machine/Fabric.lean ====
section
/-!
DEFINITION. The die fabric (spec 09): bundle reception and replay, margin and CRC loops, castling, retraining, the degradation
ladder, link widths and die states, fencing, and per-die reset. Training, eye widths and verification results are operands
(log entry 3).
-/
namespace Sys2Proof.Machine

/-! ## Reports over MP and log codes (the model's own numbers; log entry 23) -/

def rpPortLost : Nat := 2
def rpMismatch : Nat := 3
def rpHostLinkDown : Nat := 4
def rpStart : Nat := 5
def rpHalt : Nat := 6

def lgCastling : Nat := 1
def lgLadder : Nat := 2
def lgFence : Nat := 3
def lgRejoin : Nat := 4
def lgOverrun : Nat := 5

/-! ## Lanes and spares of one bundle (R161, R165, R169) -/

/-- A spare that stands in for no lane, and one that is bad (Table 9-6). -/
def laneFree : Nat := 0xFF
def laneBad : Nat := 0xFE

/-- What spare `i` replaces. -/
def Bundle.spare (b : Bundle) (i : Nat) : Nat := nbits b.laneMap.toNat (8 * i + 7) (8 * i)

/-- The number of good spares not yet used. -/
def freeSpares (m : Word) : Nat := ((List.range 4).filter fun i => nbits m.toNat (8 * i + 7) (8 * i) == laneFree).length

/-- Set the lane map; SPARES_FREE follows it. -/
def Bundle.setMap (b : Bundle) (m : Word) : Bundle :=
  { b with laneMap := m, status := fput bunSparesFree (freeSpares m) b.status }

/-- Set what spare `i` replaces. -/
def Bundle.setSpare (b : Bundle) (i x : Nat) : Bundle := b.setMap (fput (8 * i + 7, 8 * i) x b.laneMap)

/-- The lowest-indexed free spare from spare `i` on. -/
def Bundle.nextSpare (b : Bundle) (i : Nat) : Option Nat :=
  (List.range 4).find? fun j => i ≤ j && b.spare j == laneFree

def Bundle.st (b : Bundle) : Nat := fget bunState b.status
def Bundle.setSt (b : Bundle) (x : Nat) : Bundle := { b with status := fput bunState x b.status }

/-- Bundle states (Table 9-1). -/
def bsOff : Nat := 0
def bsActive : Nat := 2
def bsCastling : Nat := 3
def bsHalf : Nat := 4
def bsDisabled : Nat := 5
def bsFenced : Nat := 6
def bsRetrain : Nat := 8

/-- The state that counts for the link's width: a bundle in CASTLING or RETRAIN counts as its former state (R170). -/
def Bundle.counted (b : Bundle) : Nat := if b.st = bsCastling ∨ b.st = bsRetrain then b.former else b.st

/-- The halves that a bundle counts (R170). -/
def Bundle.halves (b : Bundle) : Nat := if b.counted = bsActive then 2 else if b.counted = bsHalf then 1 else 0

/-- Whether the bundle carries payload. -/
def Bundle.carries (b : Bundle) : Bool := b.st == bsActive || b.st == bsHalf

/-- Whether a logical lane is in use: in HALF the carrying half and the frame lanes. -/
def Bundle.uses (b : Bundle) (lane : Nat) : Bool :=
  if b.counted = bsHalf ∧ lane < 64 then (if fon bunHalfSel b.status then 32 ≤ lane else lane < 32) else lane < 66

/-- The physical lane that carries a logical lane. -/
def Bundle.physical (b : Bundle) (lane : Nat) : Nat :=
  match (List.range 4).find? fun i => b.spare i == lane with
  | some i => 66 + i
  | none => lane

/-- The lanes of the bundle that are bad, replaced or not. -/
def Bundle.allBad (b : Bundle) : List Nat := (((List.range 4).map b.spare).filter (· < 66)) ++ b.badLanes

/-- The degradation ladder (R169): HALF when the bundle is at full width, every bad data lane lies in one half and no frame
lane is bad without a spare; DISABLED otherwise. In HALF the spares that served data lanes are released. -/
def Bundle.degrade (b : Bundle) : Bundle :=
  let frame := b.badLanes.any fun l => 64 ≤ l
  let data := b.allBad.filter (· < 64)
  let low := data.all (· < 32)
  let high := data.all (32 ≤ ·)
  if b.counted = bsActive ∧ !frame ∧ (low || high) then
    let free := (List.range 4).foldl (fun (x : Bundle) i => if x.spare i < 64 then x.setSpare i laneFree else x) b
    { free with
      status := fflag bunHalfSel low (fput bunState bsHalf free.status)
      badLanes := data
      cast := none }
  else { b.setSt bsDisabled with cast := none }

/-- Training (R165): every lane bad by fuse, then every lane that failed, takes the lowest-indexed good spare; if good spares
run out, the ladder applies. -/
def Bundle.train (b : Bundle) (fused failed : List Nat) : Bundle :=
  let bad := (fused ++ failed).eraseDups
  let m := (List.range 4).foldl (fun (m : Word) i => if bad.contains (66 + i) then fput (8 * i + 7, 8 * i) laneBad m else m)
    0xFFFFFFFF#32
  let b := ({ b with badLanes := [], low := [], cast := none, rxNext := 0, failing := 0 }.setMap m).setSt bsActive
  let b := { b with status := fput bunHalfSel 0 b.status }
  let b := (bad.filter (· < 66)).foldl (fun (x : Bundle) l => match x.nextSpare 0 with
    | some i => x.setSpare i l
    | none => { x with badLanes := x.badLanes ++ [l] }) b
  if b.badLanes.isEmpty then b else b.degrade

/-! ## Bundles in the state -/

def State.bun (s : State) (b : Fin 80) : Bundle := vget s.fab.bundles b
def State.modBun (s : State) (b : Fin 80) (f : Bundle → Bundle) : State :=
  s.modFab fun x => { x with bundles := vmod x.bundles b f }

/-- Lanes of a bundle that Gasyn fused as bad (R165). -/
def State.fusedBad (s : State) (b : Fin 80) : List Nat :=
  s.sec.fuses.lanes.filterMap fun x => if x.1 = b.1 then some x.2 else none

/-- The dies at the ends of a bundle. -/
def bundleDies (b : Fin 80) : List (Fin 4) := (allFin 4).filter fun d => bundleOfDie b d

/-- A castling or retrain on the bundle ends; its command, if any, completes (R4, R171). -/
def State.endBundleAct (s : State) (b : Fin 80) : State :=
  match s.bundleAct b with
  | none => s
  | some a =>
    let s := s.endAct a.id
    match a.handle with
    | none => s
    | some h => match (bundleDies b).find? fun d => s.dieFenced d with
      | some d => s.final h stDieLost (partDie d)
      | none => s.finalOk h (bundleDies b)

/-! ## Link width and die state (R170) -/

/-- HB_HALVES and NB_HALVES of a die follow its bundles. -/
def State.setWidths (s : State) (d : Fin 4) : State :=
  let count := fun (hb : Bool) =>
    ((allFin 80).map fun b => if bundleOfDie b d && decide (b.1 < 64) == hb then (s.bun b).halves else 0).sum
  s.modFab fun f => { f with
    dieState := vmod f.dieState d fun w => fput dieHbHalves (count true) (fput dieNbHalves (count false) w) }

/-- The hub's copy of a die that is fenced shows the stop of the die in SEQ.FAULT (spec 21 R347). -/
def State.copyFenced (s : State) (d : Fin 4) : State :=
  (s.copyRegs d).modDie d fun x =>
    let lost := fput seqFaultValid 1 (fput seqFaultCause 9 x.copy.fault)
    { x with copy := { x.copy with fault := (if fon seqFaultValid x.copy.fault then x.copy.fault else lost) } }

/-- Whether the home of a line is die `d`. -/
def State.homedOn (s : State) (d : Fin 4) (l : Nat) : Bool := (devPlace s.regionMode (128 * l)).die == d

/-- Set the die's bit in the other dies' lost-home masks and clear its column in the home filters (R176 steps 2, 3). -/
def State.loseHome (s : State) (d : Fin 4) : State :=
  let bit := BitVec.twoPow 4 d.1
  let up := fun (e : FilterEntry) => { e with presence := e.presence &&& ~~~bit }
  s.modFab fun f => { f with
    lostHome := vmap f.lostHome (fun e m => if e = d then m else m ||| bit)
    filters := f.filters.map up }

/-- Every other die has invalidated its lines homed on the die, whose filter is gone (R176 step 6). -/
def State.dropHomed (s : State) (d : Fin 4) : State :=
  let s := forEach (allFin 4) (fun s e => s.modDie e fun x =>
    if e = d then { x with cache := [], fills := [], invals := [] }
    else
      let keep := fun (c : CacheLine) => !s.homedOn d c.line
      let left := x.invals.filter fun l => !s.homedOn d l
      { x with cache := x.cache.filter keep, fills := x.fills.filter keep, invals := left }) s
  s.modFab fun f => { f with filters := f.filters.filter fun e => !s.homedOn d e.line }

/-- Whether an activity works on a part of the die. -/
def ActKind.onDie (k : ActKind) (d : Fin 4) : Bool :=
  match k with
  | .march t _ _ _ _ _ => t == d.1
  | .scrub m => m.getLsbD (2 * d.1) || m.getLsbD (2 * d.1 + 1)
  | .castle b _ => bundleOfDie b d
  | .retrain b => bundleOfDie b d
  | .thermal c => c == partDie d
  | .dieReset e => e == d
  | _ => false

/-- The activities under way on a die end with DIE_LOST (R176 step 7). -/
def State.loseActs (s : State) (d : Fin 4) : State :=
  let mine := s.marb.running.filter fun a => a.kind.onDie d
  forEach mine (fun s a =>
    let s := s.endAct a.id
    match a.handle with
    | some h => s.final h stDieLost (partDie d)
    | none => s) s

/-- Begin a fence (R176 steps 1 to 4): the HB bundles and the neighbour's NB bundles are FENCED, masks and presence bits
follow, the die's engines stop, and its program stops with fault cause DIE_LOST. -/
def State.startFence (s : State) (d : Fin 4) (cause : Nat) : State :=
  if (vget s.fab.fences d).isSome || s.dieSt d == dsFenced then s
  else
    let s := s.modFab fun f => { f with fences := vset f.fences d (some ⟨cause, false, false⟩), resets := vset f.resets d none }
    let s := forEach (resetBundles d) (fun s b => s.modBun b fun x => { x.setSt bsFenced with cast := none }) s
    let s := s.loseHome d
    let s := s.modPwc fun p => { p with padHold := p.padHold ||| BitVec.twoPow 32 d.1 }
    let s := s.modDie d fun x =>
      { x with mxaFly := [], vxeFly := [], movFly := [], trnFly := [], rngFly := [], fills := [], invals := []
               seq := { x.seq with mxaQ := [], vxeQ := [], movQ := [], trnQ := [], rngQ := [], wait := none } }
    let s := if (s.die d).seq.prog.isSome then
        s.modSeq d fun q => { q with due := some ⟨9, 0, 0, unitSeq, q.pc, stDieLost, partDie d⟩ }
      else s
    let s := s.loseActs d
    (forEach (allFin 4) State.setWidths s).copyFenced d

/-- Set a die UP or DEGRADED by its hub link's width, or fence it (R170). -/
def State.relinkDie (s : State) (d : Fin 4) : State :=
  let s := s.setWidths d
  if !s.dieServes d then s
  else
    let n := fget dieHbHalves (vget s.fab.dieState d)
    if n < 4 then s.startFence d 2
    else
      let x := if 16 ≤ n then dsUp else dsDegraded
      let was := s.dieSt d
      let s := s.modFab fun f => { f with dieState := vmod f.dieState d (fput dieState x) }
      if x = dsDegraded ∧ was ≠ dsDegraded then s.emit (.report rpDegraded [(partDie d).toNat]) else s

/-- Recompute every link's width after a bundle has changed. -/
def State.relink (s : State) : State := forEach (allFin 4) State.relinkDie s

/-- Apply the ladder to a bundle with one more bad lane and recompute the widths (R169). -/
def State.ladder (s : State) (b : Fin 80) (lane : Nat) : State :=
  let s := s.modBun b fun x => { x with badLanes := if x.badLanes.contains lane then x.badLanes else x.badLanes ++ [lane] }.degrade
  let s := s.log .fabric lgLadder [b.1, lane, (s.bun b).st]
  let s := s.emit (.report rpDegraded [codeBundle b])
  s.relink

/-- Disable a bundle (R162, R169 step 2, R335). -/
def State.disableBundle (s : State) (b : Fin 80) : State :=
  let s := s.modBun b fun x => { x.setSt bsDisabled with cast := none }
  (s.emit (.report rpDegraded [codeBundle b])).relink

/-! ## Reception (R162) -/

/-- CASTLE_CFG.CONSEC, 0 treated as 1. -/
def State.consec (s : State) : Nat := max 1 (fget castleConsec s.fab.castleCfg)

/-- An internal call for the bundle's retraining: CRC errors have reached CRC_LIMIT in the window, AUTO is set, and no lane calls
for castling (R166). -/
def State.crcCall (s : State) (b : Fin 80) : State :=
  let x := s.bun b
  let lim := fget castleCrcLimit s.fab.castleCfg
  if fon castleAuto s.fab.castleCfg && lim != 0 && x.crc.n == lim && !x.low.any (fun n => s.consec ≤ n) && !s.bundleCalled b then
    s.requestAct none false (.retrain b)
  else s

/-- The CRC window of 2^20 AON ticks. -/
def State.crcWin (s : State) : Nat := s.aon / 2 ^ 20

/-- An entry arrives at a bundle receiver; tags are counted absolutely (log entry 24). -/
def doBundleEntryReceive (b : Fin 80) (tag : Nat) (ok : Bool) (s : State) : State :=
  let x := s.bun b
  if !x.carries then s
  else if ok then
    s.modBun b fun x => if tag = x.rxNext then { x with rxNext := tag + 1, failing := 0 } else x
  else
    let first := tag == x.rxNext
    let n := if x.crc.win = s.crcWin then x.crc.n + 1 else 1
    let s := s.modBun b fun x => { x with
      crc := ⟨s.crcWin, n⟩
      failing := if first then x.failing + 1 else x.failing
      err := fsat bunErrCrcErr 1 (if first then fsat bunErrReplays 1 x.err else x.err) }
    if first && decide (17 ≤ (s.bun b).failing) then s.disableBundle b else s.crcCall b

/-- The CRC window ends. -/
def doCrcWindowEnd (b : Fin 80) (s : State) : State :=
  s.modBun b fun x => if x.crc.win < s.crcWin then { x with crc := ⟨s.crcWin, 0⟩ } else x

/-! ## Margins and castling (R166 to R168) -/

/-- A lane whose margin has been low long enough calls: for castling while a spare is free, else for the ladder. -/
def State.marginCall (s : State) (b : Fin 80) (lane : Nat) : State :=
  let x := s.bun b
  let called := (s.marb.running ++ s.marb.queue).any fun a => a.kind == .castle b lane
  if !x.carries || !x.uses lane || called then s
  else if (x.nextSpare 0).isSome then s.requestAct none false (.castle b lane)
  else s.ladder b lane

/-- The receiver lanes of a bundle measure their eye widths; `widths` are by physical lane. -/
def doEyeMeasurement (b : Fin 80) (widths : List Nat) (s : State) : State :=
  let x := s.bun b
  if !x.carries then s
  else
    let min := fget castleMarginMin s.fab.castleCfg
    let low := (List.range 66).map fun l =>
      if x.uses l && decide (widths.getD (x.physical l) 256 < min) then x.low.getD l 0 + 1 else 0
    let s := s.modBun b fun x => { x with low := low }
    if !fon castleAuto s.fab.castleCfg then s
    else forEach ((List.range 66).filter fun l => s.consec ≤ low.getD l 0) (fun s l => s.marginCall b l) s

/-- An admitted castling begins (R167 steps 1 to 4). With no free spare left, the lane is bad at once (R168). -/
def doCastling (b : Fin 80) (s : State) : State :=
  let x := s.bun b
  match s.bundleAct b with
  | some ⟨_, .castle _ lane, _, _, _⟩ =>
    if x.cast.isSome then s
    else if !x.carries then s.endBundleAct b
    else match x.nextSpare 0 with
      | none => (s.ladder b lane).endBundleAct b
      | some i => s.modBun b fun x => { x.setSt bsCastling with former := x.st, cast := some ⟨lane, i, false⟩ }
  | _ => s

/-- Both ends switch to the spare (R167 step 5). -/
def doCastlingSwitch (b : Fin 80) (s : State) : State :=
  s.modBun b fun x => match x.cast with
    | some c => if x.st = bsCastling then { x with cast := some { c with switched := true } } else x
    | none => x

/-- Verification ends (R167 steps 6 and 7, R168). A spare that fails is bad, as is one that served the lane before. -/
def doCastlingComplete (b : Fin 80) (pass : Bool) (s : State) : State :=
  let x := s.bun b
  match x.cast with
  | none => s
  | some c =>
    if !c.switched then s
    else if pass then
      let s := s.modBun b fun x =>
        let y := (List.range 4).foldl (fun (y : Bundle) i => if y.spare i == c.lane then y.setSpare i laneBad else y) x
        let y := (y.setSpare c.spare c.lane).setSt x.former
        { y with cast := none, low := y.low.set c.lane 0
                 status := fput bunLastLane c.lane (fsat bunCastleCount 1 y.status) }
      (s.log .fabric lgCastling [b.1, c.lane, c.spare]).endBundleAct b
    else
      let s := s.modBun b fun x => x.setSpare c.spare laneBad
      match (s.bun b).nextSpare c.spare with
      | some i => s.modBun b fun x => { x with cast := some ⟨c.lane, i, false⟩ }
      | none => ((s.modBun b fun x => { x with cast := none }).ladder b c.lane).endBundleAct b

/-! ## Retraining -/

/-- An admitted retrain begins and holds the bundle (R166). -/
def doBundleRetrain (b : Fin 80) (s : State) : State :=
  let x := s.bun b
  match s.bundleAct b with
  | some ⟨_, .retrain _, _, _, _⟩ =>
    if x.st = bsRetrain then s
    else if !x.carries then s.endBundleAct b
    else s.modBun b fun x => { x.setSt bsRetrain with former := x.st }
  | _ => s

/-- A retrain ends: spares are chosen afresh from the lanes that failed (R165 steps 1 and 2). -/
def doBundleRetrainComplete (b : Fin 80) (bad : List Nat) (s : State) : State :=
  if (s.bun b).st ≠ bsRetrain then s
  else
    let fused := s.fusedBad b
    let next := (s.bun b).rxNext
    ((s.modBun b fun x => { x.train fused bad with rxNext := next }).relink).endBundleAct b

/-! ## Losing a die (R175, R176) -/

/-- Missing-clock detectors trip on bundles of a die in one event (R175). -/
def doLclkMissing (d : Fin 4) (bs : List (Fin 80)) (s : State) : State :=
  if !s.dieServes d then s
  else
    let enabled := (allFin 64).filterMap fun i =>
      let b : Fin 80 := ⟨i.1, by omega⟩
      let x := (s.bun b).st
      if i.1 / 16 = d.1 ∧ x ≠ bsOff ∧ x ≠ bsDisabled ∧ x ≠ bsFenced then some b else none
    let hit := enabled.filter fun b => bs.contains b
    if hit.isEmpty then s
    else if hit.length = enabled.length then s.startFence d 1
    else
      let s := forEach hit (fun s b => s.modBun b fun x => { x.setSt bsDisabled with cast := none }) s
      let s := forEach hit (fun s b => s.endBundleAct b) s
      let s := forEach hit (fun s b => s.emit (.report rpDegraded [codeBundle b])) s
      s.relink

/-- The die sees every forwarded clock from the hub stop: it stops dispatch and holds its pads. -/
def doDieHubClockLoss (d : Fin 4) (s : State) : State :=
  if s.dieSt d = dsOff ∨ s.dieSt d = dsExcluded then s
  else
    (s.modDie d fun x => { x with hubClkLost := true }).modPwc fun p => { p with padHold := p.padHold ||| BitVec.twoPow 32 d.1 }

/-- The PWC holds the fenced die in reset (R176 step 5). -/
def doDieFenceResetHold (d : Fin 4) (s : State) : State :=
  match vget s.fab.fences d with
  | some f => s.modFab fun x => { x with fences := vset x.fences d (some { f with held := true }) }
  | none => s

/-- The fence is complete (R176 steps 6 and 7). -/
def doDieFenceComplete (d : Fin 4) (s : State) : State :=
  match vget s.fab.fences d with
  | none => s
  | some f =>
    if !f.held then s
    else
      let s := (s.dropHomed d).modFab fun x => { x with
        fences := vset x.fences d none
        dieState := vmod x.dieState d (fun w => fput dieCause f.cause (fput dieState dsFenced w)) }
      let s := s.refusePending
      (s.log .hub lgFence [d.1, f.cause]).emit (.report rpDegraded [(partDie d).toNat])

/-! ## Per-die reset (R178) -/

/-- A die as a per-die reset or an exit from DIE_OFF leaves it: its block at reset values but for SPAD.REPAIR (spec 21
Table 21-3), its scratchpad zero, its column repair and power as they were. -/
def Die.restart (x : Die) : Die :=
  { Die.reset with
    regs := { DieRegs.reset with repair := x.regs.repair }
    copy := x.copy
    badCols := x.badCols
    spares := x.spares
    pwr := x.pwr }

/-- Whether requests to or from the die are outstanding. -/
def State.dieBusy (s : State) (d : Fin 4) : Bool :=
  s.fab.pendingWrites.any fun w => s.homedOn d w.line || match w.writer with
    | .engine e _ _ => e == d
    | .mxa e => e == d
    | _ => false

/-- The pad-hold bits of a die's HB bundles and of its pair's NB bundles (spec 17 Table 17-13). -/
def padBits (d : Fin 4) : Word := BitVec.twoPow 32 d.1 ||| BitVec.twoPow 32 (4 + d.1 / 2)

/-- Switch a die's logic and links off: its cache and its homes are discarded, its stacks keep their contents in self-refresh,
its bundles are OFF with pads held (R178 steps 3 and 4, spec 17 R310). -/
def State.quiesceDie (s : State) (d : Fin 4) : State :=
  let s := (s.copyRegs d).loseHome d
  let s := s.dropHomed d
  let s := forEach (allFin 8) (fun s k => if k.1 / 2 = d.1 then s.modStk k fun x => { x with selfRefresh := true } else s) s
  let s := forEach (resetBundles d) (fun s b => s.modBun b fun x => { x.setSt bsOff with cast := none }) s
  let s := s.modPwc fun p => { p with padHold := p.padHold ||| padBits d }
  forEach (allFin 4) State.setWidths s

/-- A reset's drain ends (R178 steps 2 to 4). -/
def doDieResetDrainEnd (d : Fin 4) (s : State) : State :=
  match vget s.fab.resets d with
  | none => s
  | some r =>
    if r.drained || s.dieBusy d then s
    else
      let s := s.modFab fun f => { f with resets := vset f.resets d (some { r with drained := true }) }
      (s.quiesceDie d).actProgress r.handle stAccepted 0 0

/-- AON ticks of a millisecond. -/
def ticksPerMs : Nat := 25000

/-- The drain has not ended by 1 ms: the reset is abandoned (R178 step 2). -/
def doDieResetAbandon (d : Fin 4) (s : State) : State :=
  match vget s.fab.resets d with
  | none => s
  | some r =>
    if r.drained || decide (s.aon < r.t0 + ticksPerMs) then s
    else
      let s := s.modFab fun f => { f with
        resets := vset f.resets d none
        dieState := vmod f.dieState d fun w => fput dieCause (r.former / 256) (fput dieState r.former w) }
      (s.endAct r.act).final r.handle stCancelled 0

/-- The failing lanes of a bundle among (bundle, lane) pairs. -/
def lanesOf (bad : List (Nat × Nat)) (b : Fin 80) : List Nat :=
  bad.filterMap fun x => if x.1 = b.1 then some x.2 else none

/-- Train the bundles of a die; the NB bundles of its pair only while the neighbour serves. -/
def State.trainDie (s : State) (d : Fin 4) (bad : List (Nat × Nat)) : State :=
  forEach (resetBundles d) (fun s b =>
    let peers := (bundleDies b).filter fun e => e != d
    if peers.all fun e => s.dieServes e then s.modBun b fun x => x.train (s.fusedBad b) (lanesOf bad b) else s) s

/-- Bring a die back (R178 steps 5 to 9, spec 17 R311): its block and memories restart, its bundles train, its stacks leave
self-refresh. Answers whether it rejoined; with a hub link below 4 halves it is fenced. -/
def State.rejoinDie (s : State) (d : Fin 4) (bad : List (Nat × Nat)) (lost : List (Fin 8)) : State × Bool :=
  let s := s.modDie d Die.restart
  let s := forEach (allFin 8) (fun s k => if k.1 / 2 = d.1 then s.modStk k fun x => { x with selfRefresh := false } else s) s
  let s := forEach (lost.filter fun k => k.1 / 2 = d.1) (fun s k => s.useStk k fun x => x.lose 2) s
  let bit := BitVec.twoPow 4 d.1
  let mask := maskOf 4 ((allFin 4).filterMap fun e => if e ≠ d ∧ s.dieFenced e then some e.1 else none)
  let s := s.modFab fun f => { f with
    fences := vset f.fences d none
    resets := vset f.resets d none
    lostHome := vmap f.lostHome (fun e m => if e = d then mask else m &&& ~~~bit)
    dieState := vmod f.dieState d (fun w => fput dieCause 0 (fput dieState dsUp w)) }
  let s := s.trainDie d bad
  let s := forEach (allFin 4) State.setWidths s
  if fget dieHbHalves (vget s.fab.dieState d) < 4 then
    let s := s.modFab fun f => { f with dieState := vmod f.dieState d fun w => fput dieCause 2 (fput dieState dsFenced w) }
    let s := forEach (resetBundles d) (fun s b => s.modBun b fun x => x.setSt bsFenced) s
    ((forEach (allFin 4) State.setWidths (s.loseHome d)).copyFenced d, false)
  else ((s.relink).log .fabric lgRejoin [d.1], true)

/-- The final record of a command that brought a die back. -/
def State.rejoinFinal (s : State) (h : Quad) (ds : List (Fin 4)) (up : Bool) (lost : List (Fin 8)) : State :=
  match ds.find? fun d => s.dieFenced d, up, (allFin 8).find? fun k => lost.contains k && ds.any fun d => k.1 / 2 == d.1 with
  | some d, false, _ => s.final h stDieLost (partDie d)
  | _, _, some k => s.final h stStackLost (partStack k)
  | _, _, none => s.finalOk h ds

/-- The reset die rejoins (R178 steps 5 to 9), after the loop-back test when it was asked for (R179, spec 19 R337). -/
def doDieResetRejoin (d : Fin 4) (bad : List (Nat × Nat)) (lost : List (Fin 8)) (s : State) : State :=
  match vget s.fab.resets d with
  | none => s
  | some r =>
    if !r.drained then s
    else
      let failed := (bad.filter fun x => match fin? 80 x.1 with
        | some b => bundleOfDie b d
        | none => false).length
      let s := if r.test then s.modMarb fun m => { m with
          dietest := fput (d.1, d.1) 0 (fput (39 + 8 * d.1, 32 + 8 * d.1) (min failed 255) m.dietest) } else s
      let s := s.modPwc fun p => { p with padHold := p.padHold &&& ~~~(padBits d) }
      let (s, up) := s.rejoinDie d bad lost
      (s.endAct r.act).rejoinFinal r.handle [d] up lost

end Sys2Proof.Machine
end

