-- ==== Sys2Proof/Machine/Epochs.lean ====
section
/-!
DEFINITION. Terti messages at the level that every hub unit shares (spec 10, spec 11): the header and its bytes, the kinds and
their VCs, the identity record and the epochs a message is checked against (R198 to R200, R205, R211), the violation log
(R202) and the queue of NACKs (R201).
-/
namespace Sys2Proof.Machine

/-! ## Kinds (spec 12 Table 12-2, spec 13 R242, spec 14 R267, R268, R271, spec 10 R185) -/

def kFwdAct : Nat := 0x10
def kBwdGrad : Nat := 0x11
def kMbDrop : Nat := 0x12
def kQcredit : Nat := 0x13
def kShardReq : Nat := 0x14
def kShardData : Nat := 0x15
def kShardFail : Nat := 0x16
def kSpBlock : Nat := 0x17
def kTally : Nat := 0x20
def kTallyCopy : Nat := 0x21
def kVote : Nat := 0x30
def kDecision : Nat := 0x31
def kDecisionReq : Nat := 0x32
def kPair : Nat := 0x40
def kPairAck : Nat := 0x41
def kCopyData : Nat := 0x42
def kCopyDone : Nat := 0x43
def kFillReq : Nat := 0x44
def kFillData : Nat := 0x45
def kFillFail : Nat := 0x46
def kDigestReq : Nat := 0x47
def kDigestData : Nat := 0x48
def kNack : Nat := 0xF0

def vcFwd : Nat := 0
def vcBwd : Nat := 1
def vcDp : Nat := 2
def vcTp : Nat := 3
def vcSp : Nat := 4
def vcCtl : Nat := 5
def vcFill : Nat := 6
def vcMgt : Nat := 7

/-- Whether a kind is assigned and travels on the VC. -/
def kindOnVc (k vc : Nat) : Bool :=
  if k = 0x10 then vc == vcFwd
  else if k = 0x11 then vc == vcBwd
  else if k = 0x12 then vc == vcFwd || vc == vcBwd
  else if k = 0x13 then vc == vcCtl
  else if 0x14 ≤ k ∧ k ≤ 0x16 then vc == vcTp || vc == vcDp
  else if k = 0x17 then vc == vcSp
  else if k = 0x20 ∨ k = 0x21 then vc == vcTp || vc == vcDp
  else if 0x30 ≤ k ∧ k ≤ 0x32 then vc == vcCtl
  else if 0x40 ≤ k ∧ k ≤ 0x48 then vc == vcFill
  else if 0xE0 ≤ k ∧ k ≤ 0xEF then vc == vcMgt
  else k == kNack && vc == vcCtl

/-! ## Headers (spec 10 Table 10-4) -/

def noGroup : Half := 0xFFFF#16
def noStage : Half := 0xFFFF#16

def bytesWord (l : List Byte) (o : Nat) : Word := BitVec.ofNat 32 (leAt l o 4)
def bytesHalf (l : List Byte) (o : Nat) : Half := BitVec.ofNat 16 (leAt l o 2)
def byteAt (l : List Byte) (o : Nat) : Nat := (l.getD o 0).toNat

/-- The header in the first 48 bytes. -/
def Header.parse (l : List Byte) : Header where
  srcPos := bytesWord l 0
  dstPos := bytesWord l 4
  group := bytesHalf l 8
  vc := byteAt l 10 % 8
  kind := byteAt l 11
  roleEpoch := bytesWord l 12
  layoutEpoch := bytesWord l 16
  membEpoch := bytesWord l 20
  step := bytesWord l 24
  mbId := bytesWord l 28
  wver := bytesWord l 32
  length := leAt l 36 4
  offset := leAt l 40 4
  stage := bytesHalf l 44
  flags := l.getD 46 0
  reservedBad := byteAt l 10 / 8 != 0 || byteAt l 46 / 16 != 0 || byteAt l 47 != 0

/-- The 48 bytes of a header. -/
def Header.bytes (h : Header) : List Byte :=
  natLe 4 h.srcPos.toNat ++ natLe 4 h.dstPos.toNat ++ natLe 2 h.group.toNat ++ natLe 1 h.vc ++ natLe 1 h.kind ++
  natLe 4 h.roleEpoch.toNat ++ natLe 4 h.layoutEpoch.toNat ++ natLe 4 h.membEpoch.toNat ++ natLe 4 h.step.toNat ++
  natLe 4 h.mbId.toNat ++ natLe 4 h.wver.toNat ++ natLe 4 h.length ++ natLe 4 h.offset ++ natLe 2 h.stage.toNat ++
  [h.flags, 0]

/-- FLAGS (Table 10-4). -/
def hfEval : Nat := 0
def hfLast : Nat := 1
def hfAbsent : Nat := 2
def hfResend : Nat := 3

/-- FLAGS from its four bits. -/
def hflags (eval last absent resend : Bool) : Byte :=
  BitVec.ofNat 8 (b2n eval + 2 * b2n last + 4 * b2n absent + 8 * b2n resend)

/-- The header with RESEND set or cleared. -/
def Header.withResend (h : Header) (r : Bool) : Header :=
  { h with flags := (h.flags &&& 0xF7#8) ||| (if r then 8#8 else 0#8) }

/-- A header to `dst` with everything else at its "none" value. -/
def State.hdr (s : State) (dst : Word) (vc kind len : Nat) : Header where
  srcPos := s.job.identity
  dstPos := dst
  group := noGroup
  vc := vc
  kind := kind
  roleEpoch := 0
  layoutEpoch := 0
  membEpoch := 0
  step := 0
  mbId := 0
  wver := 0
  length := len
  offset := 0
  stage := noStage
  flags := 0
  reservedBad := false

/-! ## The identity record (spec 11) -/

def State.roleReg (s : State) (r : Fin 4) : Quad := vget s.job.roles r
def State.roleUsed (s : State) (r : Fin 4) : Bool := fon roleValid (s.roleReg r)
def State.stageOf (s : State) (r : Fin 4) : Half := BitVec.ofNat 16 (fget roleStage (s.roleReg r))
def State.roleEpoch (s : State) (r : Fin 4) : Word := BitVec.ofNat 32 (fget roleRoleEpoch (s.roleReg r))

/-- The valid role that holds a stage. -/
def State.roleOf (s : State) (stage : Half) : Option (Fin 4) :=
  (allFin 4).find? fun r => s.roleUsed r && s.stageOf r == stage

def State.grp (s : State) (i : Fin 64) : GroupSlot := vget s.job.groups i

/-- The active entry of a slot number. -/
def State.entry (s : State) (i : Nat) : Option GroupEntry :=
  match fin? 64 i with
  | some k => (s.grp k).active
  | none => none

/-- The slot whose active entry has this GROUP. -/
def State.activeGroup (s : State) (g : Half) : Option (Fin 64 × GroupEntry) :=
  firstSome (allFin 64) fun i => match (s.grp i).active with
    | some e => if e.gid = g then some (i, e) else none
    | none => none

/-- The slot whose staged entry has this GROUP. -/
def State.stagedGroup (s : State) (g : Half) : Option (Fin 64 × GroupEntry) :=
  firstSome (allFin 64) fun i => match (s.grp i).staged with
    | some e => if e.gid = g then some (i, e) else none
    | none => none

/-- The signed difference E − C of two epochs, modulo 2^32 (R198, R207). -/
def epochDiff (e c : Word) : Int := (e - c).toInt

/-- Whether a port carries messages (R193). -/
def State.carries (s : State) (p : Fin 24) : Bool := s.portState p == 2 || s.portState p == 3

/-- A port number as a port; 0xFF and other numbers name none. -/
def port? (n : Nat) : Option (Fin 24) := fin? 24 n

/-- SEEN and EXPECT of a port (Table 10-15). -/
def State.seen (s : State) (p : Fin 24) : Word := BitVec.ofNat 32 (fget partnerSeen (s.port p).partner)
def State.expects (s : State) (p : Fin 24) : Word := BitVec.ofNat 32 (fget partnerExpect (s.port p).partner)

/-- The position 0xFFFF_FFFF: none. -/
def noPos : Word := 0xFFFFFFFF#32

/-! ## Epoch checks (R198 to R200, R211) -/

/-- Which epoch a message is stale against. -/
inductive Stale where
  | role | layout | memb
deriving DecidableEq, Repr

/-- What the epoch checks decide. -/
inductive EpochCheck where
  | pass
  | hold
  | stale (k : Stale)
  | ahead (epoch cur : Word) (weight : Nat)
deriving DecidableEq, Repr

/-- One epoch against the current one. -/
def checkEpoch (k : Stale) (e c : Word) : EpochCheck :=
  let d := epochDiff e c
  if d = 0 then .pass else if d < 0 then .stale k else if d = 1 then .hold else .ahead e c 1

/-- The checks of a message's VC (Table 10-5), in the order role, layout, membership. A GROUP that only a staged entry holds is
held when both epochs equal that entry's (R211). -/
def State.epochCheck (s : State) (h : Header) : EpochCheck :=
  if h.vc = vcFwd ∨ h.vc = vcBwd then
    match s.roleOf h.stage with
    | none => .stale .role
    | some r => checkEpoch .role h.roleEpoch (s.roleEpoch r)
  else if h.vc = vcMgt ∨ h.group = noGroup then .pass
  else match s.activeGroup h.group with
    | some (_, e) =>
      match if h.vc = vcFill then EpochCheck.pass else checkEpoch .layout h.layoutEpoch e.layout with
      | .pass => checkEpoch .memb h.membEpoch e.memb
      | x => x
    | none =>
      match s.stagedGroup h.group with
      | some (_, e) =>
        if h.layoutEpoch = e.layout ∧ h.membEpoch = e.memb then .hold else .ahead h.layoutEpoch e.layout 0
      | none => .pass

/-- Whether fewer than GRACE × 1,024 ticks have passed since a tick (R197). -/
def State.inGrace (s : State) (p : Fin 24) (t : Nat) : Bool :=
  s.aon < t + 1024 * fget portGrace (s.port p).cfg

/-- The violation code and NACK status of a stale epoch (Table 10-10). -/
def Stale.code : Stale → Nat
  | .role => 0x08
  | .layout => 0x09
  | .memb => 0x0A

def Stale.status : Stale → Half
  | .role => stRoleStale
  | .layout => stLayoutStale
  | .memb => stMembershipStale

/-- The failed epoch, CUR_EPOCH, HINT, and the weight by GRACE, of a stale message (R200, R201). -/
structure StaleInfo where
  failed : Word
  cur    : Word
  hint   : Word
  weight : Nat
deriving DecidableEq, Repr

def State.staleInfo (s : State) (p : Fin 24) (h : Header) (k : Stale) : StaleInfo :=
  let w := fun (t : Nat) => if s.inGrace p t then 0 else 1
  match k with
  | .role =>
    match s.roleOf h.stage with
    | some r => ⟨h.roleEpoch, s.roleEpoch r, s.job.identity, w (vget s.job.roleTick r)⟩
    | none => match s.job.forwarding.find? fun f => f.stage == h.stage with
      | some f => ⟨h.roleEpoch, f.epoch, f.pos, w f.tick⟩
      | none => ⟨h.roleEpoch, noPos, noPos, 1⟩
  | .layout => match s.activeGroup h.group with
    | some (i, e) => ⟨h.layoutEpoch, e.layout, noPos, w (s.grp i).layoutTick⟩
    | none => ⟨h.layoutEpoch, noPos, noPos, 1⟩
  | .memb => match s.activeGroup h.group with
    | some (i, e) => ⟨h.membEpoch, e.memb, noPos, w (s.grp i).membTick⟩
    | none => ⟨h.membEpoch, noPos, noPos, 1⟩

/-! ## The violation log (R202, R203, spec 20 Table 20-4) -/

/-- What a violation records (Table 10-12). -/
structure Viol where
  code   : Nat
  vc     : Nat := 0
  kind   : Nat := 0
  weight : Nat := 1
  src    : Word := 0
  step   : Word := 0
  mb     : Word := 0
  msgEpoch : Word := 0
  rcvEpoch : Word := 0
  group  : Half := 0

/-- The violation of a message whose header is known. -/
def violOf (h : Header) (code weight : Nat) (msg rcv : Word := 0) : Viol where
  code := code
  vc := h.vc
  kind := h.kind
  weight := weight
  src := h.srcPos
  step := h.step
  mb := h.mbId
  msgEpoch := msg
  rcvEpoch := rcv
  group := h.group

/-- The 32 B log entry. -/
def Viol.entry (v : Viol) (tick : Nat) : BitVec 256 :=
  BitVec.ofNat 256 (leNat (natLe 4 tick ++ natLe 1 v.code ++ natLe 1 v.vc ++ natLe 1 v.kind ++ natLe 1 v.weight ++
    natLe 4 v.src.toNat ++ natLe 4 v.step.toNat ++ natLe 4 v.mb.toNat ++ natLe 4 v.msgEpoch.toNat ++
    natLe 4 v.rcvEpoch.toNat ++ natLe 2 v.group.toNat ++ [0, 0]))

/-- The quarantine window of 2^20 ticks. -/
def State.weightWin (s : State) : Nat := s.aon / 2 ^ 20

/-- Log a violation on a port: the ring, TOTAL, the count of its code, and the window's weight. -/
def State.violate (s : State) (p : Fin 24) (v : Viol) : State :=
  s.modPort p fun x =>
    let n := (if x.weight.win = s.weightWin then x.weight.n else 0) + v.weight
    { x with
      vlog := sput x.vlog (fget vlogTotal x.vlogStat % 64) (v.entry s.aon)
      vlogStat := fput vlogWindowWeight (min n 255) (fsat vlogTotal 1 x.vlogStat)
      vcount := match fin? 16 v.code with
        | some c => vmod x.vcount c (fsat (15, 0) 1)
        | none => x.vcount
      weight := ⟨s.weightWin, n⟩ }

/-! ## NACKs (R201) -/

/-- The NACK of a failed message. -/
def State.nackOf (s : State) (h : Header) (status : Half) (code : Nat) (failed cur hint : Word) : Msg :=
  let role := match s.roleOf h.stage with
    | some r => s.roleEpoch r
    | none => 0
  let (lay, mem) := match s.activeGroup h.group with
    | some (_, e) => (e.layout, e.memb)
    | none => (0, 0)
  let payload := natLe 2 status.toNat ++ natLe 1 code ++ natLe 1 h.vc ++ natLe 1 h.kind ++ [0, 0, 0] ++
    natLe 4 failed.toNat ++ natLe 4 cur.toNat ++ natLe 4 hint.toNat ++ natLe 4 h.offset ++ List.replicate 8 0
  ⟨{ s.hdr h.srcPos vcCtl kNack 32 with
      group := h.group, roleEpoch := role, layoutEpoch := lay, membEpoch := mem
      step := h.step, mbId := h.mbId, wver := h.wver, stage := h.stage }, payload⟩

/-- Queue a NACK on a port; up to 64 wait. A NACK is never answered with a NACK. -/
def State.nack (s : State) (p : Fin 24) (h : Header) (status : Half) (code : Nat)
    (failed : Word := 0) (cur : Word := 0) (hint : Word := noPos) : State :=
  if h.kind = kNack then s
  else
    let m := s.nackOf h status code failed cur hint
    s.modPort p fun x =>
      if x.nacks.length < 64 then { x with nacks := x.nacks ++ [m] }
      else { x with vlogStat := fsat vlogNackDropped 1 x.vlogStat }

/-- Bounce a stale message: logged and answered (Table 10-10), at the weight of GRACE or, on a later check (R199), at 0. -/
def State.bounce (s : State) (p : Fin 24) (h : Header) (k : Stale) (late : Bool) : State :=
  let i := s.staleInfo p h k
  let s := s.violate p (violOf h k.code (if late then 0 else i.weight) i.failed i.cur)
  s.nack p h k.status k.code i.failed i.cur i.hint

/-- Discard a message: logged and answered with a status. -/
def State.reject (s : State) (p : Fin 24) (h : Header) (code : Nat) (status : Half) (weight : Nat := 1)
    (failed : Word := 0) (cur : Word := 0) : State :=
  (s.violate p (violOf h code weight failed cur)).nack p h status code failed cur

/-! ## Messages that have been accepted -/

/-- Take the first delivered message of a kind on a port. -/
def State.takeMsg (s : State) (p : Fin 24) (k : Nat) : Option (Msg × State) :=
  let x := s.port p
  match x.rx.delivered.find? fun m => m.hdr.kind == k with
  | none => none
  | some m => some (m, s.modPort p fun y =>
      { y with rx := { y.rx with delivered := dropFirst (fun m => m.hdr.kind == k) y.rx.delivered } })

/-- The message bytes of a HUBOP to a unit from a die: the first one waiting. -/
def State.hubMsg? (s : State) (d : Fin 4) (unit fn : Nat) : Option HubMsg :=
  match s.hubMsgs.find? fun m => m.die == d && m.unit == unit with
  | some m => if byteAt m.bytes 1 = fn then some m else none
  | none => none

/-- The answer to a HUBOP: status, detail and reply bytes 7–4 (spec 12 R222). -/
def State.answer (s : State) (m : HubMsg) (st : Half) (detail : Half := 0) (rest : List Byte := []) : State :=
  s.hubReply m (replyBytes st detail rest)

end Sys2Proof.Machine
end

