-- ==== Sys2Proof/Machine/Cmd.lean ====
section
/-!
DEFINITION. Host commands in general (spec 15 R284, R286): when an accepted command may start, its arguments, and the reading of
its source data.
-/
namespace Sys2Proof.Machine

/-! ## Arguments (Table 15-11) -/

def Command.opc (c : Command) : Nat := c.desc.toNat % 256
def Command.fenced (c : Command) : Bool := nbit c.desc.toNat 8
def Command.noqueue (c : Command) : Bool := nbit c.desc.toNat 10
/-- The argument in descriptor bytes `o` to `o + n − 1`. -/
def Command.arg (c : Command) (o n : Nat) : Nat := c.desc.toNat / 2 ^ (8 * o) % 2 ^ (8 * n)

/-- The SQ that a handle names (R282). -/
def ringOf (h : Quad) : Nat := h.toNat / 2 ^ 48

/-- The set-up commands (R284). -/
def isSetup (opc : Nat) : Bool := (0x20 ≤ opc && opc ≤ 0x24) || opc == 0x30 || opc == 0x31

/-- The long operations of Table 15-11. -/
def isLong (opc : Nat) : Bool :=
  (0x32 ≤ opc && opc ≤ 0x35) || (0x40 ≤ opc && opc ≤ 0x42) || opc == 0x44

/-- The accepted command of a handle, of the given opcode, if it may start now (R284): every earlier command of its SQ has
started; with FENCE, every one is final; and a set-up command waits until every earlier set-up command is final. -/
def State.begins (s : State) (h : Quad) (opc : Nat) : Option Command :=
  match s.cmd? h with
  | none => none
  | some c =>
    let before := s.host.cmds.filter fun x => x.order < c.order
    let mine := before.filter fun x => ringOf x.handle == ringOf h
    let free := mine.all fun x => x.st != .accepted
    let fence := !c.fenced || mine.all fun x => x.st == .finished
    let setup := !isSetup opc || (before.filter fun x => isSetup x.opc).all fun x => x.st == .finished
    if c.st = .accepted ∧ c.opc = opc ∧ free ∧ fence ∧ setup then some c else none

/-- Mark a command as running. -/
def State.running (s : State) (h : Quad) : State := s.modCmd h fun c => { c with st := .running }

/-- Start a command: `f` is its effect. -/
def State.start (s : State) (h : Quad) (opc : Nat) (f : Command → State → State) : State :=
  match s.begins h opc with
  | none => s
  | some c => f c (s.running h)

/-! ## Source data (R286, R292) -/

/-- The refusal of a command. -/
def State.bad (s : State) (h : Quad) (detail : Half) : State := s.final h stBadDescriptor detail
def State.denied (s : State) (h : Quad) (detail : Half) : State := s.final h stNotPermitted detail

/-- The bytes that an address argument names: device memory, or what the host returned. Poison and errors are READ_ERR. -/
def State.source (s : State) (addr n : Nat) (src : HostData) : State × Except (Half × Half) (List Byte) :=
  if nbit addr 63 then
    let a := addr % 2 ^ 40
    if devSize < a + n then (s, .error (stBadDescriptor, dtAddress))
    else
      let (s, r) := s.readDev a n
      match r.fail with
      | some x => (s, .error x)
      | none => (s, if r.bad then .error (stBadDescriptor, dtReadErr) else .ok r.data)
  else match src with
    | none => (s, .error (stBadDescriptor, dtReadErr))
    | some bs => (s, .ok (padTo n bs))

/-- Run a command's body on its source data, or end it with the failure. -/
def State.withSource (s : State) (h : Quad) (addr n : Nat) (src : HostData) (f : List Byte → State → State) : State :=
  match s.source addr n src with
  | (s, .error x) => s.final h x.1 x.2
  | (s, .ok bs) => f bs s

/-- Write result bytes to an address argument: device memory, or host memory by CXL.io (R286). -/
def State.sink (s : State) (addr : Nat) (bs : List Byte) : State × Option (Half × Half) :=
  if nbit addr 63 then
    let a := addr % 2 ^ 40
    if devSize < a + bs.length then (s, some (stBadDescriptor, dtAddress)) else s.writeDev .hub a (bs.map some)
  else (s.emit (.hostWrite (addr % 2 ^ 52) bs), none)

/-- NOP (Table 15-11). -/
def doNop (h : Quad) (s : State) : State := s.start h 0x00 fun _ s => s.finalOk h []

end Sys2Proof.Machine
end

