-- ==== Sys2Proof/Machine/Job.lean ====
section
/-!
DEFINITION. The identity record and the group table (spec 11): set-up of the identity, installing, removing and adopting group
entries (R205 to R212), the port bindings of R210, and the state of group slots when ports fail (R213).
-/
namespace Sys2Proof.Machine

/-! ## Entries -/

def noPort : Nat := 0xFF

/-- A port field: a port, or none. -/
def portField (n : Nat) : Bool := n < 24 || n == noPort

/-- The member at a rank. -/
def GroupEntry.memberPos (e : GroupEntry) (r : Nat) : Word := ((e.members[r]?).map (·.pos)).getD 0

/-- The rank before and after this device's, round the ring (R209). -/
def GroupEntry.prevRank (e : GroupEntry) : Nat := (e.rank + e.members.length - 1) % e.members.length
def GroupEntry.nextRank (e : GroupEntry) : Nat := (e.rank + 1) % e.members.length

/-- The ports that an entry names, with the neighbours they reach (R210). -/
def GroupEntry.bindings (e : GroupEntry) : List (Nat × Word) :=
  (if e.prevPort < 24 then [(e.prevPort, e.memberPos e.prevRank)] else []) ++
  (if e.nextPort < 24 then [(e.nextPort, e.memberPos e.nextRank)] else [])

/-- The number of members that a group entry names is one it may name (Table 11-4). -/
def membersAllowed (m : Nat) : Bool := 2 ≤ m && m ≤ 4096

/-- Whether a reserved field of a group entry's 64 bytes is not zero. -/
def groupReserved (b : List Byte) : Bool := 4 ≤ byteAt b 3 || !allZero (slice b 21 43)

/-- Whether a reserved field of the member list is not zero. -/
def membersReserved (b : List Byte) : Bool :=
  (List.range (leAt b 16 2)).any fun i => 1 < byteAt b (68 + 8 * i) || !allZero (slice b (69 + 8 * i) 3)

/-- A group entry and its member list from its bytes (Tables 11-4, 11-5), or none for a reserved or disallowed value; no member may
have one of the positions that R205 sets aside. -/
def parseGroup (b : List Byte) : Option GroupEntry :=
  let m := leAt b 16 2
  let axis := byteAt b 2
  let e : GroupEntry := {
    gid := bytesHalf b 0, axis := axis, level := byteAt b 3, vc := byteAt b 4, parent := byteAt b 5
    prevPort := byteAt b 6, nextPort := byteAt b 7, layout := bytesWord b 8, memb := bytesWord b 12
    rank := leAt b 18 2, role := byteAt b 20
    members := (List.range m).map fun i => ⟨bytesWord b (64 + 8 * i), nbit (byteAt b (68 + 8 * i)) 0⟩ }
  let membersOk := e.members.all fun x => x.pos != 0 && x.pos != 0xFFFFFFFF#32
  if e.gid ≠ noGroup ∧ axis ≤ 2 ∧ e.level ≤ 2 ∧ e.vc = axis + 2 ∧ (e.parent < 64 ∨ e.parent = 0xFF) ∧
      portField e.prevPort ∧ portField e.nextPort ∧ membersAllowed m ∧ e.rank < m ∧ e.role < 4 ∧
      !groupReserved b ∧ !membersReserved b ∧ membersOk then some e else none

/-- The entry of a slot that a PARENT check is judged against: the staged entry when there is one. -/
def State.standing (s : State) (i : Nat) : Option GroupEntry :=
  match fin? 64 i with
  | some k => (s.grp k).staged.or (s.grp k).active
  | none => none

/-- The PARENT rule (R209, R212). -/
def parentOk (slot : Nat) (e : GroupEntry) (entry : Nat → Option GroupEntry) : Bool :=
  e.parent == 0xFF || (e.parent != slot && match entry e.parent with
    | some p => p.level == e.level + 1 && p.axis == e.axis && p.vc == e.vc && p.role == e.role
    | none => false)

/-- Whether an install must be refused with BAD_DESCRIPTOR (R209). -/
def State.installBad (s : State) (i : Fin 64) (e : GroupEntry) : Bool :=
  let ps := e.members.map (·.pos)
  let own := e.members[e.rank]?
  let others := (allFin 64).filter fun j => j != i
  let gids := (others.map fun j => [(s.grp j).active, (s.grp j).staged]).flatten.filterMap fun x => x.map (·.gid)
  let liveDiffers := match (s.grp i).active with
    | some a => a.memb == e.memb && (List.range (min a.members.length e.members.length)).any fun r =>
        (a.members[r]?).map (·.live) != (e.members[r]?).map (·.live)
    | none => false
  let count := fun (x : Option GroupEntry) => match x with
    | some e => e.members.length
    | none => 0
  let total := ((allFin 64).map fun j => count (s.grp j).active + (if j = i then e.members.length else count (s.grp j).staged)).sum
  !(own.map (·.pos) == some s.job.identity && own.map (·.live) == some true) || ps.eraseDups.length != ps.length ||
  !(match fin? 4 e.role with
    | some r => s.roleUsed r
    | none => false) ||
  gids.contains e.gid || !parentOk i.1 e s.standing || liveDiffers || 16384 < total

/-! ## Port bindings (R210) -/

/-- The Terti ports that a stage link names. -/
def StageLink.ports (l : StageLink) : List Nat :=
  [fget slePort0 l.reg, fget slePort1 l.reg, fget slePort2 l.reg, fget slePort3 l.reg].filter (· < 24)

def StageLink.partner (l : StageLink) : Word := BitVec.ofNat 32 (fget slePartner l.reg)

/-- The bindings of a stage link. -/
def StageLink.bindings (l : StageLink) : List (Nat × Word) :=
  if l.partner = 0 then [] else l.ports.map fun p => (p, l.partner)

/-- Every binding but those of groups: stage links, the buddy, and the owner of a held copy. -/
def State.otherBindings (s : State) : List (Nat × Word) :=
  let links := ((allFin 4).map fun r => (vget s.sle.up r).bindings ++ (vget s.sle.down r).bindings).flatten
  let buddy := if fget buddyPort s.fr.buddy = 0xFF then []
    else [(fget buddyPort s.fr.buddy, BitVec.ofNat 32 (fget buddyBuddyPos s.fr.buddy))]
  let hold := if fget holdState s.fr.hold = 0 then []
    else [(fget holdPort s.fr.hold, BitVec.ofNat 32 (fget holdOwner s.fr.hold))]
  links ++ buddy ++ hold

/-- The bindings of active group entries. -/
def State.groupBindings (s : State) : List (Nat × Word) :=
  ((allFin 64).map fun i => match (s.grp i).active with
    | some e => e.bindings
    | none => []).flatten

/-- Whether two bindings give one port two partners. -/
def clashing (l : List (Nat × Word)) : Bool := l.any fun a => l.any fun b => a.1 == b.1 && a.2 != b.2

/-- Set EXPECT of the bound ports. -/
def State.setExpects (s : State) (l : List (Nat × Word)) : State :=
  l.foldl (fun s b => match port? b.1 with
    | some p => s.modPort p fun x => { x with partner := fput partnerExpect b.2.toNat x.partner }
    | none => s) s

/-! ## Slot states (R213, Table 11-6) -/

/-- A port that is LOST, QUARANTINED or MISBOUND. -/
def State.portOut (s : State) (p : Nat) : Bool :=
  match port? p with
  | some p => 5 ≤ s.portState p && s.portState p ≤ 7
  | none => false

/-- GRP.STATUS for a slot's entries, with its ports judged as they are. -/
def State.groupStatus (s : State) (i : Fin 64) : Word :=
  let g := s.grp i
  let staged := fflag grpStaged g.staged.isSome 0
  match g.active with
  | none => staged
  | some e =>
    let was := fget grpState g.status == 2
    let poisoned := was && fget grpCause g.status == 2
    let names := e.bindings.map (·.1)
    let out := names.any fun p => s.portOut p
    let back := names.all fun p => match port? p with
      | some p => s.carries p
      | none => true
    let broken := out || (was && !back)
    let w := fput grpGroup e.gid.toNat staged
    if poisoned then fput grpCause 2 (fput grpState 2 w)
    else if broken then fput grpCause 1 (fput grpState 2 w) else fput grpState 1 w

def lgGroup : Nat := 6
def rpGroup : Nat := 8

/-- Bring every slot's state up to date after a port, or an entry, has changed. -/
def State.refreshGroups (s : State) : State :=
  forEach (allFin 64) (fun s i =>
    let g := s.grp i
    let w := s.groupStatus i
    let old := fget grpState g.status
    let now := fget grpState w
    let s := s.modJob fun j => { j with groups := vmod j.groups i fun x => { x with status := w } }
    if old = now ∨ (old = 0 ∧ now = 1) then s
    else
      let s := s.log .hub lgGroup [i.1, now]
      if now = 2 then s.emit (.report rpGroup [i.1]) else s) s

/-- A read of a slot's entry has met poison: BROKEN until a new adoption (R213). -/
def State.poisonGroup (s : State) (i : Fin 64) : State :=
  (s.modJob fun j => { j with groups := vmod j.groups i fun x =>
    { x with status := fput grpCause 2 (fput grpState 2 x.status) } }).emit (.report rpGroup [i.1])

/-! ## Chains (R212) -/

/-- The slots of a chain from a slot upwards. -/
def State.chainFrom (s : State) : Nat → Nat → List (Fin 64)
  | 0, _ => []
  | f + 1, i => match fin? 64 i with
    | none => []
    | some k => match (s.grp k).active with
      | none => []
      | some e => k :: s.chainFrom f e.parent

/-- The chain of at most three levels that starts at a slot. -/
def State.chain (s : State) (i : Nat) : List (Fin 64) := s.chainFrom 3 i

/-- The entries of a chain. -/
def State.chainEntries (s : State) (i : Nat) : List GroupEntry := (s.chain i).filterMap fun k => (s.grp k).active

/-! ## Commands -/

/-- SET_IDENTITY (Table 15-11): refused while a role slot or group slot is valid. -/
def doSetIdentity (h : Quad) (s : State) : State :=
  s.start h 0x20 fun c s =>
    let pos := c.arg 8 4
    if pos = 0xFFFFFFFF then s.bad h dtArgument
    else if (allFin 4).any (fun r => s.roleUsed r) ||
        (allFin 64).any fun i => (s.grp i).active.isSome || (s.grp i).staged.isSome then s.denied h dtState
    else (s.modJob fun j => { j with identity := BitVec.ofNat 32 pos }).finalOk h []

/-- GROUP_INSTALL (R207 to R209). -/
def doGroupInstall (h : Quad) (src : HostData) (s : State) : State :=
  match s.begins h 0x23 with
  | none => s
  | some c =>
    if c.arg 9 1 % 2 = 1 then s
    else match fin? 64 (c.arg 8 1) with
    | none => (s.running h).bad h dtArgument
    | some i =>
      (s.running h).withSource h (c.arg 16 8) 64 src fun b s =>
        if groupReserved b then s.bad h dtReserved
        else if !membersAllowed (leAt b 16 2) then s.bad h dtArgument
        else s.withSource h (c.arg 16 8) (64 + 8 * leAt b 16 2) src fun b s =>
          match parseGroup b with
          | none => s.bad h (if membersReserved b then dtReserved else dtArgument)
          | some e =>
            if s.installBad i e then s.bad h dtArgument
            else
              let old := (s.grp i).active
              let behind := match old with
                | some a => epochDiff e.layout a.layout < 0 || epochDiff e.memb a.memb < 0
                | none => false
              let same := match old with
                | some a => e.layout == a.layout && e.memb == a.memb
                | none => false
              if behind then s.denied h dtEpoch
              else if old = some e then s.finalOk h []
              else if same then s.denied h dtEpoch
              else
                ((s.modJob fun j => { j with groups := vmod j.groups i fun x => { x with staged := some e } }).refreshGroups).finalOk h []

/-- Whether a tally job in the job table is armed on a chain through the slot. -/
def State.jobOn (s : State) (i : Fin 64) : Bool :=
  s.tly.jobs.toList.any fun j => match j with
    | some t => (s.chain t.desc.slot).contains i || t.desc.slot == i.1
    | none => false

/-- Whether a job on a chain through the slot runs a step. -/
def State.jobRuns (s : State) (i : Fin 64) : Bool :=
  s.tly.jobs.toList.any fun j => match j with
    | some t => (s.chain t.desc.slot).contains i && match t.run with
      | some r => !r.recorded
      | none => false
    | none => false

/-- GROUP_INSTALL's removal of an active entry (R208, Table 15-11). -/
def doGroupRemove (h : Quad) (s : State) : State :=
  match s.begins h 0x23 with
  | none => s
  | some c =>
    if c.arg 9 1 % 2 = 0 then s
    else
      let s := s.running h
      match fin? 64 (c.arg 8 1) with
      | none => s.bad h dtArgument
      | some i =>
        if (s.grp i).active.isNone || s.jobOn i then s.denied h dtState
        else
          ((s.modJob fun j => { j with groups := vmod j.groups i fun x => { x with active := none } }).refreshGroups).finalOk h []

/-- Why an adoption of the staged entries of a mask must be refused (R207, R208, R210): BAD_DESCRIPTOR's detail, or the EPOCH
refusal. -/
def State.adoptError (s : State) (m : BitVec 64) : Option (Half × Half) :=
  let named := (allFin 64).filter fun i => m.getLsbD i.1
  let after := fun (i : Nat) => match fin? 64 i with
    | some k => if m.getLsbD i then (s.grp k).staged else (s.grp k).active
    | none => none
  let parents := named.all fun i => match (s.grp i).staged with
    | some e => parentOk i.1 e after
    | none => true
  let binds := ((allFin 64).map fun i => match after i.1 with
    | some e => e.bindings
    | none => []).flatten
  let behind := named.any fun i => match (s.grp i).staged, (s.grp i).active with
    | some e, some a => epochDiff e.layout a.layout < 0 || epochDiff e.memb a.memb < 0
    | _, _ => false
  if m = 0 then some (stBadDescriptor, dtArgument)
  else if named.any fun i => (s.grp i).staged.isNone then some (stBadDescriptor, dtArgument)
  else if !parents || clashing (binds ++ s.otherBindings) then some (stBadDescriptor, dtArgument)
  else if behind then some (stNotPermitted, dtEpoch)
  else none

/-- Adopt the staged entries of a mask (R206, R210): the entries, the ticks of the epochs that changed, EXPECT, and the slots'
states. -/
def State.adoptGroups (s : State) (m : BitVec 64) : State :=
  let s := forEach (allFin 64) (fun s i =>
    let g := s.grp i
    match m.getLsbD i.1, g.staged with
    | true, some e =>
      let lay := (g.active.map (·.layout)) != some e.layout
      let mem := (g.active.map (·.memb)) != some e.memb
      let g' : GroupSlot := { active := some e, staged := none, status := 0
                              layoutTick := if lay then s.aon else g.layoutTick
                              membTick := if mem then s.aon else g.membTick }
      (s.modJob fun j => { j with groups := vset j.groups i g' }).setExpects e.bindings
    | _, _ => s) s
  s.refreshGroups

end Sys2Proof.Machine
end

