-- ==== Sys2Proof/Machine/Wvt.lean ====
section
/-!
DEFINITION. The weight version table (spec 12, Weight versions): installing entries, the role ranges, live versions and
pins (R229, R230), the commit flip, and the HUBOPs LOOKUP and OPEN_PENDING (R231).
-/
namespace Sys2Proof.Machine

/-! ## HUBOP messages in general (spec 06 R121, spec 12 R222) -/

def unitMbq : Nat := 5
def unitWvt : Nat := 6

/-- The first message of a die to a unit, if its function is not one of the unit's. -/
def State.hubOdd? (s : State) (d : Fin 4) (unit : Nat) (known : List Nat) : Option HubMsg :=
  match s.hubMsgs.find? fun m => m.die == d && m.unit == unit with
  | some m => if known.contains (byteAt m.bytes 1) then none else some m
  | none => none

/-- A refusal of a message. -/
def State.answerBad (s : State) (m : HubMsg) (detail : Half) : State := s.answer m stBadDescriptor detail
def State.answerDenied (s : State) (m : HubMsg) (detail : Half) : State := s.answer m stNotPermitted detail

/-! ## Entries and ranges -/

/-- The first index and the count of a role's range. -/
def Wvt.first (w : Wvt) (r : Fin 4) : Nat := fget rangeFirst (vget w.ranges r)
def Wvt.count (w : Wvt) (r : Fin 4) : Nat := fget rangeCount (vget w.ranges r)

/-- Whether an entry index lies in a role's range. -/
def Wvt.has (w : Wvt) (r : Fin 4) (i : Nat) : Bool := w.first r ≤ i && i < w.first r + w.count r

/-- The entries of a role. -/
def Wvt.entriesOf (w : Wvt) (r : Fin 4) : List WvtEntry := (w.entries.filter fun x => w.has r x.1).map (·.2)

/-- Change every entry of a role, in one FCLK cycle. -/
def Wvt.modEntries (w : Wvt) (r : Fin 4) (f : WvtEntry → WvtEntry) : Wvt :=
  { w with entries := w.entries.map fun x => if w.has r x.1 then (x.1, f x.2) else x }

/-- Whether a buffer holds a version live (R229). -/
def WvtBuf.live (b : WvtBuf) (v : Word) : Bool :=
  b.version == v && (b.st == .committed || b.st == .old && b.pins != 0)

/-- Whether a version is live in an entry. -/
def WvtEntry.live (e : WvtEntry) (v : Word) : Bool := e.bufs.any fun b => b.live v

/-- The role's committed version: that of its first entry, or, with an empty range, the value kept for it (log entry 25). -/
def Wvt.committed (w : Wvt) (r : Fin 4) : Word :=
  match (w.entriesOf r).head? with
  | some e => ((e.bufs.find? fun b => b.st == .committed).map (·.version)).getD (vget w.emptyVer r)
  | none => vget w.emptyVer r

/-- Whether any entry of a role holds a pin (R236). -/
def Wvt.pinned (w : Wvt) (r : Fin 4) : Bool := (w.entriesOf r).any fun e => e.bufs.any fun b => b.pins != 0

/-! ## Pins (R230) -/

/-- Apply to the first buffer that satisfies a predicate. -/
def onFirst {α : Type} (p : α → Bool) (f : α → α) : List α → List α
  | [] => []
  | a :: r => if p a then f a :: r else a :: onFirst p f r

/-- Pin a version in every entry of a role's range. -/
def Wvt.pin (w : Wvt) (r : Fin 4) (v : Word) : Wvt :=
  w.modEntries r fun e => { e with bufs := onFirst (fun b => b.live v) (fun b => { b with pins := b.pins + 1 }) e.bufs }

/-- One pin less; an OLD buffer without pins becomes EMPTY. -/
def WvtBuf.unpin (b : WvtBuf) : WvtBuf :=
  let n := b.pins - 1
  if b.st == .old && n == 0 then { b with pins := 0, st := .empty } else { b with pins := n }

/-- Release a micro-batch's pin in every entry of its role. -/
def Wvt.unpin (w : Wvt) (r : Fin 4) (v : Word) : Wvt :=
  w.modEntries r fun e => { e with bufs := onFirst (fun b => b.live v && b.pins != 0) WvtBuf.unpin e.bufs }

/-! ## The commit flip (R231) -/

/-- What a commit does to a buffer. -/
def WvtBuf.commit (b : WvtBuf) : WvtBuf :=
  match b.st with
  | .pending => { b with st := .committed }
  | .committed => if b.pins = 0 then { b with st := .empty } else { b with st := .old }
  | _ => b

/-- What an abort does to a buffer. -/
def WvtBuf.abort (b : WvtBuf) : WvtBuf := if b.st == .pending then { b with st := .empty } else b

/-- Commit or abort a role's pending version, in one FCLK cycle. -/
def Wvt.flip (w : Wvt) (r : Fin 4) (commit : Bool) : Wvt :=
  let w' := w.modEntries r fun e => { e with bufs := e.bufs.map (if commit then WvtBuf.commit else WvtBuf.abort) }
  { w' with
    emptyVer := if commit then vset w.emptyVer r ((vget w.pendingVer r).getD (w.committed r)) else w.emptyVer
    pendingVer := vset w.pendingVer r none }

/-! ## WVT_INSTALL (spec 15 Table 15-13) -/

/-- An entry from its 128 bytes: none in place of the entry with the detail of the refusal. -/
def parseWvtEntry (b : List Byte) : Except Half WvtEntry :=
  let n := byteAt b 8
  let c := byteAt b 9
  let buf := fun (i : Nat) => (⟨leAt b (16 + 24 * i) 8, leAt b (24 + 24 * i) 8, leAt b (32 + 24 * i) 8,
    if i = c then bytesWord b 12 else 0, 0, if i = c then .committed else .empty⟩ : WvtBuf)
  if !(allZero (slice b 10 2) && allZero (slice b 112 16)) then .error dtReserved
  else if n < 2 ∨ 4 < n ∨ n ≤ c ∨ !allZero (slice b (16 + 24 * n) (96 - 24 * n)) then .error dtArgument
  else .ok ⟨bytesWord b 0, bytesWord b 4, (List.range n).map buf⟩

/-- The entries of a table, or the detail of the first refusal. -/
def parseWvtTable (n : Nat) (b : List Byte) : Except Half (List WvtEntry) :=
  (List.range n).foldl (fun acc i => match acc, parseWvtEntry (slice b (128 * i) 128) with
    | .ok l, .ok e => .ok (l ++ [e])
    | .ok _, .error x => .error x
    | .error x, _ => .error x) (.ok [])

/-- WVT_INSTALL (R236): refused while an entry it replaces holds a pin. -/
def doWvtInstall (h : Quad) (src : HostData) (s : State) : State :=
  s.start h 0x22 fun c s =>
    let first := c.arg 8 2
    let n := c.arg 10 2
    if n = 0 ∨ 4096 < first + n then s.bad h dtArgument
    else if s.wvt.entries.any fun x => first ≤ x.1 && x.1 < first + n && x.2.bufs.any (fun b => b.pins != 0) then
      s.denied h dtState
    else s.withSource h (c.arg 16 8) (128 * n) src fun b s =>
      match parseWvtTable n b with
      | .error x => s.bad h x
      | .ok l =>
        let new := (List.range n).zip l
        (s.modWvt fun w => { w with
          entries := new.foldl (fun es x => sput es (first + x.1) x.2) w.entries }).finalOk h []

/-! ## HUBOPs (Table 12-15) -/

/-- The code of a buffer state in a LOOKUP reply. -/
def BufState.code : BufState → Nat
  | .empty => 0
  | .pending => 1
  | .committed => 2
  | .old => 3

/-- LOOKUP; a message with a function that the WVT does not have is refused here. -/
def doLookup (d : Fin 4) (s : State) : State :=
  match s.hubOdd? d unitWvt [1, 2, 3, 4] with
  | some m => s.answerBad m dtOpcode
  | none => match s.hubMsg? d unitWvt 1 with
  | none => s
  | some m =>
    let e := leAt m.bytes 2 2
    let v := bytesWord m.bytes 4
    if !allZero (m.bytes.drop 8) then s.answerBad m dtReserved
    else if 4096 ≤ e then s.answerBad m dtArgument
    else match sget s.wvt.entries e with
    | none => s.answer m stVersionGone (BitVec.ofNat 16 e)
    | some x =>
      match x.bufs.findIdx? fun b => b.version == v && b.st != .empty with
      | none => s.answer m stVersionGone (BitVec.ofNat 16 e)
      | some i =>
        match x.bufs[i]? with
        | none => s
        | some b => s.answer m stOk 0 (natLe 1 i ++ natLe 1 b.st.code ++ natLe 2 (min b.pins 0xFFFF))

/-- The index of the buffer of an entry that a pending version takes: an EMPTY one; `n` makes the choice among several, which the
spec leaves open (log entry 27). -/
def WvtEntry.pick (e : WvtEntry) (n : Nat) : Nat :=
  let l := (List.range e.bufs.length).filter fun i => (e.bufs[i]?).map (·.st) == some .empty
  l.getD (n % l.length) 0

/-- Open the pending version v + 1 in an EMPTY buffer of every entry. -/
def Wvt.openPending (w : Wvt) (r : Fin 4) (n : Nat) : Wvt :=
  let v := w.committed r + 1
  let up := fun (b : WvtBuf) => { b with st := .pending, version := v, pins := 0 }
  let w' := w.modEntries r fun e => { e with bufs := e.bufs.modify (e.pick n) up }
  { w' with pendingVer := vset w.pendingVer r (some v) }

/-- OPEN_PENDING (R231). -/
def doOpenPending (d : Fin 4) (s : State) : State :=
  match s.hubMsg? d unitWvt 2 with
  | none => s
  | some m =>
    if !allZero (m.bytes.drop 3) then s.answerBad m dtReserved
    else match fin? 4 (byteAt m.bytes 2) with
    | none => s.answerBad m dtArgument
    | some r =>
      if !s.roleUsed r || (vget s.wvt.pendingVer r).isSome then s.answerDenied m dtState
      else
        let es := s.wvt.entriesOf r
        if es.any fun e => e.bufs.all fun b => b.st != .empty then s.answer m stConflict (part 0 6)
        else
          let (n, s) := s.fresh 12
          let i := (es.head?.map (·.pick n)).getD 0
          (s.modWvt fun w => w.openPending r n).answer m stOk 0 (natLe 1 i)

/-- Set a role's range at its adoption. A pending version does not outlive a change of range (its buffers become EMPTY), and the committed version
of an empty range is free until a commit gives one (log entry 25). -/
def State.setRange (s : State) (r : Fin 4) (w : Word) : State :=
  if vget s.wvt.ranges r = w then s
  else
    let (v, s) := s.fresh (2 ^ 32)
    (s.modWvt fun x => x.flip r false).modWvt fun x => { x with
      ranges := vset x.ranges r w
      emptyVer := if fget rangeCount w = 0 then vset x.emptyVer r (BitVec.ofNat 32 v) else x.emptyVer }

end Sys2Proof.Machine
end

