-- ==== Sys2Proof/Machine/Sle.lean ====
section
/-!
DEFINITION. The stage links (spec 12): their states, credits and QCREDIT (R215, R218), the outputs they carry and the
segments of an output (R216), and what an acknowledgement, a lost port or a returned port does to them (R235).
-/
namespace Sys2Proof.Machine

/-! ## Links -/

/-- A role's link: downstream for `fwd`, upstream for `bwd`. -/
def State.link (s : State) (r : Fin 4) (d : Dir) : StageLink :=
  match d with
  | .fwd => vget s.sle.down r
  | .bwd => vget s.sle.up r

def State.modLink (s : State) (r : Fin 4) (d : Dir) (f : StageLink → StageLink) : State :=
  match d with
  | .fwd => s.modSle fun x => { x with down := vmod x.down r f }
  | .bwd => s.modSle fun x => { x with up := vmod x.up r f }

def StageLink.exists_ (l : StageLink) : Bool := l.partner != 0

def StageLink.epoch (l : StageLink) : Word := BitVec.ofNat 32 (fget sleEpoch l.reg)

/-- Every link: role and direction. -/
def allLinks : List (Fin 4 × Dir) := (allFin 4).map (fun r => (r, Dir.fwd)) ++ (allFin 4).map fun r => (r, Dir.bwd)

/-- The carrying ports of a link, in ascending order (R216). -/
def State.linkPorts (s : State) (l : StageLink) : List (Fin 24) :=
  (allFin 24).filter fun p => l.ports.contains p.1 && s.carries p

/-- The stage at the other end of a role's link: stages are consecutive (R218). -/
def State.partnerStage (s : State) (r : Fin 4) (d : Dir) : Half :=
  match d with
  | .fwd => s.stageOf r + 1
  | .bwd => s.stageOf r - 1

def lkNone : Nat := 0
def lkUp : Nat := 1
def lkPartial : Nat := 2
def lkDown : Nat := 3
def lkStale : Nat := 4

def StageLink.state (l : StageLink) : Nat := fget sleState l.reg

/-- STATE of a link, as its ports stand (Table 12-1). -/
def State.linkState (s : State) (l : StageLink) : Nat :=
  if !l.exists_ then lkNone
  else if l.staleTo.isSome then lkStale
  else if (s.linkPorts l).isEmpty then lkDown
  else if (s.linkPorts l).length = l.ports.eraseDups.length then lkUp
  else lkPartial

/-! ## Credits (R218) -/

/-- Queue a role's QCREDIT to a partner position, with the grant of each of its links that reaches it. -/
def State.sendQcredit (s : State) (r : Fin 4) (pos : Word) : State :=
  let up := vget s.sle.up r
  let down := vget s.sle.down r
  let grant := fun (l : StageLink) => if l.partner == pos then l.granted else 0
  let ports := (if up.partner == pos then s.linkPorts up else []) ++ (if down.partner == pos then s.linkPorts down else [])
  match ports with
  | [] => s
  | p :: _ =>
    s.send p ⟨{ s.hdr pos vcCtl kQcredit 8 with stage := s.stageOf r, roleEpoch := s.roleEpoch r },
      natLe 2 (grant up) ++ natLe 2 (grant down) ++ [0, 0, 0, 0]⟩ .mbq

/-- Grant entries on a link, and say so. -/
def State.grant (s : State) (r : Fin 4) (d : Dir) (n : Nat) : State :=
  let l := s.link r d
  if !l.exists_ || n = 0 then s
  else (s.modLink r d fun x => { x with granted := (x.granted + n) % 65536 }).sendQcredit r l.partner

/-- The credit of a link: micro-batches that may still be started. -/
def StageLink.credit (l : StageLink) : Nat := (l.partnerGranted + 65536 - l.started) % 65536

/-! ## Outputs (R216) -/

/-- How many segments an output has; a payload of 0 bytes takes one message. -/
def Output.segments (o : Output) : Nat := if o.bytes = 0 then 1 else (o.bytes + o.seg - 1) / o.seg

def Output.kindCode (o : Output) : Nat :=
  match o.kind with
  | .fwdAct => kFwdAct
  | .bwdGrad => kBwdGrad
  | .mbDrop _ => kMbDrop

def Output.isFor (o : Output) (step mb : Word) : Bool := o.step == step && o.mb == mb

/-- Whether a segment remains to be sent. -/
def Output.owes (o : Output) : Bool := !o.again.isEmpty || o.next < o.segments

/-- The payload bytes of a segment: read where the output lies; poisoned bytes and those that cannot be read are free
(log entry 26). -/
def State.segmentData (s : State) (o : Output) (off n : Nat) : State × List Byte :=
  match o.kind with
  | .mbDrop c => (s, natLe 2 c ++ List.replicate 6 0)
  | _ =>
    let (s, r) := if o.onStack then s.readDev (o.addr + off) n else s.readHub (o.addr + off) n
    if r.bad || r.fail.isSome then
      let (fr, s) := s.freshBytes n
      (s, (r.bytes.zip fr).map fun x => x.1.getD x.2)
    else (s, r.data)

/-- Send one segment of an output on the carrying port that R216 names. -/
def State.sendSegment (s : State) (r : Fin 4) (d : Dir) (o : Output) (i : Nat) (resend : Bool) : State :=
  let l := s.link r d
  let ports := s.linkPorts l
  match ports[i % ports.length]? with
  | none => s
  | some p =>
    let off := i * o.seg
    let n := min o.seg (o.bytes - off)
    let (s, bs) := s.segmentData o off n
    let h : Header := { s.hdr l.partner (match d with | .fwd => vcFwd | .bwd => vcBwd) o.kindCode n with
      roleEpoch := l.epoch, stage := s.partnerStage r d, step := o.step, mbId := o.mb, wver := o.wver
      offset := off, flags := hflags o.eval (i + 1 == o.segments) false resend }
    s.send p ⟨h, bs⟩ (.sle r d)

/-- Replace the first output of a link that satisfies a predicate. -/
def State.modOutput (s : State) (r : Fin 4) (d : Dir) (p : Output → Bool) (f : Output → Output) : State :=
  s.modLink r d fun l => { l with outputs := onFirst p f l.outputs }

/-- Add an output at the end of a link's queue. -/
def State.addOutput (s : State) (r : Fin 4) (d : Dir) (o : Output) : State :=
  s.modLink r d fun l => { l with outputs := l.outputs ++ [o] }

/-- Whether an output may send now: segments returned by a lost port always, new segments once it is started, and a start
only with credit and in order. -/
def Output.ready (o : Output) (credit : Nat) : Bool := o.owes && (o.started || credit != 0)

/-- The output that a link sends from next: the first that owes a segment; one that waits for credit holds those behind it,
but not segments that must be sent again. -/
def StageLink.nextOutput (l : StageLink) : Option Output :=
  match l.outputs.find? fun o => o.owes && o.started with
  | some o => some o
  | none => match l.outputs.find? (·.owes) with
    | some o => if o.ready l.credit then some o else none
    | none => none

/-- STAGE_LINK_SEND (R216, R218): the link's next output sends what it owes: returned segments with RESEND, then the rest. Its
first segment takes a credit. -/
def doStageLinkSend (r : Fin 4) (d : Dir) (s : State) : State :=
  let l := s.link r d
  if l.state ≠ lkUp ∧ l.state ≠ lkPartial then s
  else if (s.linkPorts l).isEmpty then s
  else match l.nextOutput with
  | none => s
  | some o =>
    let s := if o.started then s else s.modLink r d fun x => { x with started := (x.started + 1) % 65536 }
    let rest := (List.range (o.segments - o.next)).map (· + o.next)
    let s := forEach o.again (fun s off => s.sendSegment r d o (off / o.seg) true) s
    let s := forEach rest (fun s i => s.sendSegment r d o i o.resend) s
    let sent := fun (x : Output) =>
      { x with started := true, next := x.segments, again := [], unacked := x.unacked ++ x.again ++ rest.map (· * x.seg) }
    s.modOutput r d (fun x => x == o) sent

/-! ## Acknowledgement, loss and return (R196, R235) -/

/-- An output's segment has been acknowledged. With the last one, its slot learns of it and its post is made. -/
def State.sleAcked (s : State) (r : Fin 4) (d : Dir) (h : Header) : State :=
  let hit := fun (o : Output) => o.isFor h.step h.mbId && o.kindCode == h.kind && o.unacked.contains h.offset
  match (s.link r d).outputs.find? hit with
  | none => s
  | some o =>
    let o' := { o with unacked := o.unacked.erase h.offset }
    if o'.owes || !o'.unacked.isEmpty then s.modOutput r d (fun x => x == o) fun _ => o'
    else
      let s := s.modOutput r d (fun x => x == o) fun _ => { o' with acked := true, slot := none, post := none }
      let s := match o.slot with
        | some k => s.modMbq fun m => { m with slots := vmod m.slots k fun x => { x with acked := true } }
        | none => s
      match o.post with
      | some (die, sem) => s.postTo die (semIdx sem)
      | none => s

/-- A segment came back with PORT_LOST: it is sent again on a carrying port. -/
def State.sleReturned (s : State) (r : Fin 4) (d : Dir) (h : Header) : State :=
  s.modOutput r d (fun o => o.isFor h.step h.mbId && o.kindCode == h.kind && o.unacked.contains h.offset) fun o =>
    { o with unacked := o.unacked.erase h.offset, again := o.again ++ [h.offset] }

/-- An output that will be sent from OFFSET 0 again, with or without RESEND. -/
def Output.restart (o : Output) (resend : Bool) : Output :=
  { o with next := 0, unacked := [], again := [], resend := resend, bounced := false, acked := false }

def lgLink : Nat := 7
def rpLinkDown : Nat := 9
def rpRoleStale : Nat := 10
def rpLinkNack : Nat := 11

/-- Bring a link's STATE up to date. A link that comes back from DOWN resends every micro-batch that it holds from OFFSET 0,
with RESEND = 1, and sends QCREDIT (Table 12-17). -/
def State.refreshLink (s : State) (r : Fin 4) (d : Dir) : State :=
  let l := s.link r d
  let new := s.linkState l
  if new = l.state then s
  else
    let s := s.modLink r d fun x => { x with reg := fput sleState new x.reg }
    let s := s.log .hub lgLink [r.1, (match d with | .fwd => 0 | .bwd => 1), new]
    let s := if new = lkDown then s.emit (.report rpLinkDown [r.1, l.partner.toNat]) else s
    if l.state = lkDown ∧ (new = lkUp ∨ new = lkPartial) then
      let again := fun (o : Output) => if o.started && !o.acked then o.restart true else o
      (s.modLink r d fun x => { x with outputs := x.outputs.map again }).sendQcredit r l.partner
    else s

def State.refreshLinks (s : State) : State := forEach allLinks (fun s x => s.refreshLink x.1 x.2) s

/-! ## Installing a link (R215, R218) -/

/-- The image of a link that an install writes: its fields without STATE. -/
abbrev LinkImage := BitVec 128

/-- Why R215 refuses a link image with BAD_DESCRIPTOR, the binding rule apart: its ports, its partner, its epoch. -/
def State.linkBad (s : State) (stage : Half) (d : Dir) (w : LinkImage) : Bool :=
  let l : StageLink := { StageLink.reset with reg := w }
  let fields := [fget slePort0 w, fget slePort1 w, fget slePort2 w, fget slePort3 w]
  let named := fields.filter (· != noPort)
  let there : Half := match d with
    | .fwd => stage + 1
    | .bwd => stage - 1
  let behind := s.sle.heard.any fun x => x.pos == l.partner && x.stage == there && epochDiff l.epoch x.epoch < 0
  !(named.all (· < 24)) || named.eraseDups.length != named.length || l.partner == noPos ||
  (l.partner == 0) != named.isEmpty || (l.partner != 0 && behind)

/-- Whether an install removes a link, or changes its partner, under an output that is not yet acknowledged. -/
def State.linkBusy (s : State) (r : Fin 4) (d : Dir) (w : LinkImage) : Bool :=
  let l := s.link r d
  l.exists_ && BitVec.ofNat 32 (fget slePartner w) != l.partner && l.outputs.any fun o => !o.acked

/-- Whether an install restarts a link's three counts (R218). -/
def State.linkRestarts (s : State) (r : Fin 4) (d : Dir) (w : LinkImage) (rose : Bool) : Bool :=
  let l := s.link r d
  rose || fget sleEpoch w != fget sleEpoch l.reg || fget slePartner w != fget slePartner l.reg

/-- Write a link image. A STALE link resumes when EPOCH has come up: what was bounced or held is sent again from OFFSET 0 as a new
micro-batch (Table 12-17). -/
def State.putLink (s : State) (r : Fin 4) (d : Dir) (w : LinkImage) (rose : Bool) : State :=
  let re := s.linkRestarts r d w rose
  let put := fun (l : StageLink) =>
    let l := { l with reg := fput sleState l.state w }
    let l := if re then { l with started := 0, granted := 0, partnerGranted := 0 } else l
    if !l.exists_ then { l with outputs := [], staleTo := none }
    else match l.staleTo with
      | none => l
      | some e =>
        if epochDiff l.epoch e < 0 then l
        else
          let again := fun (o : Output) => if o.bounced || !o.acked then { o.restart false with started := false } else o
          { l with staleTo := none, outputs := l.outputs.map again }
  (s.modLink r d put).refreshLink r d

end Sys2Proof.Machine
end

