-- ==== Sys2Proof/Machine/Mbq.lean ====
section
/-!
DEFINITION. The micro-batch queue manager (spec 12, spec 11 R214): queue entries and their payload (R219, R220), credits and the
stash budget (R214, R218), active slots and their records (R221), binding (R224 to R229), stash records (R227, R228), the HUBOPs of
Table 12-9, and drops (R223, R234).
-/
namespace Sys2Proof.Machine

/-! ## Names -/

def slFree : Nat := 0
def slFwdWait : Nat := 1
def slFwdRun : Nat := 2
def slStashed : Nat := 3
def slBwdWait : Nat := 4
def slBwdRun : Nat := 5
def slDone : Nat := 6
def slDropped : Nat := 7

def dcVersionGone : Nat := 1
def dcVersionMismatch : Nat := 2
def dcNoStash : Nat := 3
def dcExhausted : Nat := 4
def dcOversize : Nat := 5
def dcStepStale : Nat := 6
def dcProgram : Nat := 7
def dcDieLost : Nat := 8
def dcPoisoned : Nat := 9
def dcUpstream : Nat := 10
def dcRoleRemoved : Nat := 11
def dcRefused : Nat := 12

/-- The status and detail that a drop cause gives a HUBOP (Table 12-8). -/
def dropStatus (c : Nat) : Half × Half :=
  if c = dcVersionGone ∨ c = dcVersionMismatch then (stVersionGone, 0)
  else if c = dcOversize then (stBadDescriptor, dtArgument)
  else if c = dcProgram ∨ c = dcUpstream ∨ c = dcRoleRemoved then (stCancelled, 0)
  else if c = dcDieLost then (stDieLost, 0)
  else if c = dcPoisoned then (stPoisoned, part 0 12)
  else (stNotPermitted, dtState)

def State.mq (s : State) (r : Fin 4) : RoleQueue := vget s.mbq.roles r
def State.modMq (s : State) (r : Fin 4) (f : RoleQueue → RoleQueue) : State :=
  s.modMbq fun m => { m with roles := vmod m.roles r f }
def State.slot (s : State) (i : Fin 16) : Slot := vget s.mbq.slots i
def State.modSlot (s : State) (i : Fin 16) (f : Slot → Slot) : State :=
  s.modMbq fun m => { m with slots := vmod m.slots i f }

def RoleQueue.queue (q : RoleQueue) (d : Dir) : List QEntry :=
  match d with
  | .fwd => q.fq
  | .bwd => q.bq

def RoleQueue.setQueue (q : RoleQueue) (d : Dir) (l : List QEntry) : RoleQueue :=
  match d with
  | .fwd => { q with fq := l }
  | .bwd => { q with bq := l }

def RoleQueue.depth (q : RoleQueue) (d : Dir) : Nat :=
  match d with
  | .fwd => fget rcfgFqDepth q.cfgNow
  | .bwd => fget rcfgBqDepth q.cfgNow

/-- The payload register in effect for a queue (Table 12-4). -/
def RoleQueue.pay (q : RoleQueue) (d : Dir) : Quad :=
  match d with
  | .fwd => q.fpayNow
  | .bwd => q.bpayNow

/-- The link on which a queue's entries arrive: forward entries from upstream, backward entries from downstream. -/
def inLink : Dir → Dir
  | .fwd => .bwd
  | .bwd => .fwd

def RoleQueue.step (q : RoleQueue) : Word := BitVec.ofNat 32 (fget stepStep q.stepStat)
def RoleQueue.sync (q : RoleQueue) : Bool := !fon rcfgVmode q.cfgNow
def RoleQueue.mbPerStep (q : RoleQueue) : Nat := fget rcfgMbPerStep q.cfgNow

def Slot.running (x : Slot) : Bool := x.state == slFwdRun || x.state == slBwdRun
def Slot.waiting (x : Slot) : Bool := x.state == slFwdWait || x.state == slBwdWait

/-- The queue whose entry a slot holds. -/
def Slot.dir (x : Slot) : Dir := if x.state == slFwdWait || x.state == slFwdRun then .fwd else .bwd

/-- Whether a slot holds the micro-batch of a key. -/
def Slot.isFor (x : Slot) (r : Fin 4) (step mb : Word) (eval : Bool) : Bool :=
  x.state != slFree && x.role == r && x.step == step && x.mb == mb && x.eval == eval

def StashRec.isFor (x : StashRec) (r : Fin 4) (step mb : Word) : Bool := x.role == r && x.step == step && x.mb == mb

/-! ## Credits and the stash budget (R214, R218) -/

/-- Whether R214 lets a forward credit be granted now. -/
def State.budgetOk (s : State) (r : Fin 4) : Bool :=
  let q := s.mq r
  let used := fget stashUseUsed q.stashUse
  let est := max (fget stashMbPerMbMax q.stashMb) (fget stashCfgPerMbInit q.stashCfg)
  fget stashCfgBudget q.stashCfg == 0 || used == 0 || used + est ≤ fget stashCfgBudget q.stashCfg

/-- Grant the freed forward entries whose credit was withheld, if R214 lets it. -/
def State.regrant (s : State) (r : Fin 4) : State :=
  let n := (s.mq r).fOwed
  if n = 0 || !s.budgetOk r then s else (s.modMq r fun q => { q with fOwed := 0 }).grant r .bwd n

/-- Entries of a queue have been freed: their credits go to the sender (R218); a training forward's only under R214. -/
def State.grantFreed (s : State) (r : Fin 4) (d : Dir) (n : Nat) (eval : Bool) : State :=
  match d with
  | .bwd => s.grant r .fwd n
  | .fwd =>
    if eval || !(s.link r .bwd).exists_ then s.grant r .bwd n
    else (s.modMq r fun q => { q with fOwed := q.fOwed + n }).regrant r

/-- The entry indices in use: by entries of the queue and by the slots bound to them. -/
def State.usedIdx (s : State) (r : Fin 4) (d : Dir) : List Nat :=
  ((s.mq r).queue d).map (·.idx) ++
  (s.mbq.slots.toList.filter fun x => x.state != slFree && x.role == r && x.dir == d).filterMap (·.entry)

def State.freeIdx (s : State) (r : Fin 4) (d : Dir) : List Nat :=
  let used := s.usedIdx r d
  (List.range ((s.mq r).depth d)).filter fun i => !used.contains i

/-- Restart the grants of a queue: every free entry, less any withholding (R218). -/
def State.grantAll (s : State) (r : Fin 4) (d : Dir) : State :=
  let s := match d with
    | .fwd => s.modMq r fun q => { q with fOwed := 0 }
    | .bwd => s
  s.grantFreed r d (s.freeIdx r d).length false

/-- Grant the credit of one freed entry, unless its index lies beyond the depth now in effect. -/
def State.entryFreed (s : State) (r : Fin 4) (d : Dir) (i : Nat) (eval : Bool) : State :=
  if i < (s.mq r).depth d then s.grantFreed r d 1 eval else s

/-- Bring USED and PEAK up to date with the role's records (Table 11-8), then decide on withheld credits. -/
def State.restash (s : State) (r : Fin 4) : State :=
  let used := ((s.mbq.records.filter fun x => x.role == r).map fun x => x.extents.length).sum
  (s.modMq r fun q =>
    { q with stashUse := fput stashUsePeak (max (fget stashUsePeak q.stashUse) used) (fput stashUseUsed used q.stashUse) }).regrant r

/-! ## Slot records (R221, Table 12-5) and the drop log (Table 12-13) -/

/-- Where slot records begin in hub SRAM. -/
def State.slotBase (s : State) : Nat := fget mbqBaseSlot s.mbq.base * 4096

def Slot.flags (x : Slot) : Nat := b2n x.eval + 2 * b2n x.isLocal + 4 * b2n x.generated

def Slot.record (x : Slot) : List Byte :=
  natLe 4 x.mb.toNat ++ natLe 4 x.step.toNat ++ natLe 4 x.wver.toNat ++ natLe 1 x.state ++ natLe 1 x.role.1 ++
  natLe 1 x.flags ++ natLe 1 x.cause ++ natLe 2 (x.entry.getD 0xFFFF) ++ natLe 2 (x.stash.getD 0xFFFF) ++
  natLe 4 x.len ++ natLe 8 x.payHub ++ natLe 8 x.paySpill ++ List.replicate 24 0

def State.putSlot (s : State) (i : Fin 16) : State := s.putHub (s.slotBase + 64 * i.1) (s.slot i).record

/-- Change a slot and write its record. -/
def State.setSlot (s : State) (i : Fin 16) (f : Slot → Slot) : State := (s.modSlot i f).putSlot i

def lgDrop : Nat := 8

/-- One drop in the drop log. -/
def State.dropLog (s : State) (r : Fin 4) (step mb wver : Word) (eval : Bool) (cause : Nat) : State :=
  let n := fget mbqBaseDropTotal s.mbq.base
  let e := natLe 4 mb.toNat ++ natLe 4 step.toNat ++ natLe 4 wver.toNat ++ natLe 1 r.1 ++ natLe 1 cause ++
    natLe 1 (b2n eval) ++ [0]
  let s := s.putHub (s.slotBase + 1024 + 16 * (n % 256)) e
  (s.modMbq fun m => { m with base := fwrap mbqBaseDropTotal 1 m.base }).log .hub lgDrop [r.1, step.toNat, mb.toNat, cause]

/-! ## Step counts (R225) -/

/-- The 128 B record of a step snapshot (spec 20 Table 20-3). -/
def State.snapRecord (s : State) (r : Fin 4) (d : Fin 4) : List Byte :=
  let x := (s.die d).regs
  natLe 4 (s.mq r).step.toNat ++ natLe 1 r.1 ++ natLe 1 d.1 ++ natLe 2 0 ++ natLe 8 s.aon ++ natLe 8 x.active.toNat ++
    (x.idle.toList.map fun v => natLe 8 v.toNat).flatten ++ natLe 24 0

/-- A step snapshot (spec 20 R342): at a step increment of the role that TELE.SNAP_CFG names, one record for each of its dies that serves. -/
def State.stepSnapshot (s : State) (r : Fin 4) : State :=
  if !fon snapEnable s.snapCfg ∨ fget snapRole s.snapCfg ≠ r.1 then s
  else forEach ((allFin 4).filter fun d => nbit (fget rcfgDies (s.mq r).cfgNow) d.1 && s.dieServes d) (fun s d =>
    let i := fget snapIndex s.snapCfg % 2 ^ fget snapSize s.snapCfg
    let s := s.putHub (fget snapBase s.snapCfg * 4096 + 128 * i) (s.snapRecord r d)
    { s with snapCfg := fwrap snapIndex 1 s.snapCfg }) s

/-- A micro-batch of the current step has been bound backward or dropped: B counts it once, and with the last one the step
ends. -/
def State.countB (s : State) (r : Fin 4) (step mb : Word) : State :=
  let q := s.mq r
  if step ≠ q.step ∨ q.counted.contains mb then s
  else
    let b := fget stepB q.stepStat + 1
    let s := if b < q.mbPerStep then s else s.stepSnapshot r
    s.modMq r fun q =>
      if b < q.mbPerStep then { q with counted := mb :: q.counted, stepStat := fput stepB b q.stepStat }
      else
        let w : BitVec 128 := fput stepStep (fget stepStep q.stepStat + 1) 0
        { q with
          counted := []
          stepStat := fput stepLastDone (fget stepDone q.stepStat) (fput stepLastDropped (fget stepDropped q.stepStat) w) }

/-- A drop counts in DROPPED and in B, unless EVAL (R224, R234). -/
def State.countDropped (s : State) (r : Fin 4) (step mb : Word) (eval : Bool) : State :=
  if eval then s else (s.modMq r fun q => { q with stepStat := fsat stepDropped 1 q.stepStat }).countB r step mb

/-! ## Outputs -/

/-- A new output of a micro-batch. -/
def State.newOutput (s : State) (r : Fin 4) (kind : OutKind) (step mb wver : Word) (eval : Bool) : Output where
  kind := kind
  step := step
  mb := mb
  wver := wver
  eval := eval
  slot := none
  onStack := false
  addr := 0
  bytes := 8
  seg := 2 ^ (16 + fget paySeg (match kind with
    | .bwdGrad => (s.mq r).bpayNow
    | _ => (s.mq r).fpayNow))
  next := 0
  unacked := []
  again := []
  started := false
  resend := false
  bounced := false
  acked := false
  post := none

/-- Send MB_DROP on a link where the micro-batch's output has not been sent (R234): in place of an output that waits, or after
the others. -/
def State.sendDrop (s : State) (r : Fin 4) (d : Dir) (step mb wver : Word) (eval : Bool) (cause : Nat) (sent : Bool) : State :=
  let waits := fun (o : Output) => o.isFor step mb && o.eval == eval && !o.started && !o.acked && match o.kind with
    | .mbDrop _ => false
    | _ => true
  let l := s.link r d
  if !l.exists_ then s
  else if l.outputs.any waits then s.modOutput r d waits fun o => { o with kind := .mbDrop cause, bytes := 8 }
  else if sent then s
  else s.addOutput r d (s.newOutput r (.mbDrop cause) step mb wver eval)

/-- Propagate a drop both ways (R234 step 2): upstream only for a training micro-batch. -/
def State.propagate (s : State) (r : Fin 4) (step mb wver : Word) (eval : Bool) (cause : Nat) (fwdSent bwdSent : Bool) : State :=
  let s := s.sendDrop r .fwd step mb wver eval cause fwdSent
  if eval then s else s.sendDrop r .bwd step mb wver eval cause bwdSent

/-! ## Freeing what a micro-batch holds -/

/-- Free a stash record with its extents. -/
def State.freeRecord (s : State) (i : Nat) : State :=
  match s.mbq.records.find? fun x => x.idx == i with
  | none => s
  | some x => (s.modMbq fun m => { m with records := m.records.filter fun y => y.idx != i }).restash x.role

/-- Free the queue entry that a slot holds, and its credit. -/
def State.freeSlotEntry (s : State) (i : Fin 16) : State :=
  let x := s.slot i
  match x.entry with
  | none => s
  | some e => (s.modSlot i fun y => { y with entry := none, len := 0, payHub := 0, paySpill := 0 }).entryFreed x.role x.dir e x.eval

/-- Remove queue entries of a role that satisfy a predicate, with their credits. -/
def State.removeEntries (s : State) (r : Fin 4) (d : Dir) (p : QEntry → Bool) : State :=
  let gone := ((s.mq r).queue d).filter p
  let s := s.modMq r fun q => q.setQueue d ((q.queue d).filter fun e => !p e)
  forEach gone (fun s e => s.entryFreed r d e.idx e.eval) s

/-! ## Drops (R223, R234, Table 12-7) -/

/-- Drop the micro-batch that a slot holds: DROPPED, with the entry, the record and the pin freed, the drop logged, and MB_DROP
sent unless the role is removed. A slot in STASHED holds a pin only through its record. -/
def State.dropSlot (s : State) (i : Fin 16) (cause : Nat) (send : Bool := true) (st : Option (Half × Half) := none) : State :=
  let x := s.slot i
  let s := s.freeSlotEntry i
  let s := match x.stash with
    | some k => s.freeRecord k
    | none => s
  let s := if x.state = slStashed ∧ x.stash = none then s else s.modWvt fun w => w.unpin x.role x.wver
  let s := s.dropLog x.role x.step x.mb x.wver x.eval cause
  let s := if send then s.propagate x.role x.step x.mb x.wver x.eval cause x.fwdSent x.bwdSent else s
  s.setSlot i fun y => { y with state := slDropped, cause := cause, entry := none, stash := none, status := st.or y.status }

/-- A drop event at a slot (Table 12-7, R223): a run state keeps its state and remembers the cause. -/
def State.dropEvent (s : State) (i : Fin 16) (cause : Nat) (st : Option (Half × Half) := none) : State :=
  let x := s.slot i
  if x.running then
    if x.cause = 0 then s.setSlot i fun y => { y with cause := cause, status := st } else s
  else s.dropSlot i cause true st

/-- Drop a micro-batch of a role wherever it stands (R234 step 3): a slot, queue entries, a HELD stash record. One that the role
does not hold is only logged (step 4). `out` also drops a slot that only waits for its output, which will not be sent. -/
def State.dropMicro (s : State) (r : Fin 4) (step mb wver : Word) (eval : Bool) (cause : Nat)
    (out : Bool := false) (st : Option (Half × Half) := none) : State :=
  let mine := fun (i : Fin 16) =>
    let x := s.slot i
    x.isFor r step mb eval && (x.running || x.waiting || (out && (x.state == slStashed || x.state == slDone)))
  let is := (allFin 16).filter mine
  if !is.isEmpty then forEach is (fun s i => s.dropEvent i cause st) s
  else
    let hit := fun (e : QEntry) => e.step == step && e.mb == mb && e.eval == eval
    let f := ((s.mq r).fq.filter hit)
    let b := ((s.mq r).bq.filter hit)
    let rec? := if eval then none else s.mbq.records.find? fun x => x.isFor r step mb && x.st == .held
    let s := s.dropLog r step mb wver eval cause
    if f.isEmpty && b.isEmpty && rec?.isNone then s
    else
      let partials := (if f.any fun e => e.order.isNone then [(⟨r, .fwd, step, mb⟩ : MbKey)] else []) ++
        (if b.any fun e => e.order.isNone then [⟨r, .bwd, step, mb⟩] else [])
      let s := s.modMbq fun m => { m with dead := m.dead ++ partials }
      let s := (s.removeEntries r .fwd hit).removeEntries r .bwd hit
      let s := match rec? with
        | none => s
        | some x =>
          let s := forEach (allFin 16) (fun s i =>
            if (s.slot i).state = slStashed ∧ (s.slot i).stash = some x.idx then s.setSlot i fun y => { y with stash := none }
            else s) s
          (s.freeRecord x.idx).modWvt fun w => w.unpin r x.wver
      (s.propagate r step mb wver eval cause f.isEmpty false).countDropped r step mb eval

/-- A run-state slot on which a die's program worked has lost that program (R223). -/
def State.slotsOfStopped (s : State) (d : Fin 4) (cause : Nat) : State :=
  forEach (allFin 16) (fun s i =>
    if (s.slot i).running && (s.slot i).takers.getLsbD d.1 then
      s.dropSlot i cause true (if cause = dcDieLost then some (stDieLost, partDie d) else none)
    else s) s

/-! ## Receiving segments (R218 to R220) -/

/-- Where a queue's payload bytes lie (R219): the hub base of an entry, the hub bytes per entry, and the spill base. -/
def payPlace (w : Quad) (e : Nat) : Nat × Nat × Nat :=
  let hk := fget payHubKib w * 1024
  (fget payHubBase w * 4096 + e * hk, hk, fget paySpill w * 65536 + e * (fget payEntryMib w * 2 ^ 20))

/-- Store a segment of a payload. -/
def State.storeSegment (s : State) (w : Quad) (e off : Nat) (bs : List Byte) : State :=
  let (hub, hk, spill) := payPlace w e
  let k := min bs.length (hk - off)
  let s := if k = 0 then s else s.putHub (hub + off) (bs.take k)
  if bs.length ≤ k then s else (s.writeDev .hub (spill + off + k) ((bs.drop k).map some)).1

/-- Forget the key of a message, so that a resend of it is accepted (R236). -/
def State.forgetKeys (s : State) (p : Fin 24) (f : MsgKey → Bool) : State :=
  s.modPort p fun x => { x with rx := { x.rx with keys := x.rx.keys.filter fun k => !f k } }

/-- Whether a key is that of a micro-batch's segments. -/
def MsgKey.ofHeader (k : MsgKey) (h : Header) : Bool :=
  k.src == h.srcPos && k.stage == h.stage && k.step == h.step && k.mb == h.mbId && k.kind == h.kind

/-- A free choice among the elements of a list (log entry 27). -/
def State.choose {α : Type} (s : State) (l : List α) : Option α × State :=
  let (n, s) := s.fresh l.length
  (l[n]?, s)

/-- FWD_ACT and BWD_GRAD: stage a segment in its entry (R219, R220). -/
def doSegment (p : Fin 24) (d : Dir) (s : State) : State :=
  match s.takeMsg p (match d with | .fwd => kFwdAct | .bwd => kBwdGrad) with
  | none => s
  | some (m, s) =>
    let h := m.hdr
    match s.epochCheck h, s.roleOf h.stage with
    | .stale k, _ => (s.bounce p h k true).forgetKeys p fun x => x.ofHeader h
    | _, none => s
    | _, some r =>
      if s.mbq.dead.contains ⟨r, d, h.step, h.mbId⟩ then s
      else
        let eval := h.flags.getLsbD hfEval
        let mine := fun (e : QEntry) => e.order.isNone && e.step == h.step && e.mb == h.mbId && e.eval == eval
        let (e?, s) : Option QEntry × State := match ((s.mq r).queue d).find? mine with
          | some e => (some e, s)
          | none =>
            if !(s.link r (inLink d)).exists_ then (none, s)
            else match s.choose (s.freeIdx r d) with
              | (none, s) => (none, s)
              | (some i, s) =>
                let e : QEntry := ⟨i, h.step, h.mbId, h.wver, eval, false, 0, none, none, some (p, h)⟩
                (some e, s.modMq r fun q => q.setQueue d (q.queue d ++ [e]))
        match e? with
        | none => s.reject p h 0x05 stNotPermitted
        | some e =>
          let w := (s.mq r).pay d
          if fget payEntryMib w * 2 ^ 20 < h.offset + m.payload.length then
            s.dropMicro r h.step h.mbId h.wver eval dcOversize
          else
            let s := s.storeSegment w e.idx h.offset m.payload
            let got := e.got + m.payload.length
            let total := if h.flags.getLsbD hfLast then some (h.offset + m.payload.length) else e.total
            let done := total == some got
            let order := if done then some s.mbq.clock else none
            let up := fun (x : QEntry) => { x with got := got, total := total, order := order }
            let s := s.modMq r fun q => q.setQueue d (updateWhere mine up (q.queue d))
            if !done then s
            else
              let s := s.modMbq fun m => { m with clock := m.clock + 1 }
              if epochDiff h.step (s.mq r).step < 0 then s.dropMicro r h.step h.mbId h.wver eval dcStepStale else s

def doFwdAct (p : Fin 24) (s : State) : State := doSegment p .fwd s
def doBwdGrad (p : Fin 24) (s : State) : State := doSegment p .bwd s

/-- MB_DROP (R234): its credit returns at once, since it takes no entry. -/
def doMbDrop (p : Fin 24) (s : State) : State :=
  match s.takeMsg p kMbDrop with
  | none => s
  | some (m, s) =>
    let h := m.hdr
    match s.epochCheck h, s.roleOf h.stage with
    | .stale k, _ => (s.bounce p h k true).forgetKeys p fun x => x.ofHeader h
    | _, none => s
    | _, some r =>
      let s := s.grant r (if h.vc = vcFwd then .bwd else .fwd) 1
      s.dropMicro r h.step h.mbId h.wver (h.flags.getLsbD hfEval) dcUpstream

/-! ## Binding (R224 to R229) -/

/-- Post a role's semaphore on its dies. -/
def State.postRole (s : State) (r : Fin 4) (sem : Fld) : State :=
  let w := (s.mq r).cfgNow
  s.postMask (fget rcfgDies w) (fget sem w)

/-- Whether a training forward head of a role is eligible (R224). -/
def RoleQueue.fwdEligible (q : RoleQueue) : Bool :=
  let f := fget stepF q.stepStat
  let b := fget stepB q.stepStat
  f < q.mbPerStep && (fget rcfgSched q.cfgNow == 1 || (f : Int) - b < fget rcfgWarmup q.cfgNow)

def RoleQueue.bwdEligible (q : RoleQueue) : Bool :=
  fget rcfgSched q.cfgNow != 1 || fget stepF q.stepStat == q.mbPerStep

/-- Whether an evaluation head may be bound: between steps (R226). -/
def State.evalEligible (s : State) (r : Fin 4) : Bool :=
  fget stepF (s.mq r).stepStat == 0 &&
  !(s.mbq.slots.toList.any fun x => x.state != slFree && x.role == r && !x.eval)

/-- The complete entry of a list that became complete first. -/
def firstComplete (l : List QEntry) : Option QEntry :=
  l.foldl (fun acc e => match e.order, acc with
    | none, _ => acc
    | some _, none => some e
    | some n, some a => if n < a.order.getD 0 then some e else acc) none

/-- The forward head of a role, when it is eligible. Evaluation entries that wait for the step to end do not stand before a first
stage's own entries (log entry 28). -/
def State.fwdHead (s : State) (r : Fin 4) : Option QEntry :=
  let q := s.mq r
  let skip := !(s.link r .bwd).exists_ && !s.evalEligible r
  match firstComplete (if skip then q.fq.filter fun e => !e.eval else q.fq) with
  | none => none
  | some e => if (if e.eval then s.evalEligible r else q.fwdEligible) then some e else none

def State.bwdHead (s : State) (r : Fin 4) : Option QEntry :=
  let q := s.mq r
  if q.bwdEligible then firstComplete q.bq else none

/-- The entries that a first stage makes for itself (R225). -/
def State.generate (s : State) (r : Fin 4) : State :=
  let q := s.mq r
  if !s.roleUsed r || (s.link r .bwd).exists_ || !q.fwdEligible || q.fq.any (fun e => e.generated && !e.eval) then s
  else match s.choose (s.freeIdx r .fwd) with
    | (none, s) => s
    | (some i, s) =>
      let v := if q.sync then q.step else s.wvt.committed r
      let e : QEntry := ⟨i, q.step, BitVec.ofNat 32 (fget stepF q.stepStat), v, false, true, 0, some 0, some s.mbq.clock, none⟩
      (s.modMq r fun q => { q with fq := q.fq ++ [e] }).modMbq fun m => { m with clock := m.clock + 1 }

/-- The slot that an entry is bound to, before its record is written. -/
def State.boundSlot (s : State) (r : Fin 4) (d : Dir) (e : QEntry) (wver : Word) (stash : Option Nat) : Slot :=
  let (hub, hk, spill) := payPlace ((s.mq r).pay d) e.idx
  { Slot.reset with
    state := match d with | .fwd => slFwdWait | .bwd => slBwdWait
    role := r, step := e.step, mb := e.mb, wver := wver, eval := e.eval, generated := e.generated
    entry := some e.idx, stash := stash, len := e.got, payHub := hub, paySpill := spill + hk, bound := s.mbq.clock
    fwdSent := d == .bwd }

/-- Bind an entry to a slot: it leaves its queue and keeps its index; the record is written before the post (R221). -/
def State.bind (s : State) (i : Fin 16) (r : Fin 4) (d : Dir) (e : QEntry) (wver : Word) (stash : Option Nat) : State :=
  let s := s.modMq r fun q => q.setQueue d ((q.queue d).filter fun x => x.idx != e.idx)
  let s := s.setSlot i fun _ => s.boundSlot r d e wver stash
  let s := s.modMbq fun m => { m with clock := m.clock + 1 }
  match d with
  | .fwd =>
    let s := s.modWvt fun w => w.pin r wver
    let s := if e.eval || e.step ≠ (s.mq r).step then s
      else s.modMq r fun q => { q with stepStat := fsat stepF 1 q.stepStat }
    s.postRole r rcfgFsem
  | .bwd => (s.postRole r rcfgBsem).countB r e.step e.mb

/-- Try to bind a forward head (R199, R229); none where it waits for a commit. -/
def State.tryFwd (s : State) (i : Fin 16) (r : Fin 4) (e : QEntry) : Option State :=
  let com := s.wvt.committed r
  if e.eval || !(s.mq r).sync then some (s.bind i r .fwd e com none)
  else if e.wver ≠ e.step then some (s.dropMicro r e.step e.mb e.wver e.eval dcVersionMismatch)
  else if 0 < epochDiff e.wver com then none
  else if epochDiff e.wver com < 0 then some (s.dropMicro r e.step e.mb e.wver e.eval dcVersionGone)
  else some (s.bind i r .fwd e com none)

/-- Try to bind a backward head: its stash record gives the version and the pin (R229, R230). -/
def State.tryBwd (s : State) (i : Fin 16) (r : Fin 4) (e : QEntry) : Option State :=
  match s.mbq.records.find? fun x => !e.eval && x.isFor r e.step e.mb && x.st == .held with
  | none => some (s.dropMicro r e.step e.mb e.wver e.eval dcNoStash)
  | some x =>
    if (s.mq r).sync && e.wver != x.wver then some (s.dropMicro r e.step e.mb e.wver e.eval dcVersionMismatch)
    else
      let s := s.modMbq fun m => { m with
        records := updateWhere (fun y => y.idx == x.idx) (fun y => { y with st := .bound }) m.records
        slots := vmap m.slots fun _ y => if y.state == slStashed && y.stash == some x.idx then { y with stash := none } else y }
      some (s.bind i r .bwd e x.wver (some x.idx))

/-- Try a head; an entry that has become stale is bounced and freed (R199). -/
def State.tryHead (s : State) (i : Fin 16) (r : Fin 4) (d : Dir) (e : QEntry) : Option State :=
  match e.src.map fun x => (x, s.epochCheck x.2) with
  | some ((p, h), .stale k) =>
    some (((s.bounce p h k true).forgetKeys p fun x => x.ofHeader h).removeEntries r d fun x => x.idx == e.idx)
  | _ => match d with
    | .fwd => s.tryFwd i r e
    | .bwd => s.tryBwd i r e

/-- The candidates of R224 in order: backwards by falling STAGE, then forwards by rising STAGE. -/
def State.candidates (s : State) : List (Fin 4 × Dir × QEntry) :=
  let used := (allFin 4).filter fun r => s.roleUsed r
  let up := sortBy (fun a b => decide ((s.stageOf a).toNat ≤ (s.stageOf b).toNat)) used
  (up.reverse.filterMap fun r => (s.bwdHead r).map fun e => (r, Dir.bwd, e)) ++
  up.filterMap fun r => (s.fwdHead r).map fun e => (r, Dir.fwd, e)

/-- MBQ_BIND: one FCLK cycle's binding to a FREE slot; which FREE slot is a free choice. -/
def doMbqBind (s : State) : State :=
  let s := forEach (allFin 4) State.generate s
  match s.choose ((allFin 16).filter fun i => (s.slot i).state == slFree) with
  | (none, s) => s
  | (some i, s) => (firstSome s.candidates fun c => s.tryHead i c.1 c.2.1 c.2.2).getD s

/-! ## HUBOPs (Table 12-9) -/

/-- Note that a die's HUBOP of a kind acted first on a slot (R222). -/
def Slot.setFirst (x : Slot) (fn : Nat) (d : Fin 4) : Slot :=
  if x.firsts.any fun y => y.1 == fn then x else { x with firsts := x.firsts ++ [(fn, d)] }

/-- Answer a HUBOP that names a slot whose micro-batch has been dropped (R223). -/
def State.answerDropped (s : State) (m : HubMsg) (x : Slot) : State :=
  let st := x.status.getD (dropStatus x.cause)
  s.answer m st.1 st.2

/-- The common part of a HUBOP that names a slot: the slot, its drop (R223), a repeat from another die (R222), a poisoned record. A
program's DROP after a failed GATHER takes its own cause (R232). -/
def State.withSlot (s : State) (d : Fin 4) (m : HubMsg) (fn : Nat) (f : Fin 16 → Slot → State → State) : State :=
  match fin? 16 (byteAt m.bytes 2) with
  | none => s.answerBad m dtArgument
  | some i =>
    let x := s.slot i
    if x.state = slDropped then s.answerDropped m x
    else if x.running && x.cause != 0 && !(fn == 6 && x.cause == dcVersionGone) then
      (s.answerDropped m x).dropSlot i x.cause
    else if x.firsts.any fun y => y.1 == fn && y.2 != d then s.answer m stOk
    else
      let (s, r) := s.readHub (s.slotBase + 64 * i.1) 64
      if r.bad && (x.running || x.waiting) then
        let s := s.dropSlot i dcPoisoned
        s.answerDropped m (s.slot i)
      else f i x s

/-- TAKE (R222); a message with a function that the MBQ does not have is refused here. A second die of the role is given the
earliest slot that another die has taken and it has not (log entry 29). -/
def doTake (d : Fin 4) (s : State) : State :=
  match s.hubOdd? d unitMbq [1, 2, 3, 4, 5, 6, 7] with
  | some m => s.answerBad m dtOpcode
  | none => match s.hubMsg? d unitMbq 1 with
  | none => s
  | some m =>
    let back := byteAt m.bytes 3 == 1
    if !allZero (m.bytes.drop 4) then s.answerBad m dtReserved
    else if 1 < byteAt m.bytes 3 then s.answerBad m dtArgument
    else match fin? 4 (byteAt m.bytes 2) with
    | none => s.answerBad m dtArgument
    | some r =>
      let inState := fun (n : Nat) => (allFin 16).filter fun i => (s.slot i).state == n && (s.slot i).role == r
      let taken := (inState (if back then slBwdRun else slFwdRun)).filter fun i =>
        (s.slot i).takers != 0 && !(s.slot i).takers.getLsbD d.1
      let l := if taken.isEmpty then inState (if back then slBwdWait else slFwdWait) else taken
      let least := l.foldl (fun (acc : Option (Fin 16)) i => match acc with
        | none => some i
        | some j => if (s.slot i).bound < (s.slot j).bound then some i else acc) none
      match least with
      | none => s.answerDenied m dtState
      | some i =>
        let s := s.setSlot i fun x =>
          { x with state := if back then slBwdRun else slFwdRun, takers := x.takers ||| BitVec.twoPow 4 d.1 }
        s.answer m stOk 0 (natLe 1 i.1 ++ natLe 1 (s.slot i).flags)

/-- The arguments of FWD_DONE and BWD_DONE. -/
structure DoneArgs where
  post : Option Nat
  onStack : Bool
  addr : Nat
  bytes : Nat

def parseDone (b : List Byte) : DoneArgs where
  post := if nbit (byteAt b 3) 7 then some (byteAt b 3 % 128) else none
  onStack := byteAt b 4 == 1
  addr := leAt b 8 8
  bytes := leAt b 16 4

/-- Whether a slot's output can be sent: none where the link does not exist, and within its memory where it does. -/
def State.doneError (s : State) (x : Slot) (d : Dir) (b : List Byte) : Option Half :=
  let a := parseDone b
  if !(allZero (slice b 5 3) && allZero (b.drop 20)) then some dtReserved
  else if 1 < byteAt b 4 ∨ x.state ≠ (match d with | .fwd => slFwdRun | .bwd => slBwdRun) then some dtArgument
  else if !(s.link x.role d).exists_ then (if a.bytes = 0 then none else some dtArgument)
  else if (if a.onStack then devSize else vaultBase) < a.addr + a.bytes then some dtAddress
  else none

/-- A free index for a stash record, and the record opened. -/
def State.openRecord (s : State) (i : Fin 16) (d : Fin 4) : Option State :=
  let x := s.slot i
  let used := s.mbq.records.map (·.idx)
  match s.choose ((List.range 1024).filter fun k => !used.contains k) with
  | (none, _) => none
  | (some k, s) => some ((s.modMbq fun m =>
      { m with records := m.records ++ [⟨k, .opened, x.role, x.step, x.mb, x.wver, d, [], 0, 0⟩] }).modSlot i fun y =>
        { y with stash := some k })

def State.setRecord (s : State) (k : Option Nat) (f : StashRec → StashRec) : State :=
  s.modMbq fun m => { m with records := updateWhere (fun y => some y.idx == k) f m.records }

/-- Hand a slot's output to the SLE, or, with no link, make its post at once. -/
def State.output (s : State) (i : Fin 16) (dir : Dir) (d : Fin 4) (a : DoneArgs) : State :=
  let x := s.slot i
  if (s.link x.role dir).exists_ then
    s.addOutput x.role dir { s.newOutput x.role (match dir with | .fwd => .fwdAct | .bwd => .bwdGrad) x.step x.mb x.wver x.eval with
      slot := some i, onStack := a.onStack, addr := a.addr, bytes := a.bytes, post := a.post.map fun n => (d, n) }
  else
    let s := s.modSlot i fun y => { y with acked := true }
    match a.post with
    | some n => s.postTo d (semIdx n)
    | none => s

/-- FWD_DONE's effect on a slot in FWD_RUN (Table 12-7). -/
def State.fwdDone (s : State) (i : Fin 16) (d : Fin 4) (a : DoneArgs) : State :=
  let x := s.slot i
  let s := (s.freeSlotEntry i).modSlot i fun y => { y.setFirst 2 d with fwdSent := true }
  if x.eval then (s.setSlot i fun y => { y with state := slDone }).output i .fwd d a
  else if (s.link x.role .fwd).exists_ then
    let s := s.setRecord (s.slot i).stash fun r => { r with st := .held }
    (s.setSlot i fun y => { y with state := slStashed }).output i .fwd d a
  else
    let s := s.setRecord (s.slot i).stash fun r => { r with st := .bound }
    let s := s.setSlot i fun y => { y with state := slBwdWait, isLocal := true, takers := 0 }
    let s := (s.postRole x.role rcfgBsem).countB x.role x.step x.mb
    match a.post with
    | some n => s.postTo d (semIdx n)
    | none => s

/-- FWD_DONE (R222). A training slot that has allocated no stash opens an empty record, so that its backward can bind. -/
def doFwdDone (d : Fin 4) (s : State) : State :=
  match s.hubMsg? d unitMbq 2 with
  | none => s
  | some m => s.withSlot d m 2 fun i x s =>
    match s.doneError x .fwd m.bytes with
    | some e => s.answerBad m e
    | none =>
      let a := parseDone m.bytes
      if x.eval || x.stash.isSome then (s.fwdDone i d a).answer m stOk
      else match s.openRecord i d with
        | some s => (s.fwdDone i d a).answer m stOk
        | none =>
          let s := s.dropSlot i dcExhausted
          s.answerDropped m (s.slot i)

/-- BWD_DONE (R222): the entry, the record and its extents are freed, and the output goes upstream. -/
def doBwdDone (d : Fin 4) (s : State) : State :=
  match s.hubMsg? d unitMbq 3 with
  | none => s
  | some m => s.withSlot d m 3 fun i x s =>
    match s.doneError x .bwd m.bytes with
    | some e => s.answerBad m e
    | none =>
      let s := s.freeSlotEntry i
      let s := match x.stash with
        | some k => s.freeRecord k
        | none => s
      let s := s.setSlot i fun y => { y.setFirst 3 d with state := slDone, stash := none, bwdSent := true, acked := false }
      (s.output i .bwd d (parseDone m.bytes)).answer m stOk

/-- DROP (R222, R223). -/
def doDrop (d : Fin 4) (s : State) : State :=
  match s.hubMsg? d unitMbq 6 with
  | none => s
  | some m =>
    if !allZero (m.bytes.drop 3) then s.answerBad m dtReserved
    else s.withSlot d m 6 fun i x s =>
      if x.running || x.waiting then
        ((s.modSlot i fun y => { y.setFirst 6 d with status := none }).dropSlot i dcProgram).answer m stOk
      else s.answerBad m dtArgument

/-- INJECT_EVAL (R225, R226). -/
def doInjectEval (d : Fin 4) (s : State) : State :=
  match s.hubMsg? d unitMbq 7 with
  | none => s
  | some m =>
    let first := leAt m.bytes 4 4
    let n := leAt m.bytes 8 4
    if byteAt m.bytes 3 ≠ 0 || !allZero (m.bytes.drop 12) then s.answerBad m dtReserved
    else match fin? 4 (byteAt m.bytes 2) with
    | none => s.answerBad m dtArgument
    | some r =>
      if n = 0 ∨ 16 < n then s.answerBad m dtArgument
      else if !s.roleUsed r || (s.link r .bwd).exists_ || (s.freeIdx r .fwd).length < n then s.answerDenied m dtState
      else
        let add := fun (s : State) (k : Nat) => match s.choose (s.freeIdx r .fwd) with
          | (none, s) => s
          | (some i, s) =>
            let q := s.mq r
            let e : QEntry := ⟨i, q.step, BitVec.ofNat 32 (first + k), q.step, true, true, 0, some 0, some s.mbq.clock, none⟩
            (s.modMq r fun q => { q with fq := q.fq ++ [e] }).modMbq fun m => { m with clock := m.clock + 1 }
        (forEach (List.range n) add s).answer m stOk

/-! ## Stash extents (spec 08 R159, R227, R228) -/

/-- Whether a region of a die's stash area may hold extents: DIE_LOCAL with that die as its home (R157, Table 12-12). -/
def State.stashRegion (s : State) (d : Fin 4) (i : Nat) : Bool :=
  i < 512 && !regionSpread s.regionMode i && i / 128 == d.1

/-- The free extents of one of a die's two stacks, by device address; none of a lost stack. -/
def State.freeExtents (s : State) (d : Fin 4) (odd : Nat) : List Nat :=
  let w := vget s.mbq.area d
  let k : Fin 8 := ⟨(2 * d.1 + odd) % 8, Nat.mod_lt _ (by decide)⟩
  if fon stkLost (s.stk k).status || 2 ≤ s.dieSt d then []
  else
    let used := (s.mbq.records.map (·.extents)).flatten
    let regions := ((List.range (fget areaCount w)).map (· + fget areaFirst w)).filter fun i => s.stashRegion d i
    (regions.map fun i => (List.range 8192).map fun c => i * 2 ^ 30 + c * 2 ^ 17 + odd * 2 ^ 12).flatten.filter
      fun a => !used.contains a

/-- Writes that wait at a stack's controller. -/
def State.writeQueue (s : State) (k : Nat) : Nat :=
  (s.fab.pendingWrites.filter fun w => (devPlace s.regionMode (128 * w.line)).stack.1 == k).length

/-- Where the chain link of an extent lies: 4 B per extent of stack memory (R227; log entry 30). -/
def State.linkAddr (s : State) (a : Nat) : Nat := fget mbqBaseIdx s.mbq.base * 65536 + 4 * (a / 2 ^ 17 * 2 + nbits a 12 12)

/-- Take one extent (R159): from the stack with the shorter write queue, the even one on a tie, else from the other. The writes that
the model performs at once stand in the queues for a free time, and which free extent is taken is free (log entries 27 and 30).
The link of the chain that names it is written. -/
def State.takeExtent (s : State) (d : Fin 4) (i : Nat) : State × Option Nat :=
  let (x, s) := s.fresh 64
  let (y, s) := s.fresh 64
  let odd := if s.writeQueue (2 * d.1 + 1) + y < s.writeQueue (2 * d.1) + x then 1 else 0
  let l := s.freeExtents d odd
  match s.choose (if l.isEmpty then s.freeExtents d (1 - odd) else l) with
  | (none, s) => (s, none)
  | (some a, s) =>
    let (bs, s) := s.freshBytes 4
    let s := (s.writeDev .hub (s.linkAddr a) (bs.map some)).1
    (s.setRecord (some i) fun r => { r with extents := r.extents ++ [a] }, some a)

/-- Take several extents. -/
def State.takeExtents (s : State) (d : Fin 4) (i : Nat) : Nat → State × List Nat
  | 0 => (s, [])
  | n + 1 =>
    let (s, l) := s.takeExtents d i n
    match s.takeExtent d i with
    | (s, none) => (s, l)
    | (s, some a) => (s, l ++ [a])

/-- The accounts of a record that has grown (R214, Tables 11-8, 11-9): PER_MB_MAX, OVERRUN when a micro-batch admitted with an empty
stash passes BUDGET, USED and PEAK. -/
def State.accountStash (s : State) (r : Fin 4) (before after : Nat) : State :=
  let budget := fget stashCfgBudget (s.mq r).stashCfg
  let others := ((s.mbq.records.filter fun x => x.role == r).map fun x => x.extents.length).sum - after
  let passed := budget != 0 && others == 0 && before ≤ budget && budget < after
  let up := fun (q : RoleQueue) =>
    let w := fput stashMbPerMbMax (max after (fget stashMbPerMbMax q.stashMb)) q.stashMb
    { q with stashMb := if passed then fsat stashMbOverrun 1 w else w }
  (s.modMq r up).restash r

/-- STASH_ALLOC (R227, R228). -/
def doStashAlloc (d : Fin 4) (s : State) : State :=
  match s.hubMsg? d unitMbq 4 with
  | none => s
  | some m =>
    let fmt := byteAt m.bytes 3
    let k := leAt m.bytes 4 4
    let off := leAt m.bytes 8 4
    if !allZero (m.bytes.drop 12) then s.answerBad m dtReserved
    else s.withSlot d m 4 fun i x s =>
      if (fmt ≠ 0 ∧ fmt ≠ 2) ∨ k = 0 ∨ 4096 < k ∨ off < 0x800 ∨ off % 8 ≠ 0 ∨ spadSize - twinBase < off + 8 * k then
        s.answerBad m dtArgument
      else if x.state ≠ slFwdRun then s.answerBad m dtArgument
      else if x.eval then s.answerDenied m dtState
      else
        let exhausted := fun (s : State) =>
          let s := s.dropSlot i dcExhausted
          s.answerDropped m (s.slot i)
        let opened := if x.stash.isSome then some s else s.openRecord i d
        match opened with
        | none => exhausted s
        | some s =>
          if (s.freeExtents d 0).length < k ∧ (s.freeExtents d 1).length < k then exhausted s
          else
            let idx := ((s.slot i).stash).getD 0
            let size := fun (s : State) => match s.mbq.records.find? fun r => r.idx == idx with
              | some r => r.extents.length
              | none => 0
            let before := size s
            let (s, l) := s.takeExtents d idx k
            let s := s.setRecord (some idx) fun r =>
              if fmt = 0 then { r with bytesT16 := r.bytesT16 + 65536 * k } else { r with bytesP8 := r.bytesP8 + 65536 * k }
            let s := s.accountStash x.role before (size s)
            let (s, _) := s.writeTwin d off (l.map (natLe 8)).flatten
            let s := s.setSlot i fun y => y.setFirst 4 d
            s.answer m stOk 0 (natLe 4 (size s))

/-- STASH_MAP (R222, R227): the chain is walked from its head, and a link that reads poisoned drops the slot. -/
def doStashMap (d : Fin 4) (s : State) : State :=
  match s.hubMsg? d unitMbq 5 with
  | none => s
  | some m =>
    let first := leAt m.bytes 4 4
    let n := leAt m.bytes 8 4
    let off := leAt m.bytes 12 4
    if byteAt m.bytes 3 ≠ 0 || !allZero (m.bytes.drop 16) then s.answerBad m dtReserved
    else s.withSlot d m 5 fun i x s =>
      match if x.running then s.mbq.records.find? fun r => some r.idx == x.stash else none with
      | none => s.answerBad m dtArgument
      | some r =>
        if n = 0 ∨ 4096 < n ∨ off < 0x800 ∨ off % 8 ≠ 0 ∨ spadSize - twinBase < off + 8 * n ∨ r.extents.length < first + n then
          s.answerBad m dtArgument
        else
          let (s, bad) := (r.extents.take (first + n)).foldl (fun (y : State × Bool) a =>
            let (s, q) := y.1.readDev (y.1.linkAddr a) 4
            (s, y.2 || q.bad)) (s, false)
          if bad then
            let s := s.dropSlot i dcPoisoned
            s.answerDropped m (s.slot i)
          else
            let (s, _) := s.writeTwin d off ((slice r.extents first n).map (natLe 8)).flatten
            (s.setSlot i fun y => y.setFirst 5 d).answer m stOk

/-! ## Ends of slots (Table 12-7) -/

/-- The die that made a write. -/
def Writer.die? : Writer → Option (Fin 4)
  | .engine d _ _ => some d
  | .mxa d => some d
  | _ => none

/-- Whether every stash write of a slot's dies is complete: none waits at its home for a line of the slot's extents. -/
def State.stashQuiet (s : State) (x : Slot) : Bool :=
  match s.mbq.records.find? fun r => some r.idx == x.stash with
  | none => true
  | some r => !(s.fab.pendingWrites.any fun w => match w.writer.die? with
    | none => false
    | some d => x.takers.getLsbD d.1 && r.extents.any fun a =>
      (128 * w.line) / 2 ^ 17 == a / 2 ^ 17 && nbits (128 * w.line) 12 12 == nbits a 12 12)

/-- A slot becomes FREE. -/
def State.freeSlot (s : State) (i : Fin 16) : State :=
  s.setSlot i fun x => { Slot.reset with step := x.step, mb := x.mb, wver := x.wver, role := x.role }

/-- SLOT_OUTPUT_ACKED (Table 12-7, R230). -/
def doSlotOutputAcked (i : Fin 16) (s : State) : State :=
  let x := s.slot i
  if !x.acked then s
  else if x.state = slStashed then (if s.stashQuiet x then s.freeSlot i else s)
  else if x.state = slDone then
    let s := s.modWvt fun w => w.unpin x.role x.wver
    let s := if x.eval then s else s.modMq x.role fun q => { q with stepStat := fsat stepDone 1 q.stepStat }
    s.freeSlot i
  else s

/-- SLOT_DROPPED_RELEASE (Table 12-7). -/
def doSlotDroppedRelease (i : Fin 16) (s : State) : State :=
  let x := s.slot i
  if x.state = slDropped then (s.freeSlot i).countDropped x.role x.step x.mb x.eval else s

/-- STASH_BUDGET_WRITE: a write of MBQ.STASH_CFGn clears PER_MB_MAX (R214, Table 11-9). -/
def doStashBudgetWrite (r : Fin 4) (v : Quad) (s : State) : State :=
  (s.modMq r fun q => { q with stashCfg := v, stashMb := fput stashMbPerMbMax 0 q.stashMb }).regrant r

end Sys2Proof.Machine
end

