-- ==== Sys2Proof/Machine/Gather.lean ====
section
/-!
DEFINITION. Re-gathering a shard (spec 12 R232, R233): GATHER, its request's paths, and the members that relay and serve it. The
header of SHARD_DATA names no request: log entry 31 says how a segment is matched to one.
-/
namespace Sys2Proof.Machine

/-! ## Requests -/

/-- The arguments of a GATHER (Table 12-15). -/
def gaEntry (m : HubMsg) : Nat := leAt m.bytes 2 2
def gaVersion (m : HubMsg) : Word := bytesWord m.bytes 4
def gaTSlot (m : HubMsg) : Nat := byteAt m.bytes 8
def gaDSlot (m : HubMsg) : Nat := byteAt m.bytes 9
def gaRank (m : HubMsg) : Nat := leAt m.bytes 10 2
def gaDest (m : HubMsg) : Nat := leAt m.bytes 12 8
def gaFirst (m : HubMsg) : Nat := leAt m.bytes 20 8
def gaBytes (m : HubMsg) : Nat := leAt m.bytes 28 4

/-- A header in a group, to the neighbour at a port. -/
def State.groupHdr (s : State) (e : GroupEntry) (p : Fin 24) (kind len : Nat) : Header :=
  { s.hdr (s.seen p) e.vc kind len with
    group := e.gid, layoutEpoch := e.layout, membEpoch := e.memb, flags := hflags false true false false }

/-- SHARD_REQ's payload (Table 12-11). -/
def shardReqBytes (tensor : Word) (rank : Nat) (alt : Bool) (first bytes : Nat) (pos : Word) : List Byte :=
  natLe 4 tensor.toNat ++ natLe 2 rank ++ natLe 1 (b2n alt) ++ [0] ++ natLe 8 first ++ natLe 4 bytes ++ natLe 4 pos.toNat ++
  List.replicate 8 0

/-- The port that leads to a rank of a ring in fewer hops, NEXT_PORT on a tie (R232 step 2). -/
def GroupEntry.portTo (e : GroupEntry) (rank : Nat) : Nat :=
  let m := e.members.length
  if (rank + m - e.rank) % m ≤ (e.rank + m - rank) % m then e.nextPort else e.prevPort

/-- A port that a request may be sent on: not LOST, QUARANTINED or MISBOUND. -/
def State.usablePort (s : State) (n : Nat) : Option (Fin 24) := if s.portOut n then none else port? n

/-- SHARD_FAIL to the neighbour that sent a request. -/
def State.sendShardFail (s : State) (p : Fin 24) (g : Half) (wver : Word) (st : Half) : State :=
  match s.activeGroup g with
  | none => s
  | some (_, e) => s.send p ⟨{ s.groupHdr e p kShardFail 8 with wver := wver }, natLe 2 st.toNat ++ List.replicate 6 0⟩ .mbq

/-! ## A gather's paths (R232) -/

def State.gather? (s : State) (d : Fin 4) : Option Gather := vget s.wvt.gathers d
def State.setGather (s : State) (d : Fin 4) (g : Option Gather) : State :=
  s.modWvt fun w => { w with gathers := vset w.gathers d g }

/-- The group and port of a path. -/
def State.gatherRoute (s : State) (m : HubMsg) (path : Nat) : Option (GroupEntry × Fin 24) :=
  let e? := if path = 0 then s.entry (gaTSlot m) else s.entry (gaDSlot m)
  match e? with
  | none => none
  | some e =>
    let n := if path = 0 then e.portTo (gaRank m) else if path = 1 then e.nextPort else e.prevPort
    (s.usablePort n).map fun p => (e, p)

/-- Every path has failed: VERSION_GONE, and the slots on which the die works with the version learn the cause. -/
def State.gatherGone (s : State) (d : Fin 4) (m : HubMsg) : State :=
  let e := gaEntry m
  let s := forEach (allFin 16) (fun s i =>
    let x := s.slot i
    if x.running && x.takers.getLsbD d.1 && x.wver == gaVersion m && s.wvt.has x.role e then
      s.dropEvent i dcVersionGone (some (stVersionGone, BitVec.ofNat 16 e))
    else s) s
  (s.setGather d none).answer m stVersionGone (BitVec.ofNat 16 e)

/-- Try the paths from one on. -/
def State.gatherFrom (s : State) (d : Fin 4) (m : HubMsg) (tensor : Word) : Nat → Nat → State
  | 0, _ => s.gatherGone d m
  | n + 1, path =>
    match s.gatherRoute m path with
    | none => s.gatherFrom d m tensor n (path + 1)
    | some (e, p) =>
      let s := s.setGather d (some ⟨m, tensor, path, p, 0, s.aon, s.wvt.orders⟩)
      let s := s.modWvt fun w => { w with orders := w.orders + 1 }
      s.send p ⟨{ s.groupHdr e p kShardReq 32 with wver := gaVersion m },
        shardReqBytes tensor (gaRank m) (path != 0) (gaFirst m) (gaBytes m) s.job.identity⟩ (.wvt d)

/-- The path under way has failed (R232 steps 3 and 4). -/
def State.gatherFail (s : State) (d : Fin 4) : State :=
  match s.gather? d with
  | none => s
  | some g => s.gatherFrom d g.msg g.tensor (2 - g.path) (g.path + 1)

/-- GATHER (R232). A gather of the same die that is under way goes first. -/
def doGather (d : Fin 4) (s : State) : State :=
  match s.hubMsg? d unitWvt 3, s.gather? d with
  | some m, none =>
    match sget s.wvt.entries (gaEntry m), s.entry (gaTSlot m) with
    | some x, some e =>
      if devSize < gaDest m + gaBytes m then s.answerBad m dtAddress
      else if e.axis ≠ 1 ∨ e.members.length ≤ gaRank m ∨ gaRank m = e.rank ∨
          (gaDSlot m ≠ 0xFF ∧ (s.entry (gaDSlot m)).map (·.axis) ≠ some 0) then s.answerBad m dtArgument
      else
        let s := { s with hubMsgs := dropFirst (fun y => y.die == m.die && y.issue == m.issue) s.hubMsgs }
        if !x.live (gaVersion m) then s.gatherGone d m
        else if gaBytes m = 0 then s.answer m stOk
        else s.gatherFrom d m x.tensorId 3 0
    | none, _ => if 4096 ≤ gaEntry m then s.answerBad m dtArgument else s.gatherGone d m
    | _, none => s.answerBad m dtArgument
  | _, _ => s

/-- GATHER_LIMIT_EXPIRY (R232 step 3). -/
def doGatherLimitExpiry (d : Fin 4) (s : State) : State :=
  match s.gather? d with
  | none => s
  | some g => if s.aon < g.since + max 1 (fget wvtGatherLimit s.wvt.cfg) then s else s.gatherFail d

/-! ## Matching answers to requests (log entry 31) -/

/-- Whom an answer on a port is for. -/
inductive Asker where
  | die (d : Fin 4) (g : Gather)
  | relay (r : Relay)

def Asker.order : Asker → Nat
  | .die _ g => g.order
  | .relay r => r.order

/-- The requests sent on a port with a version, oldest first choice: the one that expects the offset. -/
def State.asker (s : State) (p : Fin 24) (wver : Word) (off : Option Nat) : Option Asker :=
  let dies := (allFin 4).filterMap fun d => match s.gather? d with
    | some g => if g.port == p && gaVersion g.msg == wver && off.all (· == g.got) then some (Asker.die d g) else none
    | none => none
  let relays := (s.wvt.relays.filter fun r => r.outPort == p && r.wver == wver && off.all (· == r.got)).map Asker.relay
  (dies ++ relays).foldl (fun acc a => match acc with
    | none => some a
    | some b => if a.order < b.order then some a else acc) none

def State.setRelays (s : State) (f : List Relay → List Relay) : State := s.modWvt fun w => { w with relays := f w.relays }

def State.dropRelay (s : State) (r : Relay) : State := s.setRelays fun l => l.filter fun x => x.order != r.order

/-- A request's path has failed: here, or at the member that it was relayed for. -/
def State.askerFailed (s : State) (a : Asker) (st : Half) : State :=
  match a with
  | .die d _ => s.gatherFail d
  | .relay r => (s.dropRelay r).sendShardFail r.inPort r.inGroup r.wver st

/-- SHARD_DATA (R232): to the destination, or one hop back. -/
def doShardData (p : Fin 24) (s : State) : State :=
  match s.takeMsg p kShardData with
  | none => s
  | some (m, s) =>
    match s.asker p m.hdr.wver (some m.hdr.offset) with
    | none => s
    | some (.relay r) =>
      let got := r.got + m.payload.length
      let s := if r.bytes ≤ got then s.dropRelay r
        else s.setRelays fun l => updateWhere (fun x => x.order == r.order) (fun x => { x with got := got }) l
      match s.activeGroup r.inGroup with
      | none => s
      | some (_, e) => s.send r.inPort ⟨{ s.groupHdr e r.inPort kShardData m.payload.length with
          wver := r.wver, offset := m.hdr.offset, flags := m.hdr.flags }, m.payload⟩ .mbq
    | some (.die d g) =>
      match s.writeDev .hub (gaDest g.msg + g.got) (m.payload.map some) with
      | (s, some x) => (s.setGather d none).answer g.msg x.1 x.2
      | (s, none) =>
        let got := g.got + m.payload.length
        if got < gaBytes g.msg then s.setGather d (some { g with got := got, since := s.aon })
        else
          let s := s.setGather d none
          let s := if g.path = 0 then s else s.modWvt fun w => { w with cfg := fsat wvtFallbacks 1 w.cfg }
          s.answer g.msg stOk 0 (natLe 1 (b2n (g.path != 0)))

/-- SHARD_FAIL (R232 step 3). -/
def doShardFail (p : Fin 24) (s : State) : State :=
  match s.takeMsg p kShardFail with
  | none => s
  | some (m, s) => match s.asker p m.hdr.wver none with
    | none => s
    | some a => s.askerFailed a (bytesHalf m.payload 0)

/-! ## Serving and relaying (R233) -/

/-- This device's T group for a role, at the lowest level. -/
def State.tGroup (s : State) (role : Nat) : Option GroupEntry :=
  (((allFin 64).filterMap fun i => (s.grp i).active).filter fun e => e.axis == 1 && e.role == role).foldl (fun acc e =>
    match acc with
    | none => some e
    | some a => if e.level < a.level then some e else acc) none

/-- The T group that a request runs in: its own, or, when it came from a D group, that of the group's role. -/
def State.requestGroup (s : State) (e : GroupEntry) : Option GroupEntry := if e.axis = 1 then some e else s.tGroup e.role

/-- The entry of a tensor in which a version is live. -/
def State.liveTensor (s : State) (tensor v : Word) : Option WvtEntry :=
  (s.wvt.entries.find? fun x => x.2.tensorId == tensor && x.2.live v).map (·.2)

/-- What a SHARD_REQ's arrival is: misaddressed from a D group, for this device, or to be relayed. -/
inductive ShardFor where
  | bad
  | here
  | away (t : GroupEntry)

def State.shardFor (s : State) (g : Half) (payload : List Byte) : ShardFor :=
  match s.activeGroup g with
  | none => .bad
  | some (_, e) => match s.requestGroup e with
    | none => .bad
    | some t =>
      if t.rank ≠ leAt payload 4 2 then .away t
      else if e.axis = 0 ∧ !nbit (byteAt payload 6) 0 then .bad
      else .here

/-- Whether a SHARD_REQ fails row 0x0C of Table 10-10 at the holder (R233). -/
def State.shardReqGone (s : State) (h : Header) (payload : List Byte) : Bool :=
  match s.shardFor h.group payload with
  | .here => (s.liveTensor (bytesWord payload 0) h.wver).isNone
  | _ => false

/-- Send a shard's bytes to the neighbour at a port, in segments of the port's largest message (log entry 31). -/
def State.sendShard (s : State) (p : Fin 24) (g : Half) (wver : Word) (bs : List Byte) : State :=
  match s.activeGroup g with
  | none => s
  | some (_, e) =>
    let seg := 2 ^ (16 + (s.port p).phy.maxMsg)
    let cs := chunks seg bs.length bs
    forEach ((List.range cs.length).zip cs) (fun s x =>
      s.send p ⟨{ s.groupHdr e p kShardData x.2.length with
        wver := wver, offset := seg * x.1, flags := hflags false (x.1 + 1 == cs.length) false false }, x.2⟩ .mbq) s

/-- SHARD_REQ (R232, R233). -/
def doShardReq (p : Fin 24) (s : State) : State :=
  match s.takeMsg p kShardReq with
  | none => s
  | some (m, s) =>
    let h := m.hdr
    let b := m.payload
    match s.shardFor h.group b with
    | .bad => s.reject p h 0x06 stBadDescriptor
    | .here =>
      match s.liveTensor (bytesWord b 0) h.wver with
      | none => s.reject p h 0x0C stVersionGone 0
      | some x => match x.bufs.find? fun y => y.live h.wver with
        | none => s
        | some buf =>
          let (s, r) := s.readDev (buf.w + leAt b 8 8) (leAt b 16 4)
          match r.fail with
          | some f => s.sendShardFail p h.group h.wver f.1
          | none => if r.bad then s.sendShardFail p h.group h.wver stPoisoned else s.sendShard p h.group h.wver r.data
    | .away t =>
      match s.usablePort (t.portTo (leAt b 4 2)) with
      | none => s.sendShardFail p h.group h.wver stPortLost
      | some q =>
        let r : Relay := ⟨h.wver, leAt b 16 4, 0, p, h.group, q, s.wvt.orders⟩
        let s := s.modWvt fun w => { w with relays := w.relays ++ [r], orders := w.orders + 1 }
        s.send q ⟨{ s.groupHdr t q kShardReq 32 with wver := h.wver }, padTo 32 b⟩ (.relay p)

/-- A NACK of a request (R232 step 3, R233). -/
def State.shardNack (s : State) (p : Fin 24) (wver : Word) (st : Half) : State :=
  match s.asker p wver none with
  | none => s
  | some a => s.askerFailed a st

/-- A port is lost to the gathers and relays that use it. -/
def State.shardPortLost (s : State) (p : Fin 24) : State :=
  let s := s.setRelays fun l => l.filter fun r => r.inPort != p
  let s := forEach (s.wvt.relays.filter fun r => r.outPort == p) (fun s r => s.askerFailed (.relay r) stPortLost) s
  forEach (allFin 4) (fun s d => match s.gather? d with
    | some g => if g.port == p then s.gatherFail d else s
    | none => s) s

end Sys2Proof.Machine
end

