-- ==== Sys2Proof/Machine/Role.lean ====
section
/-!
DEFINITION. Stage roles as a whole (spec 12): QCREDIT (R218), SP_BLOCK (R237), a NACK on a stage link (R235), and installing and
removing a role (R207, R215, R219, R236).
-/
namespace Sys2Proof.Machine

/-! ## QCREDIT (R218) -/

/-- Apply a grant count to a link, if the link exists, reaches the sender, and bears its epoch. -/
def State.applyGrant (s : State) (h : Header) (stage : Half) (d : Dir) (n : Nat) : State :=
  match s.roleOf stage with
  | none => s
  | some r =>
    let l := s.link r d
    if l.exists_ && l.partner == h.srcPos && l.epoch == h.roleEpoch then s.modLink r d fun x => { x with partnerGranted := n }
    else s

/-- QCREDIT. -/
def doQcredit (p : Fin 24) (s : State) : State :=
  match s.takeMsg p kQcredit with
  | none => s
  | some (m, s) =>
    let h := m.hdr
    let s := s.modSle fun x => { x with
      heard := (x.heard.filter fun y => !(y.pos == h.srcPos && y.stage == h.stage)) ++ [⟨h.srcPos, h.stage, h.roleEpoch⟩] }
    (s.applyGrant h (h.stage - 1) .fwd (leAt m.payload 0 2)).applyGrant h (h.stage + 1) .bwd (leAt m.payload 2 2)

/-- The partner positions of a role's links. -/
def State.partners (s : State) (r : Fin 4) : List Word :=
  (([Dir.bwd, Dir.fwd].map fun d => (s.link r d).partner).filter (· != 0)).eraseDups

/-- QCREDIT_PERIODIC: every 2^14 AON ticks. -/
def doQcreditPeriodic (s : State) : State :=
  if s.aon % 2 ^ 14 ≠ 0 then s
  else forEach (allFin 4) (fun s r => if s.roleUsed r then forEach (s.partners r) (fun s q => s.sendQcredit r q) s else s) s

/-! ## SP_BLOCK (R237) -/

/-- Whether byte ranges cover every byte below a length. -/
def coversBelow (segs : List (Nat × Nat)) (n : Nat) : Bool :=
  n ≤ (sortBy (fun a b => decide (a.1 ≤ b.1)) segs).foldl (fun reach x => if x.1 ≤ reach then max reach (x.1 + x.2) else reach) 0

def lgSpBlock : Nat := 9

def doSpBlock (p : Fin 24) (s : State) : State :=
  match s.takeMsg p kSpBlock with
  | none => s
  | some (m, s) =>
    match (s.activeGroup m.hdr.group).bind fun x => fin? 4 x.2.role with
    | none => s
    | some r =>
      let b := vget s.sle.spbuf r
      let n := m.payload.length
      if fget spbufLimitKib b.reg * 1024 < m.hdr.offset + n then s.log .hub lgSpBlock [r.1, m.hdr.offset, n]
      else
        let s := s.putHub (fget spbufHubBase b.reg * 4096 + m.hdr.offset) m.payload
        let segs := b.segs ++ [(m.hdr.offset, n)]
        let last := if m.hdr.flags.getLsbD hfLast then some (m.hdr.offset + n) else b.last
        let full := last.any (coversBelow segs)
        let s := s.modSle fun x => { x with
          spbuf := vset x.spbuf r { b with segs := if full then [] else segs, last := if full then none else last } }
        if full then s.postMask (fget spbufDies b.reg) (fget spbufSem b.reg) else s

/-! ## A NACK on a stage link (R235, Table 12-17) -/

/-- The fields of a NACK's payload (spec 10 Table 10-11). -/
def nkStatus (b : List Byte) : Half := bytesHalf b 0
def nkVc (b : List Byte) : Nat := byteAt b 3 % 8
def nkKind (b : List Byte) : Nat := byteAt b 4
def nkCur (b : List Byte) : Word := bytesWord b 12
def nkHint (b : List Byte) : Word := bytesWord b 16
def nkOffset (b : List Byte) : Nat := leAt b 20 4

/-- ROLE_STALE: the link goes STALE, and the output will be sent again; when an install has already brought EPOCH up, it is sent again
at once. Any other status drops the micro-batch with cause REFUSED. -/
def State.sleNack (s : State) (m : Msg) : State :=
  let h := m.hdr
  let b := m.payload
  let d : Dir := if nkVc b = vcFwd then .fwd else .bwd
  let stage : Half := match d with
    | .fwd => h.stage - 1
    | .bwd => h.stage + 1
  match s.roleOf stage with
  | none => s
  | some r =>
    let l := s.link r d
    let hit := fun (o : Output) => o.isFor h.step h.mbId && o.kindCode == nkKind b && o.started
    match l.outputs.find? hit with
    | none => s
    | some o =>
      if l.partner ≠ h.srcPos then s
      else if nkStatus b = stRoleStale then
        let s := (s.log .hub lgLink [r.1, (nkCur b).toNat, (nkHint b).toNat]).emit
          (.report rpRoleStale [r.1, (nkCur b).toNat, (nkHint b).toNat])
        if nkCur b ≠ noPos ∧ 0 ≤ epochDiff l.epoch (nkCur b) then
          s.modOutput r d (fun x => x == o) fun x => { x.restart false with started := false }
        else
          let later := match l.staleTo with
            | some e => if epochDiff (nkCur b) e < 0 then e else nkCur b
            | none => nkCur b
          ((s.modOutput r d (fun x => x == o) fun x => { x with bounced := true }).modLink r d fun x =>
            { x with staleTo := some later }).refreshLink r d
      else
        let s := (s.log .hub lgLink [r.1, (nkStatus b).toNat]).emit (.report rpLinkNack [r.1, (nkStatus b).toNat])
        let s := s.modLink r d fun x => { x with outputs := dropFirst (fun y => y == o) x.outputs }
        s.dropMicro r o.step o.mb o.wver o.eval dcRefused true (some (nkStatus b, 0))

/-! ## The role block (spec 15 Table 15-12) -/

/-- The fields of a role block. -/
structure RoleBlock where
  up    : LinkImage
  down  : LinkImage
  cfg   : Quad
  fpay  : Quad
  bpay  : Quad
  range : Word
  role  : Quad
  step  : Word
deriving DecidableEq, Repr

def parseRoleBlock (b : List Byte) : RoleBlock where
  up := BitVec.ofNat 128 (leAt b 0 16)
  down := BitVec.ofNat 128 (leAt b 16 16)
  cfg := BitVec.ofNat 64 (leAt b 32 8)
  fpay := BitVec.ofNat 64 (leAt b 40 8)
  bpay := BitVec.ofNat 64 (leAt b 48 8)
  range := bytesWord b 56
  role := BitVec.ofNat 64 (leAt b 60 8)
  step := bytesWord b 72

/-- A forwarding entry from its 16 bytes (R200), if it is valid. -/
def parseForwarding (b : List Byte) (tick : Nat) : Option Forwarding :=
  if nbit (byteAt b 2) 0 then some ⟨bytesHalf b 0, bytesWord b 4, bytesWord b 8, tick⟩ else none

def forwardingReserved (b : List Byte) : Bool := 1 < byteAt b 2 || byteAt b 3 != 0 || !allZero (slice b 12 4)

/-- Load a forwarding entry: it replaces one of its stage, and evicts the oldest of 16 (R200). -/
def State.loadForwarding (s : State) (f : Option Forwarding) : State :=
  match f with
  | none => s
  | some f => s.modJob fun j => { j with forwarding := keepLast 16 ((j.forwarding.filter fun x => x.stage != f.stage) ++ [f]) }

/-- Whether a reserved field of a role block is not zero. -/
def roleReserved (b : List Byte) (k : RoleBlock) : Bool :=
  let mid : Fld := (123, 96)
  fon mid k.up || fon mid k.down || fon (32, 32) k.cfg || fon (31, 28) k.range || fon (15, 13) k.range ||
  fon (30, 16) k.role || !allZero (slice b 68 4) || !allZero (slice b 76 4) || forwardingReserved (slice b 80 16) ||
  !allZero (b.drop 96)

/-- Whether a field of a role block holds a value outside its range (R219, Tables 12-3, 12-4, 12-14). -/
def RoleBlock.outOfRange (k : RoleBlock) : Bool :=
  let fq := fget rcfgFqDepth k.cfg
  let bq := fget rcfgBqDepth k.cfg
  let pay := fun (w : Quad) (depth : Nat) =>
    8 < fget paySeg w || fget payEntryMib w == 0 ||
    (fget payHubKib w != 0 && vaultBase < fget payHubBase w * 4096 + depth * fget payHubKib w * 1024)
  fon sleState k.up || fon sleState k.down || !fon roleValid k.role || 4096 < fget rangeFirst k.range + fget rangeCount k.range ||
  fget rcfgSched k.cfg == 3 || fq == 0 || 16 < fq || bq == 0 || 16 < bq || fget rcfgMbPerStep k.cfg == 0 ||
  fget rcfgWarmup k.cfg == 0 || pay k.fpay fq || pay k.bpay bq

def RoleBlock.stage (k : RoleBlock) : Half := BitVec.ofNat 16 (fget roleStage k.role)
def RoleBlock.epoch (k : RoleBlock) : Word := BitVec.ofNat 32 (fget roleRoleEpoch k.role)

/-- The differences of the epochs that an install sets from the current ones (R207). -/
def State.roleDiffs (s : State) (r : Fin 4) (k : RoleBlock) : List Int :=
  let one := fun (d : Dir) (w : LinkImage) =>
    let l := s.link r d
    let e : Word := BitVec.ofNat 32 (fget sleEpoch w)
    if l.exists_ && fon slePartner w then [epochDiff e l.epoch] else []
  if s.roleUsed r then epochDiff k.epoch (s.roleEpoch r) :: (one .bwd k.up ++ one .fwd k.down) else []

/-- Why an install of a role block is refused (R207, R210, R215, R219, R236). -/
def State.roleRefused (s : State) (r : Fin 4) (b : List Byte) (k : RoleBlock) : Option (Half × Half) :=
  let others := (allFin 4).filter fun x => x != r && s.roleUsed x
  let image := fun (w : LinkImage) => ({ StageLink.reset with reg := w } : StageLink)
  let t := (s.modLink r .bwd fun _ => image k.up).modLink r .fwd fun _ => image k.down
  if roleReserved b k then some (stBadDescriptor, dtReserved)
  else if k.outOfRange || others.any (fun x => fget rcfgSched (s.mq x).cfgNow != fget rcfgSched k.cfg) ||
      others.any (fun x => s.stageOf x == k.stage) || s.linkBad k.stage .bwd k.up || s.linkBad k.stage .fwd k.down ||
      clashing (t.otherBindings ++ t.groupBindings) then some (stBadDescriptor, dtArgument)
  else
    let ds := s.roleDiffs r k
    if ds.any (· < 0) || (!ds.isEmpty && ds.all (· == 0)) then some (stNotPermitted, dtEpoch)
    else if s.linkBusy r .bwd k.up || s.linkBusy r .fwd k.down ||
        (vget s.wvt.ranges r != k.range && s.wvt.pinned r) then some (stNotPermitted, dtState)
    else none

/-- The role epoch has risen: every unbound entry that came from a partner is bounced at weight 0 and its key forgotten (R236). -/
def State.bounceQueues (s : State) (r : Fin 4) : State :=
  let q := s.mq r
  let s := forEach (q.fq ++ q.bq) (fun s e => match e.src with
    | some (p, h) => s.bounce p h .role true
    | none => s) s
  let stage := s.stageOf r
  let s := forEach (allFin 24) (fun s p => s.forgetKeys p fun k => k.stage == stage) s
  (s.modMq r fun q => { q with fq := q.fq.filter (·.src.isNone), bq := q.bq.filter (·.src.isNone) }).modMbq fun m =>
    { m with dead := m.dead.filter fun k => k.role != r }

/-- Adopt a role block (R206, R236): the role slot, both links, the queues' values, the range, in one cycle. -/
def State.installRole (s : State) (r : Fin 4) (k : RoleBlock) : State :=
  let was := s.roleUsed r
  let rose := was && k.epoch != s.roleEpoch r
  let tick := if was && !rose then vget s.job.roleTick r else s.aon
  let s := s.modJob fun j => { j with roles := vset j.roles r k.role, roleTick := vset j.roleTick r tick }
  let s := if rose then s.bounceQueues r else s
  let reUp := s.linkRestarts r .bwd k.up rose
  let reDown := s.linkRestarts r .fwd k.down rose
  let s := s.modMq r fun q =>
    let q := { q with cfg := k.cfg, fpay := k.fpay, bpay := k.bpay, cfgNow := k.cfg, fpayNow := k.fpay, bpayNow := k.bpay }
    if was then q else { q with stepStat := fput stepStep k.step.toNat 0, counted := [] }
  let s := if was then s else s.modFr fun x => { x with votes := vset x.votes r RoleVote.reset }
  let s := (s.putLink r .bwd k.up rose).putLink r .fwd k.down rose
  let s := (s.setExpects (s.link r .bwd).bindings).setExpects (s.link r .fwd).bindings
  let s := s.setRange r k.range
  let s := if reUp then s.grantAll r .fwd else s
  if reDown then s.grantAll r .bwd else s

/-- ROLE_INSTALL. -/
def doRoleInstall (h : Quad) (src : HostData) (s : State) : State :=
  match s.begins h 0x21 with
  | none => s
  | some c =>
    if c.arg 9 1 % 2 = 1 then s
    else match fin? 4 (c.arg 8 1) with
    | none => (s.running h).bad h dtArgument
    | some r => (s.running h).withSource h (c.arg 16 8) 256 src fun b s =>
      let k := parseRoleBlock b
      match s.roleRefused r b k with
      | some x => s.final h x.1 x.2
      | none => ((s.installRole r k).loadForwarding (parseForwarding (slice b 80 16) s.aon)).finalOk h []

/-! ## Removing a role (R236) -/

/-- Drop everything a role holds with cause ROLE_REMOVED, without MB_DROP. -/
def State.dropRole (s : State) (r : Fin 4) : State :=
  let q := s.mq r
  let s := forEach (q.fq ++ q.bq) (fun s e => s.dropLog r e.step e.mb e.wver e.eval dcRoleRemoved) s
  let s := s.modMq r fun q => { q with fq := [], bq := [], fOwed := 0 }
  let s := forEach (allFin 16) (fun s i =>
    let x := s.slot i
    if x.role = r ∧ x.state ≠ slFree ∧ x.state ≠ slDropped then s.dropSlot i dcRoleRemoved false else s) s
  let s := forEach (s.mbq.records.filter fun x => x.role == r) (fun s x =>
    ((s.dropLog r x.step x.mb x.wver false dcRoleRemoved).freeRecord x.idx).modWvt fun w => w.unpin r x.wver) s
  s.modMbq fun m => { m with dead := m.dead.filter fun k => k.role != r }

/-- Remove a role slot with its links. -/
def State.removeRole (s : State) (r : Fin 4) : State :=
  let s := (s.modLink r .bwd fun _ => StageLink.reset).modLink r .fwd fun _ => StageLink.reset
  ((s.dropRole r).modFr fun x => { x with votes := vset x.votes r RoleVote.reset }).modJob fun j => { j with roles := vset j.roles r 0, roleTick := vset j.roleTick r s.aon }

/-- ROLE_REMOVE; only bytes 95–80 of a block are read. -/
def doRoleRemove (h : Quad) (src : HostData) (s : State) : State :=
  match s.begins h 0x21 with
  | none => s
  | some c =>
    if c.arg 9 1 % 2 = 0 then s
    else
      let s := s.running h
      match fin? 4 (c.arg 8 1) with
      | none => s.bad h dtArgument
      | some r =>
        if !s.roleUsed r || s.mbq.slots.toList.any (fun x => x.running && x.role == r) then s.denied h dtState
        else if c.arg 16 8 = 0 then (s.removeRole r).finalOk h []
        else s.withSource h (c.arg 16 8 + 80) 16 src fun b s =>
          if forwardingReserved b then s.bad h dtReserved
          else ((s.removeRole r).loadForwarding (parseForwarding b s.aon)).finalOk h []

end Sys2Proof.Machine
end

