-- ==== Sys2Proof/Machine/Tally.lean ====
section
/-!
DEFINITION. The tally engines (spec 13): arming and starting jobs (R238, R239), the paths round the rings of a chain (R240, R241), the
tally add with doubling and the sampled check (R243, R246, R252), pre-rolls and re-rolls (R245, R247), deadlines and carries
(R250, R251), statistics (R253) and the completion record (R254, R255).
-/
namespace Sys2Proof.Machine

/-! ## Jobs -/

def opAllreduce : Nat := 0
def opReduceScatter : Nat := 1
def opAllGather : Nat := 2

def State.tjob (s : State) (j : Fin 64) : Option TlyJob := vget s.tly.jobs j
def State.setTjob (s : State) (j : Fin 64) (t : Option TlyJob) : State := s.modTly fun x => { x with jobs := vset x.jobs j t }
def State.modTjob (s : State) (j : Fin 64) (f : TlyJob → TlyJob) : State :=
  s.modTly fun x => { x with jobs := vmod x.jobs j fun t => t.map f }
def State.modTrun (s : State) (j : Fin 64) (f : JobRun → JobRun) : State :=
  s.modTjob j fun t => { t with run := t.run.map f }

/-- The run of a job. -/
def State.trun (s : State) (j : Fin 64) : Option JobRun := (s.tjob j).bind (·.run)

/-- A step is in progress: a run whose record has not been written. -/
def TlyJob.busy (t : TlyJob) : Bool := match t.run with
  | some r => !r.recorded
  | none => false

/-- Blocks of a tensor of `c` elements. -/
def blocksOf (c : Nat) : Nat := (c + 255) / 256

/-- NB, the blocks of a job (R238). -/
def TlyJob.nb (t : TlyJob) : Nat := (t.table.map fun x => blocksOf x.2).sum

/-- How many of a block's elements the tensor table names: the others read as +0 and are never written. -/
def blockLen : List (Nat × Nat) → Nat → Nat
  | [], _ => 0
  | x :: r, b => if b < blocksOf x.2 then min 256 (x.2 - 256 * b) else blockLen r (b - blocksOf x.2)

def TlyJob.blockLen (t : TlyJob) (b : Nat) : Nat := Machine.blockLen t.table b

/-- Bytes of one whole block of a format. -/
def blockBytes (f : Nat) : Nat := if f = 8 then 2112 else fmtBytes f 256

/-- Bytes of the first `n` elements of a block. -/
def partBytes (f n : Nat) : Nat := if f = 8 then 64 + 8 * n else fmtBytes f n

/-! ## Homes and paths (R240, R241) -/

/-- The first index of a range of `n` blocks that is homed at rank `h` of `m`. -/
def homeFirst (n m h : Nat) : Nat := (h * n + m - 1) / m

/-- The part of a range (first block, count) that is homed at a rank. -/
def homeRange (r : Nat × Nat) (m h : Nat) : Nat × Nat :=
  (r.1 + homeFirst r.2 m h, homeFirst r.2 m (h + 1) - homeFirst r.2 m h)

/-- The home of a block of a range. -/
def homeOf (r : Nat × Nat) (m b : Nat) : Nat := if r.2 = 0 then 0 else (b - r.1) * m / r.2

/-- The range that a level of the chain reduces at this member: at level 0 everything, above it what is homed here below. -/
def levelRange (nb : Nat) (chain : List GroupEntry) (level : Nat) : Nat × Nat :=
  (chain.take level).foldl (fun r e => homeRange r e.members.length e.rank) (0, nb)

/-- The blocks whose path at a level starts here: those homed at the rank before this one. -/
def startRange (nb : Nat) (chain : List GroupEntry) (level : Nat) : Nat × Nat :=
  match chain[level]? with
  | none => (0, 0)
  | some e => homeRange (levelRange nb chain level) e.members.length e.prevRank

/-- Whether a block lies in a range. -/
def inRange (r : Nat × Nat) (b : Nat) : Bool := r.1 ≤ b && b < r.1 + r.2

/-- The blocks whose top home is this member. -/
def topRange (nb : Nat) (chain : List GroupEntry) : Nat × Nat := levelRange nb chain chain.length

/-- The flat rank (R241). -/
def flatRank (chain : List GroupEntry) : Nat :=
  (chain.foldl (fun (x : Nat × Nat) e => (x.1 + x.2 * e.rank, x.2 * e.members.length)) (0, 1)).1

/-- The product of MEMBERS over the chain. -/
def chainSize (chain : List GroupEntry) : Nat := chain.foldl (fun n e => n * e.members.length) 1

/-- Cut a list of blocks into maximal runs of rising blocks that agree in a property. -/
def blockRuns (p : Nat → Bool) : List Nat → List (List Nat)
  | [] => []
  | a :: r => match blockRuns p r with
    | [] => [[a]]
    | [] :: gs => [a] :: gs
    | (b :: g) :: gs => if b = a + 1 ∧ p a = p b then (a :: b :: g) :: gs else [a] :: (b :: g) :: gs

/-- The segments in which a range is first sent: 64 blocks each, cut where pre-rolled blocks meet others. -/
def planOf (p : Nat → Bool) (r : Nat × Nat) : List (List Nat) :=
  (chunks 64 (r.2 + 1) ((List.range r.2).map (· + r.1))).flatMap (blockRuns p)

/-! ## Blocks of a run -/

def noGrid : Nat := 0x8000

/-- The first state of a block: pre-rolled where the grid table or the job says so (R245). -/
def BlockRun.first (d : JobDesc) (code : Nat) : BlockRun :=
  let pre := d.op != opAllGather && (d.preroll || code == noGrid)
  ⟨0, if pre then 0 else sInt 16 code, pre, 0, false, false⟩

def JobRun.block (r : JobRun) (d : JobDesc) (b : Nat) : BlockRun :=
  (sget r.blocks b).getD (BlockRun.first d (r.grids.getD b noGrid))

def JobRun.setBlock (r : JobRun) (b : Nat) (x : BlockRun) : JobRun := { r with blocks := sput r.blocks b x }

/-- The state of a block in the run of a job. -/
def State.tblock (s : State) (j : Fin 64) (b : Nat) : BlockRun :=
  match s.tjob j with
  | some t => match t.run with
    | some r => r.block t.desc b
    | none => BlockRun.first t.desc noGrid
  | none => ⟨0, 0, false, 0, false, false⟩

def State.modTblock (s : State) (j : Fin 64) (b : Nat) (f : BlockRun → BlockRun) : State :=
  s.modTrun j fun r => r.setBlock b (f (s.tblock j b))

/-! ## Segments (Table 13-3) -/

def phReduce : Nat := 0
def phGather : Nat := 1
def phPreReduce : Nat := 2
def phPreGather : Nat := 3

def noticeDoubling : Nat := 1
def noticeCheck : Nat := 2
def noticePreroll : Nat := 3
def noticeFail : Nat := 4

def SegStats.none : SegStats := ⟨0xFFFF, 0, 0, 0, 0⟩

def TlBlock.none (g : Int) : TlBlock := ⟨g, 0, 0, List.replicate 256 0⟩

/-- The header values of a segment: those of its blocks, with the least PRANK. -/
def statsOf (l : List LevelBlock) : SegStats :=
  let st := (l.head?.map (·.stats)).getD SegStats.none
  { st with prank := l.foldl (fun n x => min n x.stats.prank) 0xFFFF }

/-- The bytes of a segment: header, block descriptions, and the blocks of a phase that carries them. -/
def segBytes (job : Word) (phase level : Nat) (l : List LevelBlock) : List Byte :=
  let st := statsOf l
  let head := natLe 4 job.toNat ++ natLe 4 ((l.head?.map (·.b)).getD 0) ++ natLe 1 l.length ++ natLe 1 (4 * phase + level) ++
    natLe 2 st.prank ++ natLe 4 st.count ++ natLe 2 st.members ++ natLe 2 st.late ++ natLe 8 st.digest
  let exp := fun (x : LevelBlock) => match x.exp with
    | some e => (e % 65536).toNat
    | none => noGrid
  let descs := l.flatMap fun x => natLe 1 x.attempt ++ natLe 1 x.notice ++ natLe 2 (exp x) ++ natLe 4 x.spart.toNat
  let body := if phase ≤ 1 then l.flatMap fun x => tlToBytes x.blk else []
  padTo 576 (padTo 64 head ++ descs) ++ body

/-- A segment header as parsed. -/
structure Seg where
  job    : Word
  phase  : Nat
  level  : Nat
  blocks : List LevelBlock
  rest   : List Byte

/-- Parse a TALLY or TALLY_COPY payload; none for a reserved or impossible value. -/
def parseSeg (copy : Bool) (b : List Byte) : Option Seg :=
  let n := byteAt b 8
  let first := leAt b 4 4
  let phase := nbits (byteAt b 9) 3 2
  let level := byteAt b 9 % 4
  let pre := 2 ≤ phase
  let st : SegStats := ⟨leAt b 10 2, leAt b 12 4, leAt b 16 2, leAt b 18 2, leAt b 20 8⟩
  let blk := fun (i : Nat) =>
    let o := 64 + 8 * i
    let g := if pre || copy then TlBlock.none 0 else (tlRaw 0 ((slice b (576 + 2112 * i) 2112).map some)).whole
    ({ b := first + i, level := level, pre := pre, attempt := byteAt b o, notice := byteAt b (o + 1)
       exp := if leAt b (o + 2) 2 = noGrid then Option.none else some (sInt 16 (leAt b (o + 2) 2))
       spart := bytesWord b (o + 4), blk := g, stats := st } : LevelBlock)
  let size := if pre then b.length == 576 else if copy then 576 ≤ b.length else b.length == 576 + 2112 * n
  if n = 0 ∨ 64 < n ∨ level = 3 ∨ 16 ≤ byteAt b 9 ∨ !allZero (slice b 28 36) ∨ !allZero (slice b (64 + 8 * n) (512 - 8 * n)) ∨
      !size then Option.none
  else some ⟨bytesWord b 0, phase, level, (List.range n).map blk, b.drop 576⟩

/-- The phase of a reduce path. -/
def reducePhase (pre : Bool) : Nat := if pre then phPreReduce else phReduce
def gatherPhase (pre : Bool) : Nat := if pre then phPreGather else phGather

/-- Send a segment on NEXT_PORT of a level (R242). -/
def State.sendSeg (s : State) (j : Fin 64) (kind phase level : Nat) (l : List LevelBlock) (body : List Byte) : State :=
  match s.tjob j with
  | none => s
  | some t => match t.run, (s.chainEntries t.desc.slot)[level]? with
    | some r, some e => match port? e.nextPort with
      | none => s
      | some p =>
        let bs := segBytes t.desc.job phase level l ++ body
        let h : Header := { s.hdr (e.memberPos e.nextRank) e.vc kind bs.length with
          group := e.gid, layoutEpoch := e.layout, membEpoch := e.memb, step := r.step
          flags := hflags false false (r.absent && level == 0 && phase != phGather) false }
        s.send p ⟨h, bs⟩ (.tly j)
    | _, _ => s

def State.sendTally (s : State) (j : Fin 64) (phase level : Nat) (l : List LevelBlock) : State :=
  if l.isEmpty then s else s.sendSeg j kTally phase level l []

/-! ## This member's contribution (R243, R245, R251) -/

/-- The elements of a block as a contributor holds them: values, or a TL64 block. -/
inductive Orig where
  | vals (l : List Val)
  | tl (b : TlBlock)

/-- Read a block's elements at a base: poisoned bytes give NaN, elements beyond the tensor +0. -/
def State.readOrig (s : State) (f base b len : Nat) : State × Orig :=
  let (s, r) := s.readDev (base + blockBytes f * b) (partBytes f len)
  if f = 8 then
    (s, .tl (tlRaw 0 (r.bytes ++ List.replicate (2112 - r.bytes.length) (some 0))).whole)
  else
    (s, .vals ((List.range len).map fun i => match elemAt f r.bytes i with
      | some c => decElem f c 0x7F
      | none => canonNan))

/-- The elements on a grid (R42, R87). -/
def Orig.onGrid (g : Int) : Orig → TlBlock
  | .vals l => (encTlBlock g (l.map some)).1
  | .tl b => tlConvert g b

def Orig.list : Orig → List Val
  | .vals l => l
  | .tl b => (List.range 256).map b.val

/-- ⌊log2⌋ of a finite non-zero value's magnitude. -/
def valLog : Val → Option Int
  | .fin _ m e _ => some ((bitLen m : Int) - 1 + e)
  | _ => none

def maxOpt (a b : Option Int) : Option Int :=
  match a, b with
  | none, x => x
  | x, none => x
  | some x, some y => some (max x y)

/-- The largest exponent among finite non-zero elements (R245). -/
def Orig.topLog (o : Orig) : Option Int := o.list.foldl (fun m v => maxOpt m (valLog v)) none

/-- How far a magnitude of exponent `l`, in units of the grid, passes 2^62: at least 1 where it triggers (R246). -/
def passes (g : Int) : Option Int → Int
  | some l => l - g - 61
  | none => 0

/-- The same for an integer element. -/
def intPasses (n : Int) : Int := if n = 0 then 0 else (bitLen n.natAbs : Int) - 1 - 61

/-- The largest overflow of the exact sums of two blocks on one grid. -/
def sumPasses (a b : TlBlock) : Int :=
  let p := a.poison ||| b.poison
  (List.range 256).foldl (fun m i =>
    if p.getLsbD i then m else max m (intPasses (a.elems.getD i 0 + b.elems.getD i 0))) 0

/-- A contribution on a grid: its block, and the largest overflow among its conversions and its own sum. -/
structure Contrib where
  blk  : TlBlock
  past : Int

/-- The level-0 contribution of this member to a block: the original, and the carry when one is held. -/
def State.contribution (s : State) (t : TlyJob) (b : Nat) (g : Int) : State × Contrib :=
  let (s, o) := s.readOrig t.desc.sfmt t.desc.src b (t.blockLen b)
  let x := o.onGrid g
  let e := passes g o.topLog
  match t.carry with
  | none => (s, ⟨x, e⟩)
  | some _ =>
    let (s, c) := s.readOrig t.desc.sfmt t.desc.carry b (t.blockLen b)
    let y := c.onGrid g
    (s, ⟨tlAdd x y, max (max e (passes g c.topLog)) (sumPasses x y)⟩)

/-- The largest exponent of this member's original and carry. -/
def State.contribLog (s : State) (t : TlyJob) (b : Nat) : State × Option Int :=
  let (s, o) := s.readOrig t.desc.sfmt t.desc.src b (t.blockLen b)
  match t.carry with
  | none => (s, o.topLog)
  | some _ =>
    let (s, c) := s.readOrig t.desc.sfmt t.desc.carry b (t.blockLen b)
    (s, maxOpt o.topLog c.topLog)

/-- A W32 sum by RNE. -/
def addW32 (a b : Word) : Word := BitVec.ofNat 32 (encW32 .rne false 0 (addV (decW32 a.toNat) (decW32 b.toNat)).1).1

/-- The exact square sum of a block's integers, as W32 (R253). -/
def squareSum (b : TlBlock) : Word :=
  BitVec.ofNat 32 (encW32 .rne false 0 (ofInt (b.elems.foldl (fun n x => n + x * x) 0) (2 * b.g))).1

/-- The block that a doubling trigger sends on (R246). -/
def LevelBlock.doubled (x : LevelBlock) (o : Int) : LevelBlock :=
  { x with notice := noticeDoubling, blk := { TlBlock.none (x.blk.g + o + 8) with flags := x.blk.flags ||| tlDoubling } }

/-- The digest term of a member (R250). -/
def digestTerm (f : Nat) (step job : Word) : Nat :=
  let w := philox 0 0 f step.toNat job.toNat
  w.2.1 * 2 ^ 32 + w.1

/-- The header values with this member's own added at level 0. -/
def ownStats (t : TlyJob) (r : JobRun) (chain : List GroupEntry) (st : SegStats) : SegStats :=
  if r.absent then { st with late := (st.late + 1) % 65536 }
  else { st with
    count := (st.count + r.count + t.carry.getD 0) % 2 ^ 32
    members := (st.members + 1) % 65536
    digest := (st.digest + digestTerm (flatRank chain) r.step t.desc.job) % 2 ^ 64 }

/-- The header values of two contributions together. -/
def SegStats.plus (a b : SegStats) : SegStats :=
  ⟨min a.prank b.prank, (a.count + b.count) % 2 ^ 32, (a.members + b.members) % 65536, (a.late + b.late) % 65536,
    (a.digest + b.digest) % 2 ^ 64⟩

/-! ## Adding to an arriving block -/

/-- Whether the sampled check applies to a block (R252). -/
def State.checked (s : State) (t : TlyJob) (r : JobRun) (b : Nat) : Bool :=
  let n := fget tlyCfgCheckN s.tly.cfg
  let n := if 8 ≤ n ∧ n ≤ 4096 then n else 64
  t.desc.check && fon tlyCfgCheckEn s.tly.cfg && (b + r.step.toNat) % n == 0

def lgMismatch : Nat := 10

/-- The outcome of an add: doubled, found wrong by the shadow adder, or the sum. -/
def State.addOutcome (s : State) (j : Fin 64) (x : LevelBlock) (c : TlBlock) (past : Int) (spart : Word) (mis : List Nat) :
    State × LevelBlock :=
  let e := max past (sumPasses x.blk c)
  let y := if 1 ≤ e then x.doubled e else { x with blk := tlAdd x.blk c, spart := addW32 x.spart spart }
  match s.tjob j with
  | some t => match t.run with
    | some r =>
      if !s.checked t r x.b then (s, y)
      else
        let s := s.modTly fun k => { k with check := fsat tlyCheckChecked 1 k.check }
        if !mis.contains x.b then (s, y)
        else
          let s := (s.modTly fun k => { k with check := fsat tlyCheckMismatch 1 k.check }).log .tly lgMismatch
            [j.1, x.b, x.attempt, t.unit, (t.unit + 1) % 4]
          let n := if 2 ≤ (r.block t.desc x.b).checks then noticeFail else noticeCheck
          (s, { x with notice := n, blk := { TlBlock.none x.blk.g with flags := x.blk.flags } })
    | none => (s, y)
  | none => (s, y)

/-- Add this member's original to an arriving level-0 block (R243); a marked block, and one of an attempt that has been given
up, passes unchanged, and so does any block at an absent member. -/
def State.addOriginal (s : State) (j : Fin 64) (mis : List Nat) (x : LevelBlock) : State × LevelBlock :=
  match s.tjob j with
  | none => (s, x)
  | some t => match t.run with
    | none => (s, x)
    | some r =>
      let chain := s.chainEntries t.desc.slot
      let k := r.block t.desc x.b
      let s := s.modTblock j x.b fun y => { y with passed := true }
      let x := { x with stats := ownStats t r chain x.stats }
      if r.absent || x.attempt < k.attempt then (s, x)
      else if x.pre then
        let (s, l) := s.contribLog t x.b
        (s, { x with exp := maxOpt x.exp l })
      else if x.notice ≠ 0 then (s, x)
      else
        let (s, c) := s.contribution t x.b x.blk.g
        let x := if c.blk.poison = 0 then x else { x with stats := { x.stats with prank := min x.stats.prank (flatRank chain) } }
        s.addOutcome j x c.blk c.past (squareSum c.blk) mis

/-- The higher of two notices: FAIL over DOUBLING over CHECK. -/
def noticeRank (n : Nat) : Nat := if n = noticeFail then 3 else if n = noticeDoubling then 2 else if n = noticeCheck then 1 else 0

/-- Add this member's level result to an arriving block of the next level. -/
def State.addResult (s : State) (j : Fin 64) (mis : List Nat) (own x : LevelBlock) : State × LevelBlock :=
  let x := { x with stats := x.stats.plus own.stats }
  if x.pre then (s, { x with exp := maxOpt x.exp own.exp })
  else if x.notice ≠ 0 ∨ own.notice ≠ 0 then
    let m := if noticeRank own.notice ≤ noticeRank x.notice then x else { own with stats := x.stats, level := x.level }
    if x.notice = noticeDoubling ∧ own.notice = noticeDoubling then
      (s, { m with blk := { m.blk with g := max x.blk.g own.blk.g } })
    else (s, m)
  else
    let c := if own.blk.g = x.blk.g then own.blk else tlConvert x.blk.g own.blk
    let past := if own.blk.g = x.blk.g then 0
      else (List.range 256).foldl (fun m i => max m (passes x.blk.g (valLog (own.blk.val i)))) 0
    s.addOutcome j x c past own.spart mis

/-- Take this member's result of a level for a block out of those that wait. -/
def State.takeResult (s : State) (j : Fin 64) (level : Nat) (x : LevelBlock) : Option (State × LevelBlock) :=
  match s.trun j with
  | none => none
  | some r =>
    let hit := fun (y : LevelBlock) => y.b == x.b && y.level == level && y.pre == x.pre && y.attempt == x.attempt
    match r.results.find? hit with
    | none => none
    | some y => some (s.modTrun j fun r => { r with results := r.results.filter fun z => !hit z }, y)

/-- Add this member's part to every block of an arriving reduce-phase segment. -/
def State.addSegment (s : State) (j : Fin 64) (level : Nat) (mis : List Nat) (l : List LevelBlock) : State × List LevelBlock :=
  l.foldl (fun (a : State × List LevelBlock) x =>
    let (s, acc) := a
    if level = 0 then
      let (s, y) := s.addOriginal j mis x
      (s, acc ++ [y])
    else match s.takeResult j (level - 1) x with
      | none => (s, acc ++ [x])
      | some (s, own) =>
        let (s, y) := s.addResult j mis own x
        (s, acc ++ [y])) (s, [])

/-! ## Originating at a path's start -/

/-- A block that starts its level-0 path here (R243, R244). -/
def State.originate1 (s : State) (j : Fin 64) (t : TlyJob) (r : JobRun) (b : Nat) : State × LevelBlock :=
  let chain := s.chainEntries t.desc.slot
  let k := r.block t.desc b
  let x : LevelBlock := ⟨b, 0, k.pre, k.attempt, if k.pre then noticePreroll else 0, none, 0, TlBlock.none k.grid,
    ownStats t r chain SegStats.none⟩
  let s := s.modTblock j b fun y => { y with passed := true }
  if r.absent then (s, x)
  else if k.pre then
    let (s, l) := s.contribLog t b
    (s, { x with exp := l })
  else
    let (s, c) := s.contribution t b k.grid
    let x := if c.blk.poison = 0 then x else { x with stats := { x.stats with prank := min x.stats.prank (flatRank chain) } }
    (s, if 1 ≤ c.past then x.doubled c.past else { x with blk := c.blk, spart := squareSum c.blk })

/-- Start the level-0 paths of a group of blocks, all pre-rolled or none. -/
def State.originate (s : State) (j : Fin 64) (bs : List Nat) : State :=
  match s.tjob j with
  | none => s
  | some t => match t.run with
    | none => s
    | some r =>
      let (s, l) := bs.foldl (fun (a : State × List LevelBlock) b =>
        let (s, x) := a.1.originate1 j t r b
        (s, a.2 ++ [x])) (s, [])
      s.sendTally j (reducePhase (l.any (·.pre))) 0 l

/-- Start the level-0 paths of those blocks of a list that start here. -/
def State.originateOf (s : State) (j : Fin 64) (bs : List Nat) : State :=
  match s.tjob j with
  | none => s
  | some t =>
    let r := startRange t.nb (s.chainEntries t.desc.slot) 0
    let pre := fun (b : Nat) => (s.tblock j b).pre
    forEach (blockRuns pre (bs.filter (inRange r))) (fun s g => s.originate j g) s

/-! ## Final blocks (R244, R248, R249, R253) -/

/-- The fixed tree of R101 over square values: each node rounded to 24 bits. -/
def squareTree : Nat → List Val → Val
  | 0, l => l.headD (.zero false)
  | n + 1, l => roundX .rne 0 (addV (squareTree n (l.take (2 ^ n))) (squareTree n (l.drop (2 ^ n)))).1

/-- TALLY_POISON as W32. -/
def poisonW32 : Word := 0x7FC00006#32

/-- Q of one block. -/
def blockQ (b : TlBlock) : Word :=
  if b.poison ≠ 0 then poisonW32
  else
    let sq := fun (i : Nat) => roundX .rne 0 (mulV (b.val i) (b.val i)).1
    BitVec.ofNat 32 (encW32 .rne false 0 (squareTree 8 ((List.range 256).map sq))).1

/-- The grid that the next step predicts for a block (R244). -/
def nextGrid (margin : Nat) (b : TlBlock) : Nat :=
  let top := (List.range 256).foldl (fun m i => maxOpt m (valLog (b.val i))) none
  match top with
  | none => noGrid
  | some r => ((max (-32767) (min 32767 (r + (margin : Int) - 61))) % 65536).toNat

/-- The bytes of a final block in the result format, and its OVERFLOW and UNDERFLOW. -/
def encResult (f : Nat) (b : TlBlock) (len : Nat) : List Byte × Fl :=
  let sat : Fl := if b.flags &&& tlSat = 0 then 0 else flOverflow
  if f = 8 then (slice (tlToBytes b) 0 (64 + 8 * len), sat)
  else
    let es := (List.range len).map fun i => if f = 0 then encT16 .rne false 0 (b.val i) else encW32 .rne false 0 (b.val i)
    (es.flatMap fun e => natLe (fmtBits f / 8) e.1, es.foldl (fun a e => a ||| e.2) sat)

/-- Note a refused write of a run. -/
def State.tlyRefused (s : State) (j : Fin 64) (x : Option (Half × Half)) : State :=
  match x with
  | none => s
  | some (st, _) => s.modTrun j fun r => { r with failed := r.failed.or (some st) }

/-- Write a final block: DST, the grid table, and what the record and the statistics need. A run already recorded keeps its
completion (Table 13-4). -/
def State.writeFinal (s : State) (j : Fin 64) (x : LevelBlock) : State :=
  match s.tjob j with
  | none => s
  | some t => match t.run with
    | none => s
    | some r =>
      if r.recorded || (r.block t.desc x.b).written then s
      else
        let d := t.desc
        let len := t.blockLen x.b
        let (bs, fl) := encResult d.dfmt x.blk len
        let (s, e1) := s.writeDev .hub (d.dst + blockBytes d.dfmt * x.b) (bs.map some)
        let (s, e2) := s.writeDev .hub (d.grid + 2 * x.b) ((natLe 2 (nextGrid d.margin x.blk)).map some)
        let bad := ((List.range len).filter fun i => x.blk.poison.getLsbD i).length
        let s := (s.modTblock j x.b fun y => { y with written := true }).tlyRefused j (e1.or e2)
        s.modTrun j fun r => { r with
          ovf := r.ovf || fl &&& flOverflow != 0
          udf := r.udf || fl &&& flUnderflow != 0
          poisoned := r.poisoned + bad
          prank := min r.prank x.stats.prank
          final := some x.stats
          spart := sput r.spart x.b x.spart
          qs := sput r.qs x.b (blockQ x.blk) }

/-! ## Restarts (R247) -/

/-- Give up a block's attempt: its waiting results go, and the next attempt stands on a grid, after a pre-roll when four have
failed. -/
def State.restartBlock (s : State) (j : Fin 64) (b c : Nat) (g : Int) (check : Bool) (doubling : Bool) : State :=
  let pre := 4 ≤ c
  let s := s.modTblock j b fun y =>
    { y with attempt := c + 1, grid := g, pre := pre, checks := if check then y.checks + 1 else y.checks, passed := false }
  let s := s.modTrun j fun r => { r with
    results := r.results.filter fun x => !(x.b == b && x.attempt ≤ c)
    rerolls := r.rerolls + 1
    doubled := r.doubled || doubling }
  if doubling then s.modTly fun k => { k with stat := fsat tlyStatRerolls 1 k.stat } else s

/-! ## Completion (R251, R253 to R255) -/

/-- The status of a record (R255). -/
def recordStatus (t : TlyJob) (r : JobRun) (forced : Option Half) : Half :=
  let late : Half := if t.desc.late then stLateCarried else stLateDropped
  let f := r.failed.or forced
  if f = some stDieLost ∨ f = some stStackLost ∨ f = some stInternal ∨ f = some stCancelled then f.getD 0
  else if f = some stNotPermitted then stDieLost
  else if r.poisoned ≠ 0 then stPoisoned
  else if r.droppedCarry then stLateDropped
  else if r.absent || (r.final.map (·.late)).getD 0 != 0 then late
  else stOk

/-- The 32 B record (R254). -/
def recordBytes (j : Fin 64) (t : TlyJob) (r : JobRun) (st : Half) : List Byte :=
  let sum := (if r.doubled then 64 else 0) + (if r.poisoned ≠ 0 then 32 else 0) + (if r.udf then 4 else 0) + (if r.ovf then 2 else 0)
  let f := r.final.getD SegStats.none
  natLe 2 j.1 ++ natLe 4 r.step.toNat ++ [0xFF, 0xFF] ++ natLe 2 st.toNat ++ natLe 2 r.prank ++ natLe 4 sum ++
  natLe 2 (min r.rerolls 0xFFFF) ++ natLe 2 (min r.poisoned 0xFFFF) ++ natLe 4 f.count ++ natLe 8 f.digest

/-- The statistics of every tensor (R253). -/
def State.writeStats (s : State) (j : Fin 64) (t : TlyJob) (r : JobRun) : State :=
  if t.desc.op ≠ opAllreduce ∨ t.desc.stats = 0 then s
  else
    let f := r.final.getD SegStats.none
    (t.table.foldl (fun (a : State × Nat × Nat) x =>
      let (s, k, b) := a
      let n := blocksOf x.2
      let bs := (List.range n).map (· + b)
      let bad := bs.any fun i => sget r.qs i == some poisonW32
      let sum := fun (l : List (Nat × Word)) => bs.foldl (fun a i => addW32 a ((sget l i).getD 0)) 0
      let sv := if bad then poisonW32 else sum r.spart
      let qv := if bad then poisonW32 else sum r.qs
      let e := natLe 4 sv.toNat ++ natLe 4 qv.toNat ++ natLe 4 f.count ++ natLe 2 f.members ++ [0, 0]
      let (s, x) := s.writeDev .hub (t.desc.stats + 16 * k) (e.map some)
      (s.tlyRefused j x, k + 1, b + n)) (s, 0, 0)).1

/-- Set bit 0 of a word of a die's twin region through the bit-set alias (R138, R249). -/
def State.setTwinBit (s : State) (d : Fin 4) (off : Nat) : State × Option (Half × Half) :=
  match s.twinStatus d with
  | some x => (s, some x)
  | none => (s.modDie d fun y => (y.write 1 (twinBase + off) [some 1]).1, none)

/-- Write the record on the job's dies and post (R254); `forced` ends the job with a status of its own. -/
def State.record (s : State) (j : Fin 64) (forced : Option Half) : State :=
  match s.tjob j with
  | none => s
  | some t => match t.run with
    | none => s
    | some r =>
      let d := t.desc
      let dies := (allFin 4).filter fun k => d.dies.getLsbD k.1
      let s := if r.poisoned = 0 ∨ d.flag = 0 then s
        else forEach dies (fun s k =>
          let (s, x) := s.setTwinBit k d.flag
          s.tlyRefused j x) s
      let r := ((s.trun j).getD r)
      let st := recordStatus t r forced
      let s := forEach dies (fun s k => (s.writeTwin k d.record (recordBytes j t r st)).1) s
      let s := if nbit d.sem.toNat 7 then s.postMask d.dies.toNat (d.sem.toNat % 128) else s
      let keep := r.absent || forced.isSome
      s.modTjob j fun t => { t with
        run := t.run.map fun r => { r with recorded := true, results := [] }
        carry := if keep then t.carry else none }

/-- Whether everything that a job must do here is done (R254). A REDUCE_SCATTER also waits until its originals have been added to
every path (log entry 33). -/
def State.tallyDone (s : State) (j : Fin 64) : Bool :=
  match s.tjob j with
  | none => false
  | some t => match t.run with
    | none => false
    | some r =>
      let chain := s.chainEntries t.desc.slot
      let written := fun (b : Nat) => (r.block t.desc b).written
      !r.recorded && (r.started || r.absent) &&
      (if t.desc.op = opReduceScatter then
        let top := topRange t.nb chain
        (List.range t.nb).all (fun b => (r.block t.desc b).passed) && r.results.isEmpty &&
        (List.range top.2).all fun i => written (top.1 + i)
      else (List.range t.nb).all written)

/-- Complete the job when it is done. -/
def State.tallyFinish (s : State) (j : Fin 64) : State :=
  if !s.tallyDone j then s
  else match s.tjob j with
    | none => s
    | some t => match t.run with
      | none => s
      | some r => (s.writeStats j t r).record j none

/-! ## Notices and gathered blocks -/

/-- Act on a gathered notice (R247, R252): FAIL ends the job; another restarts the block where its path starts. -/
def State.gotNotice (s : State) (j : Fin 64) (x : LevelBlock) : State :=
  match s.trun j with
  | none => s
  | some r =>
    let k := s.tblock j x.b
    if x.notice = noticeFail then (if r.recorded then s else s.record j (some stInternal))
    else if x.attempt < k.attempt then s
    else
      (s.restartBlock j x.b x.attempt x.blk.g (x.notice == noticeCheck) (x.notice == noticeDoubling)).originateOf j [x.b]

/-- The grid that a pre-roll gives (R245). -/
def prerollGrid (c : Nat) (late : Bool) (e : Option Int) : Int :=
  match e with
  | none => 0
  | some e =>
    let c := if late then 2 * c else c
    e + 1 + ((if c ≤ 1 then 0 else Nat.log2 (c - 1) + 1 : Nat) : Int) - 62

/-- Act on gathered blocks: notices, final blocks, or pre-rolled exponents. -/
def State.gotGathered (s : State) (j : Fin 64) (l : List LevelBlock) : State :=
  match s.tjob j with
  | none => s
  | some t =>
    let c := chainSize (s.chainEntries t.desc.slot)
    let s := forEach l (fun s x =>
      let k := s.tblock j x.b
      if x.pre then
        if x.attempt = k.attempt ∧ k.pre then
          (s.modTblock j x.b fun y => { y with pre := false, grid := prerollGrid c t.desc.late x.exp }).modTly fun k =>
            { k with stat := fsat tlyStatPrerolls 1 k.stat }
        else s
      else if x.notice ≠ 0 then s.gotNotice j x
      else if x.attempt = k.attempt then s.writeFinal j x
      else s) s
    if l.any (·.pre) then s.originateOf j (l.map (·.b)) else s

/-- Send gathered blocks down the levels below one (R241). -/
def State.gatherDown (s : State) (j : Fin 64) (kind phase level : Nat) (l : List LevelBlock) (body : List Byte) : State :=
  forEach (List.range level).reverse (fun s k => s.sendSeg j kind phase k (l.map fun x => { x with level := k }) body) s

/-- Blocks have reached their home at a level: the level's results, or, at the top, the gather. The result of a REDUCE_SCATTER
stays here, and only its notices and pre-rolls are gathered. -/
def State.reachedHome (s : State) (j : Fin 64) (level : Nat) (l : List LevelBlock) : State :=
  match s.tjob j with
  | none => s
  | some t =>
    let n := (s.chainEntries t.desc.slot).length
    if level + 1 < n then
      s.modTrun j fun r => { r with results := r.results ++ l.map fun x => { x with level := level } }
    else
      let pre := l.any (·.pre)
      let out := if t.desc.op = opReduceScatter ∧ !pre then l.filter fun x => x.notice != 0 else l
      let groups := (blockRuns (fun _ => true) (out.map (·.b))).map fun g => out.filter fun x => g.contains x.b
      let s := forEach groups (fun s g => s.gatherDown j kTally (gatherPhase pre) n g []) s
      s.gotGathered j l

/-! ## Results that wait for their next level -/

/-- Start the paths of a level with results that wait here: groups of the plan when they are whole, restarted blocks alone. -/
def State.startLevel (s : State) (j : Fin 64) (level : Nat) : State :=
  match s.tjob j with
  | none => s
  | some t => match t.run with
    | none => s
    | some r =>
      let chain := s.chainEntries t.desc.slot
      let range := startRange t.nb chain level
      let first := fun (b : Nat) => (BlockRun.first t.desc (r.grids.getD b noGrid)).pre
      let waiting := r.results.filter fun x => x.level + 1 == level && inRange range x.b
      let whole := fun (g : List Nat) (pre : Bool) =>
        let l := waiting.filter fun x => x.attempt == 0 && x.pre == pre && g.contains x.b
        if l.length = g.length then some l else none
      let groups := (planOf first range).flatMap fun g => (whole g true).toList ++ (whole g false).toList
      let singles := (waiting.filter fun x => x.attempt != 0).map fun x => [x]
      let sendGroup := fun (s : State) (g : List LevelBlock) =>
        let g := sortBy (fun a b => decide (a.b ≤ b.b)) g
        let s := s.modTrun j fun r => { r with results := r.results.filter fun x => !g.contains x }
        s.sendTally j (reducePhase (g.any (·.pre))) level (g.map fun x => { x with level := level })
      forEach (groups.filter (!·.isEmpty) ++ singles) sendGroup s

/-! ## Segments (R243, R257) -/

/-- Whether this member can act on a segment now: its step has begun here, and a higher level's contributions are ready. -/
def State.segReady (s : State) (j : Fin 64) (g : Seg) : Bool :=
  match s.tjob j with
  | none => false
  | some t => match t.run with
    | none => false
    | some r =>
      (r.started || r.absent) &&
      (g.phase % 2 == 1 || g.level == 0 || g.blocks.all fun x =>
        x.attempt < (r.block t.desc x.b).attempt ||
        r.results.any fun y => y.b == x.b && y.level + 1 == g.level && y.pre == x.pre && y.attempt == x.attempt)

/-- A segment whose attempt is ahead of this member's is the notice of the restart (R247 step 3). -/
def State.noteAttempts (s : State) (j : Fin 64) (g : Seg) : State :=
  forEach g.blocks (fun s x =>
    let k := s.tblock j x.b
    if k.attempt < x.attempt then
      let pre := x.pre || (4 < x.attempt && g.phase == phPreReduce)
      (s.restartBlock j x.b (x.attempt - 1) x.blk.g false (!x.pre && x.blk.g != k.grid)).modTblock j x.b fun y =>
        { y with pre := pre }
    else if !x.pre && g.phase == phReduce && k.pre && k.attempt == x.attempt then
      s.modTblock j x.b fun y => { y with pre := false, grid := x.blk.g }
    else s) s

/-- Act on a segment that is ready: add and pass on, or keep at the home; or forward a gathered one and act on it. -/
def State.actOnSeg (s : State) (j : Fin 64) (g : Seg) (kind : Nat) (mis : List Nat) : State :=
  match s.tjob j with
  | none => s
  | some t =>
    let chain := s.chainEntries t.desc.slot
    match chain[g.level]?, g.blocks.head? with
    | some e, some x0 =>
      let home := homeOf (levelRange t.nb chain g.level) e.members.length x0.b
      if g.phase % 2 = 0 then
        let (s, l) := s.addSegment j g.level mis g.blocks
        if home = e.rank then s.reachedHome j g.level l else s.sendTally j g.phase g.level l
      else
        let s := if e.nextRank = home then s else s.sendSeg j kind g.phase g.level g.blocks (if kind = kTallyCopy then g.rest else [])
        let s := s.gatherDown j kind g.phase g.level g.blocks (if kind = kTallyCopy then g.rest else [])
        if kind = kTally then s.gotGathered j g.blocks
        else
          let f := t.desc.dfmt
          (g.blocks.foldl (fun (a : State × Nat) x =>
            let n := partBytes f (t.blockLen x.b)
            let (s, w) := a.1.writeDev .hub (t.desc.dst + blockBytes f * x.b) ((slice g.rest a.2 n).map some)
            ((s.tlyRefused j w).modTblock j x.b fun y => { y with written := true }, a.2 + n)) (s, 0)).1
    | _, _ => s

/-- Go on with what can go on: staged segments in order of arrival, the starts of higher levels, and the completion. A staged
segment whose epoch has fallen behind is bounced (R199). -/
def State.tallyDrain (j : Fin 64) (mis : List Nat) : Nat → State → State
  | 0, s => s
  | n + 1, s =>
    let levels := match s.tjob j with
      | some t => (s.chainEntries t.desc.slot).length
      | none => 0
    let s := forEach ((List.range levels).drop 1) (fun s l => s.startLevel j l) s
    let staged := (s.trun j).map (·.staged) |>.getD []
    let stale := fun (x : Fin 24 × Msg) => match s.epochCheck x.2.hdr with
      | .stale k => some k
      | _ => none
    let act := firstSome staged fun x =>
      match stale x with
      | some k => some (x, Except.error k)
      | none => match parseSeg (x.2.hdr.kind == kTallyCopy) x.2.payload with
        | some g => if s.segReady j g then some (x, Except.ok g) else none
        | none => none
    match act with
    | none => s.tallyFinish j
    | some (x, a) =>
      let s := s.modTrun j fun r => { r with staged := dropFirst (fun y => y == x) r.staged }
      let s := match a with
        | .error k => s.bounce x.1 x.2.hdr k true
        | .ok g => s.actOnSeg j g x.2.hdr.kind mis
      State.tallyDrain j mis n (s.tallyFinish j)

/-- Fuel for a drain: each round takes one staged segment. -/
def State.tallyGo (s : State) (j : Fin 64) (mis : List Nat := []) : State :=
  s.tallyDrain j mis (((s.trun j).map (·.staged.length)).getD 0 + 1)

/-! ## Beginning a step -/

/-- A poisoned or unreadable entry of the grid table is pre-rolled (log entry 34). -/
def State.readGrids (s : State) (t : TlyJob) : State × List Nat :=
  if t.desc.op = opAllGather then (s, [])
  else
    let (s, r) := s.readDev t.desc.grid (2 * t.nb)
    (s, (List.range t.nb).map fun b => (elemAt 0 r.bytes b).getD noGrid)

/-- Open the run of a step at a tick. -/
def State.openRun (s : State) (j : Fin 64) (step : Word) (tick : Nat) : State :=
  match s.tjob j with
  | none => s
  | some t =>
    let (s, g) := s.readGrids t
    let run : JobRun := {
      step := step, started := false, count := 0, openAt := some tick, absent := false, grids := g, blocks := [], results := []
      staged := [], seen := [], rerolls := 0, doubled := false, ovf := false, udf := false, poisoned := 0, prank := 0xFFFF
      final := none, failed := none, droppedCarry := false, spart := [], qs := [], recorded := false }
    s.modTjob j fun t => { t with run := some run }

/-- The blocks of one's own shard, read raw for ALL_GATHER; poisoned bytes are free (log entry 26). -/
def State.readShard (s : State) (t : TlyJob) (bs : List Nat) : State × List Byte :=
  bs.foldl (fun (a : State × List Byte) b =>
    let (s, r) := a.1.readDev (t.desc.src + blockBytes t.desc.sfmt * b) (partBytes t.desc.sfmt (t.blockLen b))
    let (fr, s) := if r.bad then s.freshBytes r.bytes.length else (List.replicate r.bytes.length 0, s)
    (s, a.2 ++ (r.bytes.zip fr).map fun x => x.1.getD x.2)) (s, [])

/-- Send one's own shard of an ALL_GATHER, and write it (R241). -/
def State.sendOwnShard (s : State) (j : Fin 64) (t : TlyJob) : State :=
  let chain := s.chainEntries t.desc.slot
  forEach (planOf (fun _ => false) (topRange t.nb chain)) (fun s g =>
    let (s, bs) := s.readShard t g
    let l := g.map fun b => (⟨b, 0, false, 0, 0, none, 0, TlBlock.none 0, SegStats.none⟩ : LevelBlock)
    let s := s.gatherDown j kTallyCopy phGather chain.length l bs
    (g.foldl (fun (a : State × Nat) b =>
      let n := partBytes t.desc.dfmt (t.blockLen b)
      let (s, w) := a.1.writeDev .hub (t.desc.dst + blockBytes t.desc.dfmt * b) ((slice bs a.2 n).map some)
      ((s.tlyRefused j w).modTblock j b fun y => { y with written := true }, a.2 + n)) (s, 0)).1) s

/-- Begin this member's part of the run: start its level-0 paths, then go on. -/
def State.beginRun (s : State) (j : Fin 64) : State :=
  match s.tjob j with
  | none => s
  | some t =>
    let chain := s.chainEntries t.desc.slot
    let s := if t.desc.op = opAllGather then s.sendOwnShard j t
      else
        let pre := fun (b : Nat) => (s.tblock j b).pre
        forEach (planOf pre (startRange t.nb chain 0)) (fun s g => s.originate j g) s
    s.tallyGo j

/-- The window has closed without a START: the member is absent for the step (R250), and a carry that it still holds is
discarded (R251). -/
def State.goAbsent (s : State) (j : Fin 64) : State :=
  let held := ((s.tjob j).bind (·.carry)).isSome
  let s := s.modTly fun k => { k with stat := fsat tlyStatAbsent (if held then 2 else 1) k.stat }
  let s := s.modTjob j fun t => { t with carry := none }
  (s.modTrun j fun r => { r with absent := true, droppedCarry := held }).beginRun j

/-- Whether the window of a run has closed at this tick. -/
def State.windowClosed (s : State) (t : TlyJob) (r : JobRun) : Bool :=
  t.desc.op == opAllreduce && t.desc.deadline != 0 && !r.started && !r.absent && !r.recorded && match r.openAt with
    | some o => o + t.desc.deadline ≤ s.aon
    | none => false

/-- TALLY_DEADLINE_EXPIRY. -/
def doTallyDeadlineExpiry (j : Fin 64) (s : State) : State :=
  match s.tjob j with
  | none => s
  | some t => match t.run with
    | none => s
    | some r => if s.windowClosed t r then s.goAbsent j else s

/-! ## Arrival (R243, R257) -/

/-- The job that a segment names: its identifier, and the group of its level in the job's chain. -/
def State.jobFor (s : State) (job : Word) (level : Nat) (gid : Half) : Option (Fin 64) :=
  (allFin 64).find? fun j => match s.tjob j with
    | some t => t.desc.job == job && ((s.chainEntries t.desc.slot)[level]?).map (·.gid) == some gid
    | none => false

/-- Whether any armed job has an identifier. -/
def State.jobArmed (s : State) (job : Word) : Bool := s.tly.jobs.toList.any fun t => (t.map (·.desc.job)) == some job

/-- Bytes of segments in hub staging. -/
def State.stagedBytes (s : State) : Nat :=
  (s.tly.jobs.toList.map fun t => match t with
    | some t => (((t.run.map (·.staged)).getD []).map fun x => x.2.payload.length).sum +
      (t.early.map fun x => x.2.2.payload.length).sum
    | none => 0).sum

/-- Whether hub staging has room for a segment (R243, Table 13-6). -/
def State.stagingRoom (s : State) (n : Nat) : Bool := s.stagedBytes + n ≤ fget stagingSizeKib s.tly.staging * 1024

def Seg.key (g : Seg) (copy : Bool) : SegKey :=
  ⟨copy, g.phase, g.level, (g.blocks.head?.map (·.b)).getD 0, (g.blocks.head?.map (·.attempt)).getD 0⟩

/-- A segment of the run's step: a duplicate is discarded; another waits in staging and is taken when it can be. -/
def State.stageSeg (s : State) (j : Fin 64) (p : Fin 24) (m : Msg) (g : Seg) (mis : List Nat) : State :=
  match s.trun j with
  | none => s
  | some r =>
    let k := g.key (m.hdr.kind == kTallyCopy)
    if r.seen.contains k then s
    else
      let s := s.modTrun j fun r => { r with seen := r.seen ++ [k], staged := r.staged ++ [(p, m)] }
      (s.noteAttempts j g).tallyGo j mis

/-- Open the run of the lowest later step whose segments have come, once the present one is recorded. -/
def State.nextRun (s : State) (j : Fin 64) : State :=
  match s.tjob j with
  | none => s
  | some t =>
    if t.busy then s
    else match t.early with
      | [] => s
      | x :: rest =>
        let low := rest.foldl (fun a y => if epochDiff y.2.2.hdr.step a.2.2.hdr.step < 0 then y else a) x
        let mine := t.early.filter fun y => y.2.2.hdr.step == low.2.2.hdr.step
        let s := s.modTjob j fun t => { t with early := t.early.filter fun y => y.2.2.hdr.step != low.2.2.hdr.step }
        let s := s.openRun j low.2.2.hdr.step low.1
        forEach mine (fun s y => match parseSeg (y.2.2.hdr.kind == kTallyCopy) y.2.2.payload with
          | some g => s.stageSeg j y.2.1 y.2.2 g []
          | none => s) s

/-- A tally segment has come. -/
def State.tallyArrive (s : State) (p : Fin 24) (m : Msg) (mis : List Nat) : State :=
  let copy := m.hdr.kind == kTallyCopy
  match s.epochCheck m.hdr with
  | .stale k => s.bounce p m.hdr k true
  | _ => match parseSeg copy m.payload with
    | none => s.reject p m.hdr 0x06 stBadDescriptor
    | some g => match s.jobFor g.job g.level m.hdr.group with
      | none => s.reject p m.hdr 0x0B stNotPermitted 0
      | some j => match s.trun j with
        | none => (s.openRun j m.hdr.step s.aon).stageSeg j p m g mis
        | some r =>
          let d := epochDiff m.hdr.step r.step
          if d = 0 then s.stageSeg j p m g mis
          else if d < 0 then s
          else (s.modTjob j fun t => { t with early := t.early ++ [(s.aon, p, m)] }).nextRun j

/-- TALLY: a segment of a reduction; `mis` names the blocks whose shadow add differs (R252, log entry 3). -/
def doTally (p : Fin 24) (mis : List Nat) (s : State) : State :=
  match s.takeMsg p kTally with
  | none => s
  | some (m, s) => s.tallyArrive p m mis

/-- TALLY_COPY: a shard of an ALL_GATHER. -/
def doTallyCopy (p : Fin 24) (s : State) : State :=
  match s.takeMsg p kTallyCopy with
  | none => s
  | some (m, s) => s.tallyArrive p m []

/-! ## ARM (R238) -/

/-- The first message of a die to a tally engine with a function. -/
def State.tlyMsg? (s : State) (d : Fin 4) (fn : Nat) : Option HubMsg := firstSome [0, 1, 2, 3] fun u => s.hubMsg? d u fn

/-- A job descriptor from its bytes (Table 13-2). -/
def parseJob (b : List Byte) : JobDesc where
  slot := byteAt b 0
  check := nbit (byteAt b 1) 4
  preroll := nbit (byteAt b 1) 3
  late := nbit (byteAt b 1) 2
  op := byteAt b 1 % 4
  sfmt := byteAt b 2 / 16
  margin := byteAt b 2 % 16
  dfmt := byteAt b 3 % 16
  job := bytesWord b 4
  deadline := leAt b 8 4
  tensors := leAt b 12 2
  src := leAt b 16 8
  dst := leAt b 24 8
  ttab := leAt b 32 8
  grid := leAt b 40 8
  carry := leAt b 48 8
  stage := leAt b 56 8
  stats := leAt b 64 8
  record := leAt b 72 4
  flag := leAt b 76 4
  sem := b.getD 80 0
  dies := BitVec.ofNat 4 (byteAt b 81)

def jobReserved (b : List Byte) : Bool :=
  byteAt b 1 / 32 != 0 || byteAt b 3 / 16 != 0 || !allZero (slice b 14 2) || byteAt b 81 / 16 != 0 || !allZero (b.drop 82)

/-- Whether a format is accepted (Table 13-2). -/
def JobDesc.formatsOk (d : JobDesc) : Bool :=
  let tally := fun (f : Nat) => f == 0 || f == 1 || f == 8
  if d.op = opAllGather then d.sfmt ≤ 8 && d.dfmt == d.sfmt else tally d.sfmt && tally d.dfmt

/-- Whether a twin-region offset is aligned, at least 0x800, and leaves room. -/
def twinOffOk (off align n : Nat) : Bool := off % align == 0 && 0x800 ≤ off && off + n ≤ spadSize - twinBase

/-- Bytes of the chain staging area (R241). -/
def stageBytes (nb : Nat) (chain : List GroupEntry) : Nat :=
  let m0 := ((chain[0]?).map (·.members.length)).getD 1
  let m1 := ((chain[1]?).map (·.members.length)).getD 1
  2112 * ((nb + m0 - 1) / m0 + (nb + m0 * m1 - 1) / (m0 * m1))

/-- Whether an area is aligned and lies in stack memory. -/
def areaOk (a align n : Nat) : Bool := a % align == 0 && a + n ≤ devSize

/-- Why ARM refuses a descriptor before its tensor table is read. -/
def State.armRefused (s : State) (d : JobDesc) : Option Half :=
  let chain := s.chainEntries d.slot
  let ok := match fin? 64 d.slot with
    | none => false
    | some i => fget grpState (s.grp i).status == 1 && match (s.grp i).active with
      | some e => e.level == 0 && e.axis ≤ 1
      | none => false
  let ports := chain.all fun e => match port? e.nextPort with
    | some p => 2 ≤ (s.port p).phy.maxMsg && match port? e.prevPort with
      | some q => 2 ≤ (s.port q).phy.maxMsg
      | none => true
    | none => false
  if !ok || d.op == 3 || !d.formatsOk || d.margin < 2 || 8 < d.margin || (d.op != opAllreduce && d.deadline != 0) ||
      d.tensors == 0 || 4096 < d.tensors || (!d.late && d.carry != 0) || (chain.length == 1 && d.stage != 0) || !ports ||
      65535 < chainSize chain || !twinOffOk d.record 32 32 || (d.flag != 0 && !twinOffOk d.flag 8 8) then some dtArgument
  else if !areaOk d.ttab 8 (8 * d.tensors) then some dtAddress
  else none

/-- Whether the areas of a job are aligned and within stack memory. -/
def State.areasOk (s : State) (t : TlyJob) : Bool :=
  let d := t.desc
  let n := t.nb
  areaOk d.src (vecAlign d.sfmt) (blockBytes d.sfmt * n) && areaOk d.dst (vecAlign d.dfmt) (blockBytes d.dfmt * n) &&
  areaOk d.grid 2 (2 * n) && areaOk d.carry (vecAlign d.sfmt) (if d.late then blockBytes d.sfmt * n else 0) &&
  areaOk d.stage 64 (if 1 < (s.chainEntries d.slot).length then stageBytes n (s.chainEntries d.slot) else 0) &&
  areaOk d.stats 16 (if d.stats = 0 then 0 else 16 * d.tensors)

/-- Read a descriptor and its tensor table, and check them: the job, or the detail of the refusal. -/
def State.readJob (s : State) (unit off : Nat) : State × Except Half TlyJob :=
  if off % 128 ≠ 0 ∨ vaultBase < off + 128 then (s, .error dtAddress)
  else match s.getHub off 128 with
  | (s, none) => (s, .error dtReadErr)
  | (s, some b) =>
    let d := parseJob b
    if jobReserved b then (s, .error dtReserved)
    else match s.armRefused d with
    | some x => (s, .error x)
    | none =>
      let (s, r) := s.readDev d.ttab (8 * d.tensors)
      if r.bad || r.fail.isSome then (s, .error dtReadErr)
      else
        let es := (List.range d.tensors).map fun i => slice r.data (8 * i) 8
        let t : TlyJob := ⟨unit, b, d, es.map fun e => (leAt e 0 2, leAt e 4 4), none, none, none, []⟩
        if es.any fun e => leAt e 2 2 != 0 then (s, .error dtReserved)
        else if es.any fun e => 4096 ≤ leAt e 0 2 then (s, .error dtArgument)
        else if !s.areasOk t then (s, .error dtAddress)
        else (s, .ok t)

/-- ARM; a message with a function that the engines do not have is refused here. -/
def doArm (d : Fin 4) (s : State) : State :=
  match firstSome [0, 1, 2, 3] fun u => s.hubOdd? d u [1, 2, 3] with
  | some m => s.answerBad m dtOpcode
  | none => match s.tlyMsg? d 1 with
  | none => s
  | some m =>
    if !(allZero (slice m.bytes 3 5) && allZero (m.bytes.drop 12)) then s.answerBad m dtReserved
    else match fin? 64 (byteAt m.bytes 2) with
    | none => s.answerBad m dtArgument
    | some j =>
      if ((s.tjob j).map (·.busy)).getD false then s.answerDenied m dtState
      else match s.readJob m.unit (leAt m.bytes 8 4) with
      | (s, .error x) => s.answerBad m x
      | (s, .ok t) => (s.setTjob j (some t)).answer m stOk

/-! ## START (R239, R251) -/

/-- The role that a job serves. -/
def State.jobRole (s : State) (t : TlyJob) : Option (Fin 4) := (s.entry t.desc.slot).bind fun e => fin? 4 e.role

/-- Whether the role of a job has finished a step (R239). -/
def State.roleFinished (s : State) (r : Fin 4) (step : Word) : Bool :=
  0 < epochDiff (s.mq r).step step &&
  !(s.mbq.slots.toList.any fun x => x.state != slFree && x.role == r && !x.eval && x.step == step)

/-- The contributor count of a START (R239). -/
def State.startCount (s : State) (t : TlyJob) (n : Nat) : Nat :=
  if n ≠ 0xFFFFFFFF then n
  else match s.jobRole t with
    | some r => fget stepLastDone (s.mq r).stepStat + fget stepDone (s.mq r).stepStat
    | none => 0

/-- A late START keeps its originals as the carry under LATE_ADD (R251). -/
def State.keepCarry (s : State) (j : Fin 64) (t : TlyJob) (count : Nat) : State :=
  if !t.desc.late then s
  else
    let n := blockBytes t.desc.sfmt * t.nb
    let (s, r) := s.readDev t.desc.src n
    let (s, w) := s.writeDev .hub t.desc.carry r.bytes
    (s.tlyRefused j w).modTjob j fun t => { t with carry := some count }

/-- The pending re-shard that holds a START of a step that has not begun (R256). -/
def State.reshardHolds (s : State) (t : TlyJob) (step : Word) : Option Reshard :=
  let begun := (match t.run with
    | some x => x.step == step
    | none => false) || t.early.any fun y => y.2.2.hdr.step == step
  if begun then none else s.tly.reshards.find? fun r => (s.chain t.desc.slot).any fun i => r.slots.getLsbD i.1

/-- START for a step on an armed job. -/
def State.startJob (s : State) (m : HubMsg) (j : Fin 64) (t : TlyJob) : State :=
  let step := bytesWord m.bytes 4
  let count := s.startCount t (leAt m.bytes 8 4)
  let above := match t.last with
    | some l => 0 < epochDiff step l
    | none => true
  let ready := t.desc.op != opAllreduce || match s.jobRole t with
    | some r => s.roleFinished r step
    | none => false
  let here := match t.run with
    | some r => r.step == step && !r.started
    | none => false
  let absentBefore := match t.run with
    | some r => r.absent && r.recorded && !r.started && epochDiff step r.step ≤ 0
    | none => false
  if m.unit ≠ t.unit || !above || !ready || (t.busy && !here) then s.answerDenied m dtState
  else
    let s := s.modTjob j fun t => { t with last := some step }
    let s := match s.trun j with
      | some r => if here && s.windowClosed t r then s.goAbsent j else s
      | none => s
    let absent := here && ((s.trun j).map (·.absent)).getD false
    if absent || absentBefore then
      let s := s.keepCarry j t count
      (s.modTrun j fun r => { r with started := true }).answer m stOk 0 [1]
    else
      let s := if here then s else s.openRun j step s.aon
      let s := s.modTrun j fun r => { r with started := true, count := count }
      ((s.beginRun j).nextRun j).answer m stOk

/-- START. -/
def doStart (d : Fin 4) (s : State) : State :=
  match s.tlyMsg? d 2 with
  | none => s
  | some m =>
    if byteAt m.bytes 3 ≠ 0 || !allZero (m.bytes.drop 12) then s.answerBad m dtReserved
    else match fin? 64 (byteAt m.bytes 2) with
    | none => s.answerBad m dtArgument
    | some j => match s.tjob j with
      | none => s.answerDenied m dtState
      | some t =>
        match s.reshardHolds t (bytesWord m.bytes 4) with
        | some r =>
          let s := { s with hubMsgs := dropFirst (fun y => y.die == m.die && y.issue == m.issue) s.hubMsgs }
          s.modTly fun k => { k with
            reshards := updateWhere (fun x => x.handle == r.handle) (fun x => { x with held := x.held ++ [m] }) k.reshards }
        | none => s.startJob m j t

/-- DISARM: a step in progress ends here with CANCELLED (Table 13-4). -/
def doDisarm (d : Fin 4) (s : State) : State :=
  match s.tlyMsg? d 3 with
  | none => s
  | some m =>
    if !allZero (m.bytes.drop 3) then s.answerBad m dtReserved
    else match fin? 64 (byteAt m.bytes 2) with
    | none => s.answerBad m dtArgument
    | some j => match s.tjob j with
      | none => s.answerDenied m dtState
      | some t =>
        let s := if t.busy then (s.record j (some stCancelled)).log .tly 0 [j.1] else s
        (s.setTjob j none).answer m stOk

/-! ## Epochs and ports (R257) -/

/-- The groups of a chain have adopted a higher MEMB_EPOCH: the step restarts here from the originals, on the same grid table and with
the same absences; a step already recorded takes part again only as a forwarder. -/
def State.restartStep (s : State) (j : Fin 64) : State :=
  match s.trun j with
  | none => s
  | some r =>
    let s := s.modTly fun k => if r.recorded then k else { k with stat := fsat tlyStatRestarts 1 k.stat }
    let s := s.modTrun j fun r => { r with
      blocks := [], results := [], seen := [], rerolls := 0, doubled := false, ovf := false, udf := false, poisoned := 0
      prank := 0xFFFF, final := if r.recorded then r.final else none, spart := [], qs := [], absent := r.absent || r.recorded }
    if r.started || r.absent then s.beginRun j else s

/-- Restart the jobs whose chain holds one of the slots. -/
def State.restartJobs (s : State) (slots : List (Fin 64)) : State :=
  forEach (allFin 64) (fun s j => match s.tjob j with
    | some t => if (s.chain t.desc.slot).any fun i => slots.contains i then s.restartStep j else s
    | none => s) s

/-- A segment that a lost port gave back is kept. -/
def State.tlyReturned (s : State) (p : Fin 24) (m : Msg) : State :=
  (s.modTly fun k => { k with returned := k.returned ++ [(p, m)] }).log .tly 1 [p.1]

/-- The port carries again with its expected partner: what it gave back is sent again with RESEND. -/
def State.tlyResend (s : State) (p : Fin 24) : State :=
  if !s.carries p || s.seen p != s.expects p then s
  else
    let back := s.tly.returned.filter fun x => x.1 == p
    let s := s.modTly fun k => { k with returned := k.returned.filter fun x => x.1 != p }
    forEach back (fun s x => match s.tly.jobs.toList.findIdx? fun t => (t.map (·.desc.job)) == some (bytesWord x.2.payload 0) with
      | some i => match fin? 64 i with
        | some j => s.send p { x.2 with hdr := x.2.hdr.withResend true } (.tly j)
        | none => s
      | none => s) s

end Sys2Proof.Machine
end

