-- ==== Sys2Proof/Machine/Vote.lean ====
section
/-!
DEFINITION. The commit vote (spec 14): the anchor (R265), a vote by program or firmware (R266), its path and the decision rules (R267), the
flood and adoption of a decision (R268), and the vote that is run again under a new membership epoch (R269; log entries 35
and 36).
-/
namespace Sys2Proof.Machine

/-! ## The record (Table 14-7) -/

def VoteRec.bytes (v : VoteRec) : List Byte :=
  natLe 2 v.yes ++ natLe 2 v.voters ++ natLe 1 v.held ++ natLe 1 v.attempt ++ [0, 0] ++ natLe 8 v.rmin ++ natLe 8 v.rmax ++
  List.replicate 8 0

/-- A record from a payload; none for a reserved value. -/
def parseVote (b : List Byte) : Option VoteRec :=
  if b.length ≠ 32 ∨ 4 ≤ byteAt b 4 ∨ !allZero (slice b 6 2) ∨ !allZero (b.drop 24) then none
  else some ⟨leAt b 0 2, leAt b 2 2, byteAt b 4, byteAt b 5, leAt b 8 8, leAt b 16 8⟩

/-- Two records together. -/
def VoteRec.plus (a b : VoteRec) : VoteRec :=
  ⟨(a.yes + b.yes) % 65536, (a.voters + b.voters) % 65536, a.held ||| b.held, a.attempt, min a.rmin b.rmin, max a.rmax b.rmax⟩

/-! ## The decision record (Table 14-8) -/

def DecisionRec.bytes (d : DecisionRec) : List Byte :=
  natLe 4 d.step.toNat ++ natLe 4 d.version.toNat ++ natLe 1 (if d.commit then 1 else 2) ++ natLe 1 d.cause ++
  natLe 1 d.attempt ++ [0] ++ natLe 4 d.anchor.toNat ++ natLe 4 d.memb.toNat ++ natLe 2 d.yes ++ natLe 2 d.voters ++
  List.replicate 8 0

/-- A decision from a payload; none for a reserved value. -/
def parseDecision (b : List Byte) : Option DecisionRec :=
  if b.length ≠ 32 ∨ byteAt b 8 = 0 ∨ 2 < byteAt b 8 ∨ 4 < byteAt b 9 ∨ byteAt b 11 ≠ 0 ∨ !allZero (b.drop 24) then none
  else some ⟨bytesWord b 0, bytesWord b 4, byteAt b 8 == 1, byteAt b 9, byteAt b 10, bytesWord b 12, bytesWord b 16,
    leAt b 20 2, leAt b 22 2⟩

def dcsNoVote : Nat := 1
def dcsMissing : Nat := 2
def dcsDiverged : Nat := 3
def dcsHeld : Nat := 4

/-! ## State -/

def State.rv (s : State) (r : Fin 4) : RoleVote := vget s.fr.votes r
def State.modRv (s : State) (r : Fin 4) (f : RoleVote → RoleVote) : State :=
  s.modFr fun x => { x with votes := vmod x.votes r f }

/-- The role's vote is for a step. -/
def RoleVote.isFor (v : RoleVote) (step : Word) : Bool := (v.args.map (·.step)) == some step

/-- The decision held is for a step. -/
def RoleVote.holds (v : RoleVote) (step : Word) : Bool := (v.held.map (·.step)) == some step

/-- Set FR.DECISIONn (Table 14-9). -/
def State.setDecision (s : State) (r : Fin 4) (step : Word) (st cause attempt : Nat) (anchor : Bool) : State :=
  let w := fput decisionStep step.toNat (fput decisionState st (fput decisionCause cause
    (fput decisionAttempt attempt (fflag decisionAnchor anchor (0 : Quad)))))
  s.modFr fun x => { x with decision := vset x.decision r w }

/-! ## The chain (R265, R266) -/

/-- Whether a slot is the level-0 slot of a D chain of a role whose every level has both ports. -/
def State.voteSlotOk (s : State) (r : Fin 4) (slot : Nat) : Bool :=
  let c := s.chainEntries slot
  match c.head? with
  | some e => e.axis == 0 && e.level == 0 && e.role == r.1 && (c.getLast?.map (·.parent)) == some 0xFF &&
      c.all fun x => decide (x.prevPort < 24) && decide (x.nextPort < 24)
  | none => false

/-- The lowest-numbered ACTIVE slot that firmware may vote on. -/
def State.voteSlot (s : State) (r : Fin 4) : Option Nat :=
  (List.range 64).find? fun i => match fin? 64 i with
    | some k => fget grpState (s.grp k).status == 1 && s.voteSlotOk r i
    | none => false

/-- The lowest rank that lives. -/
def lowestLive (e : GroupEntry) : Option Nat := e.members.findIdx? (·.live)

/-- Whether this device is the anchor: at every level its rank is the lowest that lives, which makes its flat rank the lowest. -/
def isAnchor (chain : List GroupEntry) : Bool := !chain.isEmpty && chain.all fun e => lowestLive e == some e.rank

/-- How many members live. -/
def liveMembers (chain : List GroupEntry) : Nat := chain.foldl (fun n e => n * (e.members.filter (·.live)).length) 1

/-- The level at which a group stands in a chain. -/
def levelOf (chain : List GroupEntry) (gid : Half) : Option Nat := chain.findIdx? fun e => e.gid == gid

/-- The chain of a role's vote, or of the slot on which firmware would vote. -/
def State.voteChain (s : State) (r : Fin 4) : List GroupEntry :=
  match (s.rv r).args with
  | some a => s.chainEntries a.slot
  | none => match s.voteSlot r with
    | some i => s.chainEntries i
    | none => []

/-! ## Sending -/

/-- The header of a message about a role's vote (R268). -/
def State.voteHdr (s : State) (r : Fin 4) (e : GroupEntry) (p : Fin 24) (kind : Nat) (step wver : Word) : Header :=
  { s.groupHdr e p kind 32 with vc := vcCtl, stage := s.stageOf r, step := step, wver := wver }

/-- Send a record on NEXT_PORT of a level. -/
def State.sendVote (s : State) (r : Fin 4) (e : GroupEntry) (v : VoteRec) : State :=
  match port? e.nextPort, (s.rv r).args with
  | some p, some a => s.send p ⟨s.voteHdr r e p kVote a.step (s.rv r).wver, v.bytes⟩ (.fr r)
  | _, _ => s

/-- The ports of a chain, each with an entry that names it. -/
def chainPorts (chain : List GroupEntry) : List (Nat × GroupEntry) :=
  (chain.flatMap fun e => [(e.prevPort, e), (e.nextPort, e)]).foldl
    (fun l x => if l.any fun y => y.1 == x.1 then l else l ++ [x]) []

/-- Send a decision on the ports of the chain, but for the one it came by. -/
def State.flood (s : State) (r : Fin 4) (d : DecisionRec) (came : Option (Fin 24)) : State :=
  forEach (chainPorts (s.voteChain r)) (fun s x => match port? x.1 with
    | some p => if some p = came then s
        else s.send p ⟨s.voteHdr r x.2 p kDecision d.step d.version, d.bytes⟩ (.fr r)
    | none => s) s

/-! ## Adopting a decision (R268) -/

def lgDecision : Nat := 11
def rpInternal : Nat := 12

/-- Write the decision record on the dies of the vote, then post. -/
def State.writeDecision (s : State) (a : VoteArgs) (d : DecisionRec) : State :=
  forEach (allFin 4) (fun s k =>
    if !a.dies.getLsbD k.1 then s
    else match s.writeTwin k a.drec d.bytes with
      | (s, some x) => s.log .hub lgDecision [k.1, x.1.toNat]
      | (s, none) => if a.sem.getLsbD 7 then s.postTo k (semIdx a.sem.toNat) else s) s

/-- Adopt a decision: flip or abort the pending version, write the record, hold the decision. A COMMIT without a pending version is
recorded and not applied. -/
def State.takeDecision (s : State) (r : Fin 4) (d : DecisionRec) (anchor : Bool) : State :=

  let v := s.rv r
  let pending := vget s.wvt.pendingVer r == some d.version
  let had := v.holds d.step && (v.held.map (·.commit)) == some true
  let s := if pending then s.modWvt fun w => w.flip r d.commit else s
  let s := if pending && d.commit then s.modFr fun x => { x with due := x.due ++ [r] } else s
  let s := if d.commit && !pending && !had then s.emit (.report rpInternal [r.1]) else s
  let s := match v.args with
    | some a => if a.step = d.step then s.writeDecision a d else s
    | none => s
  let s := s.setDecision r d.step (if d.commit then 2 else 3) d.cause d.attempt anchor
  s.modRv r fun x => { x with
    held := some d, attempt := d.attempt, votedAt := none, passed := [], totals := []
    waiting := x.waiting.filter fun y => !(y.2.hdr.step == d.step && byteAt y.2.payload 5 ≤ d.attempt) }

/-- The decision of the rules of R267 on the totals of a chain. -/
def decideOn (live : Nat) (t : VoteRec) : Bool × Nat :=
  if t.held % 2 = 1 then (true, 0)
  else if 2 ≤ t.held then (false, dcsHeld)
  else if t.voters = live ∧ t.yes = t.voters ∧ t.rmin = t.rmax then (true, 0)
  else if t.yes < t.voters then (false, dcsNoVote)
  else if t.rmin ≠ t.rmax then (false, dcsDiverged)
  else (false, dcsMissing)

/-- The anchor's decision record; without totals the vote limit has passed. -/
def State.decisionOf (s : State) (r : Fin 4) (chain : List GroupEntry) (t : Option VoteRec) : DecisionRec :=
  let v := s.rv r
  let (c, cause, yes, voters) := match t with
    | some t =>
      let x := decideOn (liveMembers chain) t
      let bare := t.held != 0
      (x.1, x.2, if bare then 0xFFFF else t.yes, if bare then 0xFFFF else t.voters)
    | none => (false, dcsMissing, 0xFFFF, 0xFFFF)
  { step := ((v.args.map (·.step)).getD 0), version := v.wver, commit := c, cause := cause, attempt := v.attempt
    anchor := s.job.identity, memb := ((chain.head?).map (·.memb)).getD 0, yes := yes, voters := voters }

/-! ## The path of a vote (R267) -/

/-- This member's contribution at a level: its own vote, or the total of the level below, which is homed at rank 0. -/
def State.voteShare (s : State) (r : Fin 4) (chain : List GroupEntry) (level : Nat) : Option VoteRec :=
  let v := s.rv r
  match v.args with
  | none => none
  | some a =>
    if level = 0 then
      let held := match v.held with
        | some d => if d.step = a.step then (if d.commit then 1 else 2) else 0
        | none => 0
      some ⟨b2n a.yes, 1, held, v.attempt, a.result.toNat, a.result.toNat⟩
    else match chain[level - 1]? with
      | some e => if e.rank = 0 then sget v.totals (level - 1) else none
      | none => none

/-- Send the totals down: round the ring of each level below `top`, where this member is home. -/
def State.voteDown (s : State) (r : Fin 4) (chain : List GroupEntry) (top : Nat) (t : VoteRec) : State :=
  forEach (chain.take top) (fun s e => s.sendVote r e t) s

/-- What a member does with the totals: the anchor decides. -/
def State.gotTotals (s : State) (r : Fin 4) (chain : List GroupEntry) (t : VoteRec) : State :=
  let v := s.rv r
  let open_ := match v.args, v.held with
    | some a, some d => !(d.step == a.step && d.attempt == v.attempt)
    | _, _ => true
  if !isAnchor chain || !open_ then s
  else
    let d := s.decisionOf r chain (some t)
    (s.takeDecision r d true).flood r d none

/-- Take the first waiting record of a level, for the vote under way. -/
def RoleVote.take (v : RoleVote) (gid : Half) : Option (VoteRec × RoleVote) :=
  let fits := fun (x : Fin 24 × Msg) => x.2.hdr.group == gid && v.isFor x.2.hdr.step && byteAt x.2.payload 5 == v.attempt
  match v.waiting.find? fits with
  | none => none
  | some x => (parseVote x.2.payload).map fun t => (t, { v with waiting := dropFirst fits v.waiting })

/-- Go on with one level, if it has not passed here and everything it needs has come. -/
def State.voteLevel (s : State) (r : Fin 4) (chain : List GroupEntry) (level : Nat) : State :=
  match chain[level]?, s.voteShare r chain level with
  | some e, some c =>
    let v := s.rv r
    if v.passed.contains level then s
    else if e.prevRank = 0 then (s.modRv r fun x => { x with passed := x.passed ++ [level] }).sendVote r e c
    else match v.take e.gid with
      | none => s
      | some (t, v) =>
        let sum := t.plus c
        let s := s.modRv r fun _ => { v with passed := v.passed ++ [level] }
        if e.rank ≠ 0 then s.sendVote r e sum
        else
          let s := s.modRv r fun x => { x with totals := sput x.totals level sum }
          if level + 1 < chain.length then s
          else (s.voteDown r chain chain.length sum).gotTotals r chain sum
  | _, _ => s

/-- Go on with every level in turn. -/
def State.voteGo (s : State) (r : Fin 4) : State :=
  let chain := s.voteChain r
  forEach (List.range chain.length) (fun s l => s.voteLevel r chain l) s

/-- Begin an attempt of the role's vote. -/
def State.beginAttempt (s : State) (r : Fin 4) (attempt : Nat) : State :=
  (s.modRv r fun v => { v with attempt := attempt % 256, passed := [], totals := [] }).voteGo r

/-! ## Casting a vote (R266) -/

/-- The attempt of a new vote for a step: the next after a decision for it, the one already under way, or that of the records that
wait for it. -/
def State.nextAttempt (s : State) (r : Fin 4) (step : Word) : Nat :=
  let v := s.rv r
  let seen := (v.waiting.filter fun x => x.2.hdr.step == step).foldl (fun n x => max n (byteAt x.2.payload 5)) 0
  if v.holds step then max (v.attempt + 1) seen
  else if v.isFor step then v.attempt
  else seen

/-- Cast a role's vote. -/
def State.castVote (s : State) (r : Fin 4) (a : VoteArgs) (byHubop : Bool) (wver : Word) : State :=

  let n := s.nextAttempt r a.step % 256
  let old := (s.rv r).isFor a.step && (s.rv r).votedAt.isSome
  let s := s.modRv r fun v => { v with
    args := some a, byHubop := byHubop, wver := wver, votedAt := some s.aon, askedAt := s.aon, held := none, attempt := n
    waiting := v.waiting.filter fun x => 0 ≤ epochDiff x.2.hdr.step a.step && (x.2.hdr.step != a.step || decide (n ≤ byteAt x.2.payload 5)) }
  let s := s.setDecision r a.step 1 0 n false
  if old then s.voteGo r else s.beginAttempt r n

/-- The arguments of VOTE. -/
def parseVoteArgs (b : List Byte) : VoteArgs where
  slot := byteAt b 3
  yes := nbit (byteAt b 4) 0
  dies := BitVec.ofNat 4 (byteAt b 5)
  sem := b.getD 6 0
  step := bytesWord b 8
  result := BitVec.ofNat 64 (leAt b 12 8)
  drec := leAt b 20 4

def voteReserved (b : List Byte) : Bool := 1 < byteAt b 4 || 15 < byteAt b 5 || byteAt b 7 != 0 || !allZero (b.drop 24)

/-- VOTE by a program. -/
def State.voteHubop (s : State) (d : Fin 4) : State :=
  match s.hubMsg? d unitWvt 4 with
  | none => s
  | some m =>
    let a := parseVoteArgs m.bytes
    if voteReserved m.bytes then s.answerBad m dtReserved
    else match fin? 4 (byteAt m.bytes 2) with
    | none => s.answerBad m dtArgument
    | some r => match vget s.wvt.pendingVer r with
      | none => s.answerDenied m dtState
      | some w =>
        if (s.rv r).holds a.step && ((s.rv r).held.map (·.commit)) == some true then s.answerDenied m dtState
        else if !s.voteSlotOk r a.slot || !twinOffOk a.drec 32 32 then s.answerBad m dtArgument
        else (s.answer m stOk).castVote r a true w

/-- The NO vote that device firmware casts when a program of a role stops after the role has finished a step and before it has voted
(R266). -/
def State.noVote (s : State) (r : Fin 4) : State :=

  let step := (s.mq r).step - 1
  let v := s.rv r
  if !s.roleUsed r || (s.mq r).step = 0 || v.isFor step || v.holds step || !s.roleFinished r step then s
  else match s.voteSlot r with
    | none => s
    | some i =>
      let old := v.args.filter fun _ => v.byHubop
      s.castVote r { slot := i, yes := false, dies := (old.map (·.dies)).getD 0, sem := (old.map (·.sem)).getD 0
                     step := step, result := 0, drec := (old.map (·.drec)).getD 0 } v.byHubop (s.wvt.committed r + 1)

/-! ## Messages -/

/-- The role and the slot that a message about a vote names, by its group. -/
def State.voteRole (s : State) (h : Header) : Option (Fin 4 × GroupEntry) :=
  match s.activeGroup h.group with
  | some (_, e) => (fin? 4 e.role).map fun r => (r, e)
  | none => none

/-- Take part, with the decision held, in a vote that is run again (R269). -/
def State.joinVote (s : State) (r : Fin 4) (p : Fin 24) (m : Msg) (attempt : Nat) : State :=

  (s.modRv r fun v => { v with waiting := v.waiting ++ [(p, m)] }).beginAttempt r attempt

/-- Whether a member that has not voted at an attempt takes part in it by the decision that it holds: a COMMIT, or an ABORT under an
earlier membership epoch while the update has not been opened again (R269; log entry 36). -/
def State.joins (s : State) (r : Fin 4) (step : Word) : Bool :=
  let v := s.rv r
  match v.held, (s.voteChain r).head? with
  | some d, some e => d.step == step && v.isFor step &&
      (d.commit || (0 < epochDiff e.memb d.memb && (vget s.wvt.pendingVer r).isNone))
  | _, _ => false

/-- A record of a vote has come to this member. -/
def State.voteArrive (s : State) (p : Fin 24) (m : Msg) (r : Fin 4) (e : GroupEntry) (t : VoteRec) : State :=
  let v := s.rv r
  let h := m.hdr
  let chain := s.voteChain r
  if v.isFor h.step && t.attempt == v.attempt then
    match levelOf chain e.gid with
    | none => s
    | some l =>
      if v.passed.contains l then
        let s := if e.nextRank = 0 then s else s.sendVote r e t
        (s.voteDown r chain l t).gotTotals r chain t
      else (s.modRv r fun v => { v with waiting := v.waiting ++ [(p, m)] }).voteGo r
  else if (v.isFor h.step && decide (t.attempt < v.attempt)) ||
      ((v.args.map fun a => decide (epochDiff h.step a.step < 0)).getD false) then s
  else if s.joins r h.step then s.joinVote r p m t.attempt
  else if !v.isFor h.step && s.wvt.committed r == h.wver && (s.voteSlot r).isSome then
    let a : VoteArgs := ⟨(s.voteSlot r).getD 0, true, 0, 0, h.step, 0, 0⟩
    let d : DecisionRec := ⟨h.step, h.wver, true, 0, t.attempt, s.job.identity, e.memb, 0xFFFF, 0xFFFF⟩
    (s.modRv r fun v => { v with args := some a, byHubop := false, wver := h.wver, votedAt := none, held := some d }).joinVote
      r p m t.attempt
  else s.modRv r fun v => { v with waiting := v.waiting ++ [(p, m)] }

/-- VOTE: a record has come. -/
def State.voteMsg (s : State) (p : Fin 24) : State :=
  match s.takeMsg p kVote with
  | none => s
  | some (m, s) =>
    match s.epochCheck m.hdr with
    | .stale k => s.bounce p m.hdr k true
    | _ => match parseVote m.payload, s.voteRole m.hdr with
      | some t, some (r, e) => s.voteArrive p m r e t
      | _, _ => s.reject p m.hdr 0x06 stBadDescriptor

/-- DECISION (R268): adopted and forwarded when it is not held; one of an earlier attempt is discarded. -/
def State.decisionMsg (s : State) (p : Fin 24) : State :=
  match s.takeMsg p kDecision with
  | none => s
  | some (m, s) =>
    match s.epochCheck m.hdr with
    | .stale k => s.bounce p m.hdr k true
    | _ => match parseDecision m.payload, s.voteRole m.hdr with
      | some d, some (r, _) =>
        let v := s.rv r
        let known := match v.held with
          | some x => x.step == d.step && decide (d.attempt ≤ x.attempt)
          | none => false
        let behind := match v.args with
          | some a => epochDiff d.step a.step < 0 || (a.step == d.step && decide (d.attempt < v.attempt))
          | none => false
        if known || behind then s else (s.flood r d (some p)).takeDecision r d false
      | _, _ => s.violate p (violOf m.hdr 0x06 1)

/-- DECISION_REQ: answered by a member that holds the decision. -/
def doDecisionReq (p : Fin 24) (s : State) : State :=
  match s.takeMsg p kDecisionReq with
  | none => s
  | some (m, s) =>
    let b := m.payload
    match s.epochCheck m.hdr with
    | .stale k => s.bounce p m.hdr k true
    | _ =>
      if b.length ≠ 8 ∨ !allZero (b.drop 5) then s.reject p m.hdr 0x06 stBadDescriptor
      else match s.voteRole m.hdr with
        | none => s
        | some (r, e) => match (s.rv r).held with
          | none => s
          | some d =>
            if d.step = bytesWord b 0 ∧ d.attempt = byteAt b 4 then
              s.send p ⟨s.voteHdr r e p kDecision d.step d.version, d.bytes⟩ (.fr r)
            else s

/-- A limit of FR.CFG in ticks. -/
def frTicks (w : Word) (f : Fld) (unit : Nat) : Nat := unit * max 1 (fget f w)

/-- VOTE_LIMIT_EXPIRY: the anchor decides ABORT with cause MISSING (R267). -/
def doVoteLimitExpiry (r : Fin 4) (s : State) : State :=
  let chain := s.voteChain r
  match (s.rv r).votedAt with
  | none => s
  | some t =>
    if !isAnchor chain || s.aon < t + frTicks s.fr.cfg frCfgVoteLimit 1024 then s
    else
      let d := s.decisionOf r chain none
      (s.takeDecision r d true).flood r d none

/-- DECIDE_WAIT_EXPIRY: a member that has voted and holds no decision asks its neighbours (R268). -/
def doDecideWaitExpiry (r : Fin 4) (s : State) : State :=
  let v := s.rv r
  match v.votedAt, v.args with
  | some _, some a =>
    if s.aon < v.askedAt + frTicks s.fr.cfg frCfgDecideWait 1024 then s
    else
      let s := s.modRv r fun x => { x with askedAt := s.aon }
      forEach (chainPorts (s.voteChain r)) (fun s x => match port? x.1 with
        | some p => s.send p ⟨{ s.voteHdr r x.2 p kDecisionReq a.step v.wver with length := 8 },
            natLe 4 a.step.toNat ++ natLe 1 v.attempt ++ [0, 0, 0]⟩ (.fr r)
        | none => s) s
  | _, _ => s

/-! ## Membership, ports -/

/-- The membership epoch of slots has risen: a vote that is undecided here, and one whose COMMIT is held here, is run again at the
next attempt (R269; log entry 36). -/
def State.revote (s : State) (slots : List (Fin 64)) : State :=
  forEach (allFin 4) (fun s r =>
    let v := s.rv r
    match v.args with
    | none => s
    | some a =>
      let commit := v.holds a.step && (v.held.map (·.commit)) == some true
      if !((s.chain a.slot).any fun i => slots.contains i) || !(v.votedAt.isSome || commit) then s
      else
        let n := (v.attempt + 1) % 256
        let s := if commit then s else s.setDecision r a.step 1 0 n false
        let s := s.modRv r fun x => { x with votedAt := x.votedAt.map fun _ => s.aon, askedAt := s.aon }
        s.beginAttempt r n) s

/-- A role that is installed anew, or removed, has not voted. -/
def State.forgetVote (s : State) (r : Fin 4) : State := s.modRv r fun _ => RoleVote.reset

/-- A vote or decision that a lost port gave back waits (R257, R269). -/
def State.frReturned (s : State) (p : Fin 24) (m : Msg) (from_ : Sender) : State :=
  s.modFr fun x => { x with returned := x.returned ++ [(p, m, from_)] }

/-- The port carries again with its expected partner: what it gave back is sent again with RESEND. -/
def State.frResend (s : State) (p : Fin 24) : State :=
  if !s.carries p || s.seen p != s.expects p then s
  else
    let back := s.fr.returned.filter fun x => x.1 == p
    let s := s.modFr fun x => { x with returned := x.returned.filter fun y => y.1 != p }
    forEach back (fun s x => s.send p { x.2.1 with hdr := x.2.1.hdr.withResend true } x.2.2) s

end Sys2Proof.Machine
end

