-- ==== Sys2Proof/Machine/Copy.lean ====
section
/-!
DEFINITION. Copies (spec 14): the identity record (R260, Table 14-2; its layout is log entry 37), digests (R261), pairing (R262), drains to the
buddy and to a checkpoint (R263, R264), the buddy's copy slots (log entry 38), and the service of fills by a source (R271,
R272).
-/
namespace Sys2Proof.Machine

/-! ## The identity record (R260; log entry 37) -/

/-- A tally job in an identity record: entry, unit, descriptor, tensor table. -/
structure IdJob where
  idx   : Nat
  unit  : Nat
  raw   : List Byte
  table : List (Nat × Nat)
deriving DecidableEq, Repr

/-- A role's set-up in an identity record. -/
structure IdRole where
  role  : Quad
  up    : LinkImage
  down  : LinkImage
  cfg   : Quad
  fpay  : Quad
  bpay  : Quad
  range : Word
deriving DecidableEq, Repr

structure IdRecord where
  position : Word
  roles    : List IdRole
  areas    : List Word
  base     : Quad
  entries  : List (Nat × WvtEntry)
  groups   : List (Nat × GroupEntry)
  jobs     : List IdJob
deriving DecidableEq, Repr

/-- A group entry with its member list as Tables 11-4 and 11-5 lay them out. -/
def GroupEntry.bytes (e : GroupEntry) : List Byte :=
  padTo 64 (natLe 2 e.gid.toNat ++ natLe 1 e.axis ++ natLe 1 e.level ++ natLe 1 e.vc ++ natLe 1 e.parent ++ natLe 1 e.prevPort ++
    natLe 1 e.nextPort ++ natLe 4 e.layout.toNat ++ natLe 4 e.memb.toNat ++ natLe 2 e.members.length ++ natLe 2 e.rank ++
    natLe 1 e.role) ++
  e.members.flatMap fun m => natLe 4 m.pos.toNat ++ natLe 1 (b2n m.live) ++ [0, 0, 0]

/-- A WVT entry as Table 15-13 lays it out: its committed buffer holds its version. -/
def WvtEntry.bytes (e : WvtEntry) : List Byte :=
  let c : Nat := (e.bufs.findIdx? fun b => b.st == .committed).getD 0
  let v : Word := match e.bufs[c]? with
    | some b => b.version
    | none => 0
  padTo 128 (natLe 4 e.tensorId.toNat ++ natLe 4 e.elements.toNat ++ natLe 1 e.bufs.length ++ natLe 1 c ++ [0, 0] ++
    natLe 4 v.toNat ++
    e.bufs.flatMap fun b => natLe 8 b.w ++ natLe 8 b.m ++ natLe 8 b.v)

/-- A role's set-up as 72 bytes. -/
def IdRole.bytes (r : IdRole) : List Byte :=
  natLe 8 r.role.toNat ++ natLe 16 r.up.toNat ++ natLe 16 r.down.toNat ++ natLe 8 r.cfg.toNat ++ natLe 8 r.fpay.toNat ++
  natLe 8 r.bpay.toNat ++ natLe 4 r.range.toNat ++ [0, 0, 0, 0]

def parseIdRole (b : List Byte) : IdRole where
  role := BitVec.ofNat 64 (leAt b 0 8)
  up := BitVec.ofNat 128 (leAt b 8 16)
  down := BitVec.ofNat 128 (leAt b 24 16)
  cfg := BitVec.ofNat 64 (leAt b 40 8)
  fpay := BitVec.ofNat 64 (leAt b 48 8)
  bpay := BitVec.ofNat 64 (leAt b 56 8)
  range := bytesWord b 64

def IdJob.bytes (j : IdJob) : List Byte :=
  natLe 1 j.idx ++ natLe 1 j.unit ++ natLe 2 j.table.length ++ [0, 0, 0, 0] ++ padTo 128 j.raw ++
  j.table.flatMap fun x => natLe 2 x.1 ++ [0, 0] ++ natLe 4 x.2

/-- The record's bytes: a head with the length and the counts, then roles, entries, groups and jobs. -/
def IdRecord.bytes (x : IdRecord) : List Byte :=
  let body := natLe 4 x.position.toNat ++ natLe 2 x.entries.length ++ natLe 2 x.groups.length ++ natLe 2 x.jobs.length ++ [0, 0] ++
    natLe 8 x.base.toNat ++ (x.areas.flatMap fun w => natLe 4 w.toNat) ++ (x.roles.flatMap IdRole.bytes) ++
    (x.entries.flatMap fun e => natLe 2 e.1 ++ [0, 0, 0, 0, 0, 0] ++ e.2.bytes) ++
    (x.groups.flatMap fun g => natLe 1 g.1 ++ [0, 0, 0, 0, 0, 0, 0] ++ g.2.bytes) ++ (x.jobs.flatMap IdJob.bytes)
  natLe 4 (body.length + 4) ++ body

/-- Parse a number of variable parts: each parser answers the part and what follows it. -/
def parseMany {α : Type} (one : List Byte → Option (α × List Byte)) : Nat → List Byte → Option (List α × List Byte)
  | 0, b => some ([], b)
  | n + 1, b => match one b with
    | none => none
    | some (x, b) => (parseMany one n b).map fun y => (x :: y.1, y.2)

def parseIdEntry (b : List Byte) : Option ((Nat × WvtEntry) × List Byte) :=
  match parseWvtEntry (slice b 8 128) with
  | .ok e => if b.length < 136 ∨ 4096 ≤ leAt b 0 2 then none else some ((leAt b 0 2, e), b.drop 136)
  | .error _ => none

def parseIdGroup (b : List Byte) : Option ((Nat × GroupEntry) × List Byte) :=
  let n := 64 + 8 * leAt b 24 2
  if b.length < 8 + n ∨ 64 ≤ byteAt b 0 then none
  else (parseGroup (slice b 8 n)).map fun e => ((byteAt b 0, e), b.drop (8 + n))

def parseIdJob (b : List Byte) : Option (IdJob × List Byte) :=
  let n := leAt b 2 2
  if b.length < 136 + 8 * n ∨ 64 ≤ byteAt b 0 ∨ 4 ≤ byteAt b 1 then none
  else some (⟨byteAt b 0, byteAt b 1, slice b 8 128, (List.range n).map fun i => (leAt b (136 + 8 * i) 2, leAt b (140 + 8 * i) 4)⟩,
    b.drop (136 + 8 * n))

/-- A record from its bytes. -/
def parseIdRecord (b : List Byte) : Option IdRecord :=
  if b.length < 328 ∨ leAt b 0 4 ≠ b.length then none
  else match parseMany parseIdEntry (leAt b 8 2) (b.drop 328) with
  | none => none
  | some (es, b1) => match parseMany parseIdGroup (leAt b 10 2) b1 with
    | none => none
    | some (gs, b2) => match parseMany parseIdJob (leAt b 12 2) b2 with
      | none => none
      | some (js, rest) =>
        if rest ≠ [] then none
        else some {
          position := bytesWord b 4, base := BitVec.ofNat 64 (leAt b 16 8)
          areas := (List.range 4).map fun i => bytesWord b (24 + 4 * i)
          roles := (List.range 4).map fun i => parseIdRole (slice b (40 + 72 * i) 72)
          entries := es, groups := gs, jobs := js }

/-- A link image without STATE. -/
def StageLink.image (l : StageLink) : LinkImage := fput sleState 0 l.reg

/-- The identity record of this device. -/
def State.idRecord (s : State) : IdRecord where
  position := s.job.identity
  roles := (allFin 4).map fun r =>
    let q := s.mq r
    ⟨s.roleReg r, (s.link r .bwd).image, (s.link r .fwd).image, q.cfg, q.fpay, q.bpay, vget s.wvt.ranges r⟩
  areas := s.mbq.area.toList
  base := s.mbq.base
  entries := s.wvt.entries
  groups := (allFin 64).filterMap fun i => (s.grp i).active.map fun e => (i.1, e)
  jobs := (allFin 64).filterMap fun j => (s.tjob j).map fun t => ⟨j.1, t.unit, t.raw, t.table⟩

/-! ## Digests (R261) -/

/-- The hash of word `i` of a range of class `k`, entry `x`. -/
def wordHash (k x i w : Nat) : Nat :=
  let o := philoxRounds 10 (i % 2 ^ 32, i / 2 ^ 32 % 2 ^ 32, x, k) (w % 2 ^ 32) (w / 2 ^ 32 % 2 ^ 32)
  o.2.1 * 2 ^ 32 + o.1

/-- The digest of bytes that stand from word `i` of the range on; a last part of a word is padded with zeros. -/
def digestFrom (k x i : Nat) (bs : List Byte) : Nat :=
  ((chunks 8 (bs.length / 8 + 1) bs).foldl (fun (a : Nat × Nat) w => ((a.1 + wordHash k x a.2 (leNat w)) % 2 ^ 64, a.2 + 1)) (0, i)).1

def digest (k x : Nat) (bs : List Byte) : Nat := digestFrom k x 0 bs

/-- The bytes of a digest table. -/
def tableBytes (l : List (Nat × Nat × Nat)) : List Byte :=
  l.flatMap fun x => natLe 8 x.1 ++ natLe 8 x.2.1 ++ natLe 8 x.2.2

def parseTable (n : Nat) (b : List Byte) : List (Nat × Nat × Nat) :=
  (List.range n).map fun i => (leAt b (24 * i) 8, leAt b (24 * i + 8) 8, leAt b (24 * i + 16) 8)

/-- The digest of a class in a table entry. -/
def tableGet (l : List (Nat × Nat × Nat)) (i kind : Nat) : Option Nat :=
  (l[i]?).map fun x => if kind = 1 then x.1 else if kind = 2 then x.2.1 else x.2.2

/-! ## The ranges of a role -/

/-- The address of a buffer of a kind: 0 where there is none. -/
def WvtBuf.addr (b : WvtBuf) (kind : Nat) : Nat := if kind = 1 then b.w else if kind = 2 then b.m else b.v

/-- Bytes of a tensor's buffer: T16 elements. -/
def WvtEntry.bufBytes (e : WvtEntry) : Nat := 2 * e.elements.toNat

/-- The entries of a role with their indices. -/
def Wvt.indexed (w : Wvt) (r : Fin 4) : List (Nat × WvtEntry) := w.entries.filter fun x => w.has r x.1

/-- A buffer range that has been read: entry index, entry, kind, and its bytes. -/
structure BufRead where
  entry : Nat
  id    : Word
  kind  : Nat
  data  : List Byte
  digest : Nat
deriving DecidableEq, Repr

def lgDrain : Nat := 12
def rpPoisoned : Nat := 13
def rpBuddyLost : Nat := 14

/-- Read one buffer of a version; poisoned bytes are free (log entry 26), and the drain log and a report tell of them (R264). -/
def State.readBuf (s : State) (i : Nat) (e : WvtEntry) (v : Word) (kind : Nat) : State × Option BufRead :=
  match e.bufs.find? fun b => b.live v with
  | none => (s, none)
  | some b =>
    if b.addr kind = 0 then (s, none)
    else
      let (s, r) := s.readDev (b.addr kind) e.bufBytes
      let st := match r.fail with
        | some x => some x.1
        | none => if r.bad then some stPoisoned else none
      let (bs, s) := match st with
        | none => (r.data, s)
        | some x =>
          let (fr, s) := s.freshBytes r.bytes.length
          ((r.bytes.zip fr).map fun y => y.1.getD y.2, (s.log .drain lgDrain [i, x.toNat]).emit (.report rpPoisoned [i]))
      (s, some ⟨i, e.tensorId, kind, bs, digest kind i bs⟩)

/-- Read every buffer of a role's version, in the order of R263. -/
def State.readRole (s : State) (r : Fin 4) (v : Word) : State × List BufRead :=
  (s.wvt.indexed r).foldl (fun a x => [1, 2, 3].foldl (fun (a : State × List BufRead) k =>
    match a.1.readBuf x.1 x.2 v k with
    | (s, some b) => (s, a.2 ++ [b])
    | (s, none) => (s, a.2)) a) (s, [])

/-- The digest table of what was read: 0 for a range without a buffer. -/
def tableOf (idx : List Nat) (l : List BufRead) : List (Nat × Nat × Nat) :=
  idx.map fun i =>
    let d := fun (k : Nat) => ((l.find? fun b => b.entry == i && b.kind == k).map (·.digest)).getD 0
    (d 1, d 2, d 3)

/-- Bytes of this device's carried state, for one copy slot: the identity record and the committed buffers of every role. -/
def State.carried (s : State) : Nat :=
  s.idRecord.bytes.length + ((allFin 4).flatMap fun r => (s.wvt.indexed r).map fun x =>
    ((x.2.bufs.find? fun b => b.st == .committed).map fun b =>
      x.2.bufBytes * ([1, 2, 3].filter fun k => b.addr k != 0).length).getD 0).sum

/-! ## Messages on VC_FILL -/

/-- The largest payload on a port. -/
def State.maxBytes (s : State) (p : Fin 24) : Nat := 2 ^ (16 + (s.port p).phy.maxMsg)

def State.sendFill (s : State) (p : Fin 24) (kind : Nat) (from_ : Sender) (b : List Byte) (off : Nat := 0) (last : Bool := true) :
    State :=
  s.send p ⟨{ s.hdr (s.seen p) vcFill kind b.length with offset := off, flags := hflags false last false false }, b⟩ from_

/-- A payload of any length, in segments (R272). -/
def State.sendLong (s : State) (p : Fin 24) (kind : Nat) (from_ : Sender) (b : List Byte) : State :=
  let n := s.maxBytes p
  let k := (b.length + n - 1) / n
  forEach (List.range k) (fun s i => s.sendFill p kind from_ (slice b (n * i) n) (n * i) (i + 1 == k)) s

/-- The 32 B segment header (Table 14-16). -/
def segHead (cls role kind slot : Nat) (id version : Word) (off n : Nat) : List Byte :=
  natLe 1 cls ++ natLe 1 role ++ natLe 1 kind ++ natLe 1 slot ++ natLe 4 id.toNat ++ natLe 4 version.toNat ++ natLe 8 off ++
  natLe 4 n ++ List.replicate 8 0

/-- Send a range in COPY_DATA or FILL_DATA segments; an empty one takes one. -/
def State.sendRange (s : State) (p : Fin 24) (kind : Nat) (from_ : Sender) (head : Nat → Nat → List Byte) (off : Nat) (b : List Byte) :
    State :=
  let n := s.maxBytes p - 32
  let k := max 1 ((b.length + n - 1) / n)
  forEach (List.range k) (fun s i =>
    let x := slice b (n * i) n
    s.sendFill p kind from_ (head (off + n * i) x.length ++ x) 0 (i + 1 == k)) s

/-- FILL_FAIL (Table 14-15). -/
def State.fillFail (s : State) (p : Fin 24) (st : Half) (cls role : Nat) (id version : Word) : State :=
  s.sendFill p kFillFail .serve (natLe 2 st.toNat ++ natLe 1 cls ++ natLe 1 role ++ natLe 4 id.toNat ++ natLe 4 version.toNat ++
    List.replicate 20 0)

/-- A payload with a non-zero reserved byte is discarded and answered (R272). -/
def State.fillBad (s : State) (p : Fin 24) : State := s.fillFail p stBadDescriptor 0 0 0 0

/-! ## Pairing (R262) -/

/-- FEED_ID as sampled. -/
def State.feed (s : State) : Nat := fget strapFeedId s.boot.straps

/-- A port that serves a command with four wavelengths only. -/
def State.portDegraded (s : State) (ps : List (Fin 24)) : Option Half :=
  firstSome ps fun p => if s.portState p = 3 then some (partPort p) else none

/-- OK, or OK_DEGRADED for a part of the device or a port that the command used (R194). -/
def State.finalOkPorts (s : State) (h : Quad) (ps : List (Fin 24)) (i : FinalInfo := {}) : State :=
  match (s.degradedPart []).or (s.portDegraded ps) with
  | none => s.final h stOk 0 i
  | some x => s.final h stOkDegraded x i

def buddyNone : Quad := 0xFF000000#64

/-- BUDDY_PAIR. -/
def doBuddyPair (h : Quad) (s : State) : State :=
  s.start h 0x30 fun c s =>
    let pos := BitVec.ofNat 32 (c.arg 8 4)
    let n := c.arg 14 1
    match port? (c.arg 12 1) with
    | none => s.bad h dtArgument
    | some p =>
      let t := s.modFr fun x => { x with
        buddy := fput buddyBuddyPos pos.toNat (fput buddyPort p.1 (fput buddySlots n 0)) }
      if pos = 0 ∨ pos = noPos ∨ n = 0 ∨ 2 < n ∨ clashing (t.otherBindings ++ t.groupBindings) then s.bad h dtArgument
      else if s.fr.pairing.isSome then s.denied h dtState
      else
        let t := (t.setExpects [(p.1, pos)]).modFr fun x => { x with
          pairing := some ⟨h, p, n, nbit (c.arg 13 1) 0⟩, copies := Vector.replicate 4 []
          copy := Vector.replicate 4 0xFFFFFFFFFFFFFFFF#64 }
        if t.portOut p.1 then
          (t.modFr fun x => { x with pairing := none, buddy := buddyNone }).final h stPortLost (partPort p)
        else t.sendFill p kPair .fill (natLe 4 s.job.identity.toNat ++ natLe 1 s.feed ++ natLe 1 n ++ [0, 0] ++ natLe 8 s.carried ++
          List.replicate 16 0)

/-- HOLD_COPY: an earlier copy held is given up. -/
def doHoldCopy (h : Quad) (s : State) : State :=
  s.start h 0x31 fun c s =>
    let owner := BitVec.ofNat 32 (c.arg 8 4)
    let n := c.arg 13 1
    let addr := c.arg 16 8
    match port? (c.arg 12 1) with
    | none => s.bad h dtArgument
    | some p =>
      let t := s.modFr fun x => { x with
        hold := fput holdOwner owner.toNat (fput holdPort p.1 (fput holdSlots n (fput holdState 1
          (fflag holdMismatch (fon holdMismatch x.hold) 0))))
        holdArea := addr % 2 ^ 40, holdBytes := c.arg 24 8, slots := [], copyBuf := [] }
      if owner = 0 ∨ owner = noPos ∨ n = 0 ∨ 2 < n ∨ clashing (t.otherBindings ++ t.groupBindings) then s.bad h dtArgument
      else if !nbit addr 63 || devSize < addr % 2 ^ 40 + c.arg 24 8 then s.bad h dtAddress
      else (t.setExpects [(p.1, owner)]).finalOkPorts h [p]

/-- Whether this device holds, or will hold, copies of the partner on a port. -/
def State.holdsFor (s : State) (p : Fin 24) : Bool := fget holdState s.fr.hold != 0 && fget holdPort s.fr.hold == p.1

/-- PAIR. -/
def doPair (p : Fin 24) (s : State) : State :=
  match s.takeMsg p kPair with
  | none => s
  | some (m, s) =>
    let b := m.payload
    if b.length ≠ 32 ∨ !allZero (slice b 6 2) ∨ !allZero (b.drop 16) then s.fillBad p
    else
      let ok := s.holdsFor p && fget holdOwner s.fr.hold == leAt b 0 4 && decide (byteAt b 5 * leAt b 8 8 ≤ s.fr.holdBytes)
      s.sendFill p kPairAck .fill (natLe 2 (if ok then stOk else stNotPermitted).toNat ++ natLe 1 s.feed ++
        natLe 1 (fget holdSlots s.fr.hold) ++ natLe 8 s.fr.holdBytes ++ List.replicate 20 0)

/-- PAIR_ACK. -/
def doPairAck (p : Fin 24) (s : State) : State :=
  match s.takeMsg p kPairAck with
  | none => s
  | some (m, s) =>
    let b := m.payload
    if b.length ≠ 32 ∨ !allZero (b.drop 12) then s.fillBad p
    else match s.fr.pairing with
    | none => s
    | some x =>
      if x.port ≠ p then s
      else
        let feed := byteAt b 2
        let shared := feed == 0 || s.feed == 0 || feed == s.feed
        let s := s.modFr fun y => { y with pairing := none }
        let out := s.modFr fun y => { y with buddy := buddyNone }
        if bytesHalf b 0 ≠ stOk then out.denied x.handle dtState
        else if shared && !x.override then out.final x.handle stSharedFeed (BitVec.ofNat 16 feed)
        else (s.modFr fun y => { y with
          buddy := fput buddyBuddyFeed feed (fput buddyState (if shared then 2 else 1)
            (fput buddySlots (min x.slots (byteAt b 3)) y.buddy)) }).finalOkPorts x.handle [p]

/-! ## Drains (R263, R264) -/

def State.setCopy (s : State) (r : Fin 4) (f : Quad → Quad) : State := s.modFr fun x => { x with copy := vmod x.copy r f }

/-- Set COMPLETE of FR.COPYn from the list of complete copies. -/
def State.syncCopy (s : State) (r : Fin 4) : State :=
  let v := ((vget s.fr.copies r).head?.map (·.2)).getD noPos
  s.setCopy r (fput copyComplete v.toNat)

/-- Send a drain's messages: the identity record, the buffers in order, and COPY_DONE. -/
def State.sendDrain (s : State) (d : Drain) (record : List Byte) (l : List BufRead) : State :=
  let from_ : Sender := .drain d.role d.handle
  let head := fun (cls kind : Nat) (id : Word) => segHead cls d.role.1 kind d.slot id d.version
  let s := s.sendRange d.port kCopyData from_ (head 1 0 0) 0 record
  let s := forEach l (fun s b => s.sendRange d.port kCopyData from_ (head 2 b.kind b.id) 0 b.data) s
  let idx := (s.wvt.indexed d.role).map (·.1)
  s.sendLong d.port kCopyDone from_ (natLe 1 d.role.1 ++ natLe 1 d.slot ++ natLe 2 idx.length ++ natLe 4 d.version.toNat ++
    natLe 8 (digest 5 0 record) ++ natLe 8 d.bytes ++ List.replicate 8 0 ++ tableBytes (tableOf idx l))

/-- Begin a drain of data that has been read; the version is pinned until it ends. -/
def State.beginDrain (s : State) (r : Fin 4) (v : Word) (p : Fin 24) (slot : Nat) (again : Bool) (h : Option Quad)
    (record : List Byte) (l : List BufRead) : State :=
  let sum := (digest 5 0 record + (l.map (·.digest)).sum) % 2 ^ 64
  let d : Drain := ⟨r, v, p, slot, again, h, sum, record.length + (l.map (·.data.length)).sum⟩
  ((s.modWvt fun w => w.pin r v).modFr fun x => { x with drains := x.drains ++ [d] }).sendDrain d record l

/-- The copy slot that the next drain of a role uses: the one that does not hold the newest complete copy. -/
def State.drainSlot (s : State) (r : Fin 4) : Nat :=
  if fget buddySlots s.fr.buddy = 2 then
    match (vget s.fr.copies r).head? with
    | some (k, _) => 1 - k
    | none => 0
  else 0

/-- Drain a role's version to the buddy, when it is paired, its port carries, and no drain of the role runs. -/
def State.drainTo (s : State) (r : Fin 4) (v : Word) (again : Bool) (l : List BufRead) : State :=
  match port? (fget buddyPort s.fr.buddy) with
  | none => s
  | some p =>
    let busy := s.fr.drains.any fun d => d.role == r && d.handle.isNone
    if fget buddyState s.fr.buddy = 0 || !s.carries p || s.fr.pairing.isSome || busy then s
    else
      let k := s.drainSlot r
      let feed := fget buddyBuddyFeed s.fr.buddy
      let shared := feed == 0 || s.feed == 0 || feed == s.feed
      let s := s.modFr fun x => { x with
        buddy := fput buddyState (if shared then 2 else 1) x.buddy
        copies := vmod x.copies r fun c => c.filter fun y => y.1 != k
        redone := if again then vset x.redone r (some v) else x.redone }
      let s := (s.syncCopy r).setCopy r (fput copyDrain v.toNat)
      s.beginDrain r v p k again none s.idRecord.bytes l

/-- Answer the digest requests whose roles' tables have become valid. -/
def State.digestsValid (s : State) (roles : Nat) : Bool :=
  (allFin 4).all fun r => !(nbit roles r.1 && s.roleUsed r) ||
    ((vget s.fr.digests r).map (·.1)) == some (s.wvt.committed r)

/-- A step whose tally jobs have completed here and whose update is not committed (Table 14-18). -/
def State.reducedStep (s : State) (r : Fin 4) : Option Word :=
  let ts := (s.tly.jobs.toList.filterMap id).filter fun t =>
    s.jobRole t == some r && ((s.entry t.desc.slot).map (·.axis)) == some 0
  match ts.head?.bind (·.last) with
  | none => none
  | some w =>
    let done := ts.all fun t => t.last == some w && !t.busy
    let committed := (s.rv r).holds w && ((s.rv r).held.map (·.commit)) == some true
    if done && !committed then some w else none

/-- DIGEST_DATA for the roles that a request names. -/
def State.sendDigests (s : State) (p : Fin 24) (roles : Nat) : State :=
  let rs := (allFin 4).filter fun r => nbit roles r.1 && s.roleUsed r
  let one := fun (r : Fin 4) =>
    let t := ((vget s.fr.digests r).map (·.2)).getD []
    natLe 1 r.1 ++ natLe 1 (fget decisionState (vget s.fr.decision r)) ++ natLe 2 (s.stageOf r).toNat ++ natLe 4 (s.mq r).step.toNat ++
    natLe 4 (s.wvt.committed r).toNat ++ natLe 4 ((s.reducedStep r).getD noPos).toNat ++ natLe 2 t.length ++
    List.replicate 14 0 ++ tableBytes t
  s.sendLong p kDigestData .serve (natLe 1 rs.length ++ List.replicate 15 0 ++ rs.flatMap one)

/-- Answer every waiting digest request that can be answered. -/
def State.answerDigests (s : State) : State :=
  let (now, later) := s.fr.digestQueue.partition fun q => s.digestsValid (byteAt q.req 4)
  forEach now (fun s q => s.sendDigests q.port (byteAt q.req 4)) (s.modFr fun x => { x with digestQueue := later })

/-- A role has committed: its digest table is formed, and its version is drained to the buddy (R261, R263). -/
def State.afterCommit (s : State) (r : Fin 4) : State :=
  let v := s.wvt.committed r
  let (s, l) := s.readRole r v
  let t := tableOf ((s.wvt.indexed r).map (·.1)) l
  ((s.modFr fun x => { x with digests := vset x.digests r (some (v, t)) }).drainTo r v false l).answerDigests

/-- Begin what the commits just made call for. -/
def State.startDrains (s : State) : State :=
  let rs := s.fr.due
  forEach rs (fun s r => s.afterCommit r) (s.modFr fun x => { x with due := [] })

/-- Drain the committed version, when it is not the one that was drained last (a drain skips versions that were committed and
replaced while an earlier drain ran; log entry 39). -/
def State.drainLater (s : State) (r : Fin 4) (was : Word) : State :=
  let v := s.wvt.committed r
  if v = was then s
  else
    let (s, l) := s.readRole r v
    s.drainTo r v false l

/-- The last message of a drain has been acknowledged: the drain ends, its pin goes, and the copy counts as complete until the buddy says
otherwise (log entry 39). A checkpoint drain completes with the last of its roles. -/
def State.drainAcked (s : State) (r : Fin 4) (h : Option Quad) (m : Header) : State :=
  if m.kind ≠ kCopyDone ∨ !m.flags.getLsbD hfLast then s
  else match s.fr.drains.find? fun d => d.role == r && d.handle == h with
  | none => s
  | some d =>
    let s := (s.modWvt fun w => w.unpin r d.version).modFr fun x => { x with drains := dropFirst (fun y => y == d) x.drains }
    match h with
    | none =>
      let s := s.modFr fun x => { x with copies := vmod x.copies r fun c => (d.slot, d.version) :: c }
      ((s.setCopy r (fput copyDrain 0xFFFFFFFF)).syncCopy r).drainLater r d.version
    | some c =>
      match s.fr.drains.find? fun y => y.handle == h with
      | some y => s.modFr fun x => { x with drains := updateWhere (fun z => z == y) (fun z => { z with
          digest := (z.digest + d.digest) % 2 ^ 64, bytes := z.bytes + d.bytes }) x.drains }
      | none => s.finalOkPorts c [d.port] { result := natLe 4 d.version.toNat ++ natLe 8 d.digest }

/-- Take the messages of a sender out of a port's queue; one that has begun goes on. -/
def State.unqueue (s : State) (p : Fin 24) (f : Sender → Bool) : State :=
  s.modPort p fun x => { x with tx := { x.tx with queues := vmap x.tx.queues fun _ q => q.filter fun m => !f m.sender } }

/-- A drain is abandoned. -/
def State.dropDrain (s : State) (d : Drain) : State :=
  let s := ((s.modWvt fun w => w.unpin d.role d.version).modFr fun x => { x with
    drains := dropFirst (fun y => y == d) x.drains }).unqueue d.port fun x => x == .drain d.role d.handle
  if d.handle.isNone then s.setCopy d.role (fput copyDrain 0xFFFFFFFF) else s

/-- A port with drains, or the buddy's port, is LOST, QUARANTINED or MISBOUND (R264). -/
def State.drainPortLost (s : State) (p : Fin 24) : State :=
  let ds := s.fr.drains.filter fun d => d.port == p
  let s := forEach ds (fun s d =>
    let s := (s.dropDrain d).log .drain lgDrain [d.role.1, stPortLost.toNat]
    match d.handle with
    | some c => s.final c stPortLost (partPort p)
    | none => s) s
  let s := match s.fr.pairing with
    | some x => if x.port = p then
        (s.modFr fun y => { y with pairing := none, buddy := buddyNone }).final x.handle stPortLost (partPort p) else s
    | none => s
  let st := fget buddyState s.fr.buddy
  if fget buddyPort s.fr.buddy = p.1 ∧ (st = 1 ∨ st = 2) then
    (s.modFr fun x => { x with buddy := fput buddyState 3 x.buddy }).emit (.report rpBuddyLost [p.1])
  else s

/-- The buddy has found a mismatch: the version is drained once more (R264). -/
def State.drainMismatch (s : State) (r : Fin 4) (v : Word) : State :=
  let s := (s.modFr fun x => { x with copies := vmod x.copies r fun c => c.filter fun y => y.2 != v }).syncCopy r
  if vget s.fr.redone r = some v ∨ s.wvt.committed r ≠ v then s
  else
    let (s, l) := s.readRole r v
    s.drainTo r v true l

/-- CHECKPOINT_DRAIN (Table 15-11): to host memory, or device memory, in the order of R263, at once; or to a position, as a drain. The digest is
the sum of the digests of the ranges sent (log entry 40). -/
def doCheckpointDrain (h : Quad) (s : State) : State :=
  s.start h 0x34 fun c s =>
    let mask := c.arg 8 1
    let roles := (allFin 4).filter fun r => nbit mask r.1
    if mask = 0 ∨ 16 ≤ mask ∨ 1 < c.arg 9 1 ∨ roles.any fun r => !s.roleUsed r then s.bad h dtArgument
    else
      let record := s.idRecord.bytes
      if c.arg 9 1 = 1 then
        match port? (c.arg 16 1) with
        | none => s.bad h dtArgument
        | some p =>
          if s.seen p ≠ BitVec.ofNat 32 (c.arg 12 4) then s.bad h dtArgument
          else if !s.carries p then s.final h stPortLost (partPort p)
          else forEach roles (fun s r =>
            let v := s.wvt.committed r
            let (s, l) := s.readRole r v
            s.beginDrain r v p 0 false (some h) record l) s
      else
        let (s, bs, sum) := roles.foldl (fun (a : State × List Byte × Nat) r =>
          let (s, l) := a.1.readRole r (a.1.wvt.committed r)
          (s, a.2.1 ++ record ++ l.flatMap (·.data), a.2.2 + digest 5 0 record + (l.map (·.digest)).sum)) (s, [], 0)
        let (s, w) := s.sink (c.arg 24 8) bs
        match w with
        | some x => s.final h x.1 x.2
        | none =>
          let v := (roles.getLast?.map s.wvt.committed).getD 0
          s.finalOk h [] { result := natLe 4 v.toNat ++ natLe 8 (sum % 2 ^ 64) }

/-! ## The buddy's copy slots (R263; log entry 38) -/

/-- The start and the length of a copy slot within the area. -/
def State.slotArea (s : State) (k : Nat) : Nat × Nat :=
  let n := s.fr.holdBytes / max 1 (fget holdSlots s.fr.hold)
  (s.fr.holdArea + k * n, n)

/-- The lowest place in a copy slot where a range fits. -/
def State.placeIn (s : State) (k n : Nat) : Option Nat :=
  let (base, size) := s.slotArea k
  let used := ((s.fr.slots.filter fun x => x.slot == k).flatMap (·.ranges)).map fun r => (r.start, r.len)
  let fits := fun (a : Nat) => a + n ≤ base + size && used.all fun u => a + n ≤ u.1 || u.1 + u.2 ≤ a
  let places := (base :: used.map fun u => roundUp 64 (u.1 + u.2)).filter fits
  places.foldl (fun (m : Option Nat) a => some (min (m.getD a) a)) none

def State.copySlot? (s : State) (k r : Nat) : Option CopySlot := s.fr.slots.find? fun x => x.slot == k && x.role == r

def State.setCopySlot (s : State) (x : CopySlot) : State :=
  s.modFr fun f => { f with slots := x :: f.slots.filter fun y => !(y.slot == x.slot && y.role == x.role) }

/-- HOLDING, or COMPLETE while a copy is complete. -/
def State.syncHold (s : State) : State :=
  s.modFr fun x => { x with hold := fput holdState (if x.slots.any (·.full) then 2 else 1) x.hold }

/-- Put bytes of a range into the copy. -/
def State.copyBytes (s : State) (x : CopySlot) (r : CopyRange) (bs : List Byte) : State :=
  let (s, w) := s.writeDev .hub (r.start + r.got) (bs.map some)
  let r' := { r with got := r.got + bs.length
                     digest := (r.digest + digestFrom (if r.cls = 1 then 5 else r.kind) r.entry (r.got / 8) bs) % 2 ^ 64 }
  let bad := x.bad || w.isSome || r.got % 8 != 0 || decide (r.len < r'.got)
  s.setCopySlot { x with
    ranges := x.ranges.filter (fun y => !(y.cls == r.cls && y.kind == r.kind && y.id == r.id)) ++ [r']
    bytes := x.bytes + bs.length, bad := bad }

/-- The entry of a role that has a tensor identifier, in a record. -/
def IdRecord.find (x : IdRecord) (role : Nat) (id : Word) : Option (Nat × WvtEntry) :=
  match x.roles[role]? with
  | none => none
  | some r => x.entries.find? fun e => e.2.tensorId == id && decide (fget rangeFirst r.range ≤ e.1) &&
      decide (e.1 < fget rangeFirst r.range + fget rangeCount r.range)

/-- A COPY_DATA segment of the identity record; its first opens the copy anew. -/
def State.copyRecord (s : State) (k role : Nat) (v : Word) (off : Nat) (bs : List Byte) : State :=
  if off = 0 then
    let s := s.modFr fun x => { x with slots := x.slots.filter fun y => !(y.slot == k && y.role == role) }
    let x : CopySlot := ⟨k, role, v, bs, [], 0, false, false⟩
    let n := leAt bs 0 4
    match s.placeIn k n with
    | none => (s.setCopySlot { x with bad := true, bytes := bs.length }).syncHold
    | some a => (s.copyBytes x ⟨1, 0, 0, 0, a, n, 0, 0⟩ bs).syncHold
  else match s.copySlot? k role with
    | none => s
    | some x => match x.ranges.find? fun r => r.cls == 1 with
      | some r => if r.got = off ∧ x.version = v then s.copyBytes { x with record := x.record ++ bs } r bs
          else s.setCopySlot { x with bad := true }
      | none => s.setCopySlot { x with bad := true, bytes := x.bytes + bs.length }

/-- A COPY_DATA segment of a buffer. -/
def State.copyBuffer (s : State) (k role kind : Nat) (id v : Word) (off : Nat) (bs : List Byte) : State :=
  match s.copySlot? k role with
  | none => s
  | some x =>
    let worse := s.setCopySlot { x with bad := true, bytes := x.bytes + bs.length }
    if x.version ≠ v ∨ x.full then worse
    else match x.ranges.find? fun r => r.cls == 2 && r.kind == kind && r.id == id with
    | some r => if r.got = off then s.copyBytes x r bs else worse
    | none => match (parseIdRecord x.record).bind fun y => y.find role id with
      | none => worse
      | some (i, e) =>
        if off ≠ 0 then worse
        else match s.placeIn k e.bufBytes with
        | none => worse
        | some a => s.copyBytes x ⟨2, kind, id, i, a, e.bufBytes, 0, 0⟩ bs

/-- COPY_DATA (R263, R272). -/
def doCopyData (p : Fin 24) (s : State) : State :=
  match s.takeMsg p kCopyData with
  | none => s
  | some (m, s) =>
    let b := m.payload
    let cls := byteAt b 0
    let role := byteAt b 1
    let kind := byteAt b 2
    let k := byteAt b 3
    let v := bytesWord b 8
    let bs := b.drop 32
    let fields := (cls == 1 && kind == 0) || (cls == 2 && decide (1 ≤ kind) && decide (kind ≤ 3))
    if b.length < 32 ∨ !allZero (slice b 24 8) ∨ leAt b 20 4 ≠ bs.length ∨ !fields ∨ 4 ≤ role ∨
        max 1 (fget holdSlots s.fr.hold) ≤ k then s.fillBad p
    else if !s.holdsFor p then s.fillFail p stNotPermitted cls role (bytesWord b 4) v
    else if cls = 1 then s.copyRecord k role v (leAt b 12 8) bs
    else s.copyBuffer k role kind (bytesWord b 4) v (leAt b 12 8) bs

/-- The entries of a copy's role: those of the record, in ascending order. -/
def CopySlot.entries (x : CopySlot) : List Nat :=
  match parseIdRecord x.record with
  | none => []
  | some y => match y.roles[x.role]? with
    | none => []
    | some r => (y.entries.map (·.1)).filter fun i =>
        decide (fget rangeFirst r.range ≤ i) && decide (i < fget rangeFirst r.range + fget rangeCount r.range)

/-- The digest table formed on receipt. -/
def CopySlot.table (x : CopySlot) : List (Nat × Nat × Nat) :=
  x.entries.map fun i =>
    let d := fun (k : Nat) => ((x.ranges.find? fun r => r.cls == 2 && r.entry == i && r.kind == k).map (·.digest)).getD 0
    (d 1, d 2, d 3)

/-- Whether a COPY_DONE agrees with what has been received. -/
def CopySlot.agrees (x : CopySlot) (b : List Byte) : Bool :=
  let n := leAt b 2 2
  !x.bad && x.version == bytesWord b 4 && leAt b 8 8 == digest 5 0 x.record && leAt b 16 8 == x.bytes &&
  x.ranges.all (fun r => r.got == r.len) && n == x.entries.length && parseTable n (b.drop 32) == x.table

/-- A whole COPY_DONE has come. -/
def State.copyDone (s : State) (p : Fin 24) (b : List Byte) : State :=
  if b.length ≠ 32 + 24 * leAt b 2 2 ∨ !allZero (slice b 24 8) then s.fillBad p
  else match s.copySlot? (byteAt b 1) (byteAt b 0) with
  | some x =>
    if x.agrees b then (s.setCopySlot { x with full := true }).syncHold
    else
      let s := (s.setCopySlot { x with full := false, bad := true }).syncHold
      let s := (s.modFr fun f => { f with hold := fflag holdMismatch true f.hold }).emit (.report rpPoisoned [p.1])
      s.fillFail p stPoisoned 2 (byteAt b 0) 0 (bytesWord b 4)
  | none =>
    let s := (s.modFr fun f => { f with hold := fflag holdMismatch true f.hold }).emit (.report rpPoisoned [p.1])
    s.fillFail p stPoisoned 2 (byteAt b 0) 0 (bytesWord b 4)

/-- COPY_DONE, in one or more segments (R272). -/
def doCopyDone (p : Fin 24) (s : State) : State :=
  match s.takeMsg p kCopyDone with
  | none => s
  | some (m, s) =>
    if !s.holdsFor p then s.fillFail p stNotPermitted 0 (byteAt m.payload 0) 0 (bytesWord m.payload 4)
    else
      let all := if m.hdr.offset = 0 then m.payload
        else if m.hdr.offset = s.fr.copyBuf.length then s.fr.copyBuf ++ m.payload else []
      if m.hdr.flags.getLsbD hfLast then (s.modFr fun x => { x with copyBuf := [] }).copyDone p all
      else s.modFr fun x => { x with copyBuf := all }

/-! ## A source of fills (R271, R272) -/

/-- The fields of a FILL_REQ (Table 14-12). -/
def fqCls (b : List Byte) : Nat := byteAt b 0
def fqRole (b : List Byte) : Nat := byteAt b 1
def fqKind (b : List Byte) : Nat := byteAt b 2
def fqId (b : List Byte) : Word := bytesWord b 4
def fqVersion (b : List Byte) : Word := bytesWord b 8
def fqOffset (b : List Byte) : Nat := leAt b 12 8
def fqBytes (b : List Byte) : Nat := leAt b 20 8

def fillRecord : Nat := 1
def fillBuffer : Nat := 2
def fillGrid : Nat := 3
def fillResult : Nat := 4
def fillTable : Nat := 5

/-- The range that a request names, as (version, whole length, a read of part of it), or the status of FILL_FAIL. -/
def State.copySource (s : State) (b : List Byte) : Option (Word × Nat × (State → Nat → Nat → State × Rd)) :=
  let want := fqVersion b
  let fits := fun (x : CopySlot) => x.full && (want == noPos || x.version == want)
  let mine := s.fr.slots.filter fun x => fits x && x.role == fqRole b
  match mine.head?.or (if fqCls b = fillRecord then (s.fr.slots.filter fits).head? else none) with
  | none => none
  | some x =>
    let plain := fun (l : List Byte) => some (x.version, l.length, fun (s : State) o n => (s, (⟨(slice l o n).map some, none⟩ : Rd)))
    if fqCls b = fillRecord then plain x.record
    else if fqCls b = fillTable then plain (tableBytes x.table)
    else if fqCls b = fillBuffer then
      (x.ranges.find? fun r => r.cls == 2 && r.kind == fqKind b && r.id == fqId b).map fun r =>
        (x.version, r.len, fun s o n => s.readDev (r.start + o) (min n (r.len - o)))
    else none

/-- A job by its identifier. -/
def State.jobById (s : State) (id : Word) : Option TlyJob := (s.tly.jobs.toList.filterMap fun t => t).find? fun t => t.desc.job == id

/-- Bytes of a job's result area. -/
def TlyJob.dstBytes (t : TlyJob) : Nat := blockBytes t.desc.dfmt * t.nb

/-- The same from this device's own state. -/
def State.ownSource (s : State) (b : List Byte) : Option (Word × Nat × (State → Nat → Nat → State × Rd)) :=
  let want := fqVersion b
  let plain := fun (v : Word) (l : List Byte) => some (v, l.length, fun (s : State) o n => (s, (⟨(slice l o n).map some, none⟩ : Rd)))
  let role := (fin? 4 (fqRole b)).filter fun r => s.roleUsed r
  if fqCls b = fillRecord then
    match (allFin 4).find? fun r => s.roleUsed r && (want == noPos || s.wvt.committed r == want) with
    | some r => plain (s.wvt.committed r) s.idRecord.bytes
    | none => none
  else if fqCls b = fillGrid then
    (s.jobById (fqId b)).map fun t => (want, 2 * t.nb, fun s o n => s.readDev (t.desc.grid + o) (min n (2 * t.nb - o)))
  else if fqCls b = fillResult then
    match s.jobById (fqId b) with
    | none => none
    | some t =>
      match t.last == some want && !t.busy, (allFin 4).find? fun d => t.desc.dies.getLsbD d.1 with
      | true, some d => some (want, t.dstBytes + 32, fun s o n =>
          let (s, x) := if o < t.dstBytes then s.readDev (t.desc.dst + o) (min n (t.dstBytes - o)) else (s, ⟨[], none⟩)
          let o2 := o - t.dstBytes
          let n2 := min (n - x.bytes.length) (32 - o2)
          let (s, y) := if n2 = 0 then (s, ⟨[], none⟩) else s.readRemote d (twinBase + t.desc.record + o2) n2
          (s, ⟨x.bytes ++ y.bytes, x.fail.or y.fail⟩))
      | _, _ => none
  else match role with
  | none => none
  | some r =>
    if fqCls b = fillTable then
      match vget s.fr.digests r with
      | some (v, t) => if want = noPos ∨ v = want then plain v (tableBytes t) else none
      | none => none
    else match (s.wvt.indexed r).find? fun x => x.2.tensorId == fqId b with
      | none => none
      | some (_, e) => match e.bufs.find? fun y => y.live want with
        | none => none
        | some y =>
          if y.addr (fqKind b) = 0 then none
          else some (want, e.bufBytes, fun s o n => s.readDev (y.addr (fqKind b) + o) (min n (e.bufBytes - o)))

/-- Serve a request, or answer FILL_FAIL. Answers whether data goes out. -/
def State.serveFill (s : State) (q : FillJob) : State × Bool :=
  let b := q.req
  let fail := fun (s : State) (st : Half) => (s.fillFail q.port st (fqCls b) (fqRole b) (fqId b) (fqVersion b), false)
  let src := if s.holdsFor q.port then s.copySource b else s.ownSource b
  match src with
  | none => fail s stVersionGone
  | some (v, len, read) =>
    if len < fqOffset b then fail s stBadDescriptor
    else
      let (s, r) := read s (fqOffset b) (min (fqBytes b) (len - fqOffset b))
      if r.fail.isSome || r.bad then fail s stPoisoned
      else (s.sendRange q.port kFillData .serve (segHead (fqCls b) (fqRole b) (fqKind b) 0 (fqId b) v) (fqOffset b) r.data, true)

/-- Take up the queued requests whose group no other fill holds: one fill at a time of one role of this source (R271; log entry
41). -/
def State.serveNext (fuel : Nat) (s : State) : State :=
  match fuel with
  | 0 => s
  | n + 1 =>
    let free := fun (q : FillJob) => !s.fr.fillNow.any fun x => fqRole x.req == fqRole q.req
    match s.fr.fillQueue.find? free with
    | none => s
    | some q =>
      let s := s.modFr fun x => { x with fillQueue := dropFirst (fun y => y == q) x.fillQueue }
      let (s, sent) := s.serveFill q
      let s := if sent then s.modFr fun x => { x with fillNow := x.fillNow ++ [q] } else s
      State.serveNext n s

/-- FILL_REQ. -/
def doFillReq (p : Fin 24) (s : State) : State :=
  match s.takeMsg p kFillReq with
  | none => s
  | some (m, s) =>
    let b := m.payload
    let kindOk := if fqCls b = fillBuffer then decide (1 ≤ fqKind b) && decide (fqKind b ≤ 3) else fqKind b == 0
    if b.length ≠ 32 ∨ byteAt b 3 ≠ 0 ∨ !allZero (b.drop 28) ∨ fqCls b = 0 ∨ 5 < fqCls b ∨ 3 < fqRole b ∨ !kindOk then s.fillBad p
    else
      let n := s.fr.fillQueue.length
      (s.modFr fun x => { x with fillQueue := x.fillQueue ++ [⟨p, b⟩] }).serveNext (n + 1)

/-- The last segment of a range has been acknowledged: the source takes the next request. -/
def State.serveAcked (s : State) (p : Fin 24) (m : Header) : State :=
  if m.kind ≠ kFillData ∨ !m.flags.getLsbD hfLast then s
  else
    let s := s.modFr fun x => { x with fillNow := dropFirst (fun q => q.port == p) x.fillNow }
    s.serveNext (s.fr.fillQueue.length + 1)

/-- A requester's port is lost: its requests go (R275). -/
def State.servePortLost (s : State) (p : Fin 24) : State :=
  let s := s.modFr fun x => { x with
    fillNow := x.fillNow.filter fun q => q.port != p
    fillQueue := x.fillQueue.filter fun q => q.port != p
    digestQueue := x.digestQueue.filter fun q => q.port != p }
  s.serveNext (s.fr.fillQueue.length + 1)

/-- DIGEST_REQ: answered once the digest table of every named role is valid (R272). -/
def doDigestReq (p : Fin 24) (s : State) : State :=
  match s.takeMsg p kDigestReq with
  | none => s
  | some (m, s) =>
    let b := m.payload
    if b.length ≠ 32 ∨ 16 ≤ byteAt b 4 ∨ !allZero (b.drop 5) then s.fillBad p
    else (s.modFr fun x => { x with digestQueue := x.digestQueue ++ [⟨p, b⟩] }).answerDigests

/-! ## Votes and decisions with the drains they call for -/

def doVoteHubop (d : Fin 4) (s : State) : State := (s.voteHubop d).startDrains
def doVote (p : Fin 24) (s : State) : State := (s.voteMsg p).startDrains
def doDecision (p : Fin 24) (s : State) : State := (s.decisionMsg p).startDrains

end Sys2Proof.Machine
end

