-- ==== Sys2Proof/Machine/Fill.lean ====
section
/-!
DEFINITION. The filling side of a promotion (spec 14): the phases of Table 14-11 (R270), fills with their sources (R271), verification (R273),
the rejoin with the absences of R274, and the fall-back to the buddy's copy (R276).
-/
namespace Sys2Proof.Machine

def kindBuddy : Nat := 1
def kindReplica : Nat := 2

def State.modPromo (s : State) (f : Promotion → Promotion) : State :=
  s.modFr fun x => { x with promotion := x.promotion.map f }

/-! ## Sources (Table 15-14) -/

/-- The sources of a list of 64 bytes: none for a reserved value. -/
def parseSources (b : List Byte) : Option (List Source) :=
  let one := fun (i : Nat) => slice b (8 * i) 8
  let ok := (List.range 8).all fun i => byteAt (one i) 5 ≤ 2 && allZero (slice (one i) 6 2)
  if !ok then none
  else some ((List.range 8).filterMap fun i =>
    if byteAt (one i) 5 = 0 then none
    else (port? (byteAt (one i) 4)).map fun p => ⟨bytesWord (one i) 0, p, byteAt (one i) 5⟩)

/-- Whether a source in use names a port that does not exist. -/
def sourcesOdd (b : List Byte) : Bool :=
  (List.range 8).any fun i => byteAt b (8 * i + 5) != 0 && decide (24 ≤ byteAt b (8 * i + 4))

def Promotion.source (p : Promotion) : Option Source := p.sources[p.current]?

/-- Whether the source in use is reached over a port. -/
def Promotion.onPort (p : Promotion) (q : Fin 24) : Bool := match p.source with
  | some x => x.port == q
  | none => false

def Promotion.sourcePos (p : Promotion) : Word := match p.source with
  | some x => x.pos
  | none => 0

/-- Whether a source's port carries and reaches it. -/
def State.sourceUp (s : State) (x : Source) : Bool := s.carries x.port && s.seen x.port == x.pos

/-- The first source from an index on that carries and satisfies a predicate. -/
def State.sourceFrom (s : State) (p : Promotion) (n : Nat) (ok : Nat → Source → Bool) : Option Nat :=
  (List.range p.sources.length).find? fun i => decide (n ≤ i) && match p.sources[i]? with
    | some x => s.sourceUp x && ok i x
    | none => false

/-! ## Progress and ends -/

/-- The RESULT bytes of a progress record (R270, R290). -/
def Promotion.result (p : Promotion) : List Byte :=
  natLe 1 p.phase ++ natLe 4 p.sourcePos.toNat ++ natLe 7 (p.bytes / 65536)

/-- The status of a progress record: QUEUED while the source in use has sent nothing since it was asked (R275; log entry 41). -/
def Promotion.status (p : Promotion) : Half := if p.wait != .idle && !p.heard then stQueued else stAccepted

def State.promoProgress (s : State) : State :=
  match s.fr.promotion with
  | none => s
  | some p => s.progress p.handle stAccepted p.failure p.result

def State.setPhase (s : State) (n : Nat) : State := (s.modPromo fun p => { p with phase := n }).promoProgress

def lgPromotion : Nat := 13

/-- The promotion ends without the rejoin: the identity is what it was. -/
def State.promoEnd (s : State) (st detail : Half) (result : List Byte := []) : State :=
  match s.fr.promotion with
  | none => s
  | some p =>
    let s := s.log .promotion lgPromotion [p.phase, st.toNat, detail.toNat]
    let s := (s.modJob fun j => { j with identity := p.former }).modFr fun x => { x with promotion := none }
    s.final p.handle st detail { result := result }

/-- No source is left for anything (R276): SOURCE_LOST with the version restored, 0xFFFF_FFFF for none. -/
def State.promoLost (s : State) : State :=
  match s.fr.promotion with
  | none => s
  | some p => s.promoEnd stSourceLost (BitVec.ofNat 16 p.current) (List.replicate 8 0 ++ natLe 4 0xFFFFFFFF)

/-! ## Requests -/

/-- Ask a source, and wait for it. -/
def State.ask (s : State) (i : Nat) (w : FillWait) (kind : Nat) (b : List Byte) : State :=
  let s := s.modPromo fun p => { p with current := i, wait := w, heard := false, since := s.aon }
  match s.fr.promotion.bind (·.source) with
  | some x => s.sendFill x.port kind .fill b
  | none => s

def fillReqBytes (cls role kind : Nat) (id version : Word) (off n : Nat) : List Byte :=
  natLe 1 cls ++ natLe 1 role ++ natLe 1 kind ++ [0] ++ natLe 4 id.toNat ++ natLe 4 version.toNat ++ natLe 8 off ++ natLe 8 n ++
  [0, 0, 0, 0]

/-- More bytes than any record or table has. -/
def fillAll : Nat := 2 ^ 40

/-- The version that a fill wants: that of the command, or the one located; the newest for a copy. -/
def Promotion.want (p : Promotion) : Word :=
  if p.version ≠ noPos then p.version
  else if p.fromCopy then noPos
  else ((p.located.head?).map (·.committed)).getD noPos

/-- Ask for DIGEST_DATA from the first REPLICA from an index on that carries. Without one, the buddy's newest complete copy takes its
place (R270, R276). -/
def State.askDigests (s : State) (p : Promotion) (n : Nat) : State :=
  match s.sourceFrom p n fun _ x => x.kind == kindReplica with
  | some i =>
    let s := s.modPromo fun p => { p with inbuf := [], located := [] }
    s.ask i .digests kDigestReq (natLe 4 s.job.identity.toNat ++ natLe 1 15 ++ List.replicate 27 0)
  | none =>
    if p.sources.any fun x => x.kind == kindBuddy && s.sourceUp x then
      s.modPromo fun p => { p with fromCopy := true, located := [], wait := .idle, current := 0 }
    else s.promoLost

/-- The order in which sources are asked for the identity record: buddies, then replicas; a copy's record only of a buddy. -/
def Promotion.recordOrder (p : Promotion) : List Nat :=
  let of := fun (k : Nat) => (List.range p.sources.length).filter fun i => match p.sources[i]? with
    | some x => x.kind == k
    | none => false
  of kindBuddy ++ (if p.fromCopy then [] else of kindReplica)

/-- Go over to the buddy's newest complete copy: everything is filled from it (R276). -/
def State.toCopy (s : State) (p : Promotion) : State :=
  if p.fromCopy then s.promoLost
  else if p.sources.any fun x => x.kind == kindBuddy && s.sourceUp x then
    s.modPromo fun p => { p with
      fromCopy := true, verified := false, located := [], record := [], todo := [], filled := [], offset := 0, phase := 2, wait := .idle }
  else s.promoLost

/-- Ask for the identity record of the first source of the order after one; none left is R276. -/
def State.askRecord (s : State) (p : Promotion) (after : Option Nat) : State :=
  let l := p.recordOrder
  let rest := match after with
    | none => l
    | some i => (l.dropWhile fun x => x != i).drop 1
  match rest.find? fun i => ((p.sources[i]?).map s.sourceUp).getD false with
  | some i =>
    let role := ((p.located.head?).map (·.role)).getD 0
    let s := s.modPromo fun p => { p with record := [], inbuf := [] }
    s.ask i .record kFillReq (fillReqBytes fillRecord role 0 0 p.want 0 fillAll)
  | none => s.toCopy p

/-- The role slot by which a source knows a range: the lost device's own for its buddy's copy, the slot of the stage for a replica. -/
def Promotion.roleAt (p : Promotion) (x : Source) (f : FillRange) : Nat :=
  if x.kind = kindBuddy then f.role.1
  else ((p.located.find? fun l => l.stage == f.stage).map (·.role)).getD f.role.1

/-- Ask for the rest of the first range from its next source (R271). -/
def State.askRange (s : State) (p : Promotion) : State :=
  match p.todo with
  | [] => s.modPromo fun p => { p with wait := .idle }
  | f :: _ =>
    let ok := fun (i : Nat) (x : Source) => !f.tried.contains i &&
      (if f.cls = fillBuffer then !p.fromCopy || x.kind == kindBuddy else x.kind == kindReplica)
    match s.sourceFrom p 0 ok with
    | some i => match p.sources[i]? with
      | some x => s.ask i .range kFillReq
          (fillReqBytes f.cls (p.roleAt x f) f.kind f.id f.version p.offset (f.bytes - p.offset))
      | none => s
    | none => if p.verified then s else if p.phase = 5 then s.promoEnd stPoisoned 0 else s.toCopy p

/-- Ask the buddy for the digest table of the next role of a copy's record that is not located. -/
def State.askTable (s : State) (p : Promotion) (x : IdRecord) (after : Option Nat) : State :=
  let roles := (List.range 4).filter fun r => match x.roles[r]? with
    | some y => fon roleValid y.role && !p.located.any fun l => l.role == r
    | none => false
  match roles.head? with
  | none => s.modPromo fun p => { p with wait := .idle }
  | some r =>
    match s.sourceFrom p ((after.map (· + 1)).getD 0) fun _ y => y.kind == kindBuddy with
    | some i => (s.modPromo fun p => { p with inbuf := [] }).ask i .tables kFillReq (fillReqBytes fillTable r 0 0 p.want 0 fillAll)
    | none => s.promoLost

/-- A source has failed: the next one is asked, from the offset reached (R271, R275). -/
def State.sourceFailed (s : State) : State :=
  let s := (s.modPromo fun p => { p with failure := stSourceLost }).promoProgress
  match s.fr.promotion with
  | none => s
  | some p =>
    match p.wait with
    | .idle => s
    | .digests => s.askDigests p (p.current + 1)
    | .record => s.askRecord p (some p.current)
    | .tables => match parseIdRecord p.record with
      | some x => s.askTable p x (some p.current)
      | none => s.promoLost
    | .range =>
      let s := s.modPromo fun p => { p with todo := match p.todo with
        | f :: l => { f with tried := f.tried ++ [p.current] } :: l
        | [] => [] }
      match s.fr.promotion with
      | some p => s.askRange p
      | none => s

/-- The source in use has a port that no longer carries. -/
def State.fillPortLost (s : State) (p : Fin 24) : State :=
  match s.fr.promotion with
  | none => s
  | some x => if x.wait != .idle && x.onPort p then s.sourceFailed else s

/-- FILL_LIMIT_EXPIRY. -/
def doFillLimitExpiry (s : State) : State :=
  match s.fr.promotion with
  | none => s
  | some p =>
    if p.wait == .idle || decide (s.aon < p.since + frTicks s.fr.cfg frCfgFillLimit (2 ^ 14)) then s else s.sourceFailed

/-! ## Replies -/

/-- A reply from the source in use, in what the promotion waits for. -/
def State.fillFrom (s : State) (p : Fin 24) (w : FillWait) : Option Promotion :=
  s.fr.promotion.filter fun x => x.wait == w && x.onPort p

/-- FILL_FAIL: from the buddy it answers a drain, from a source a request. -/
def doFillFail (p : Fin 24) (s : State) : State :=
  match s.takeMsg p kFillFail with
  | none => s
  | some (m, s) =>
    let b := m.payload
    if b.length ≠ 32 ∨ !allZero (b.drop 12) then s.fillBad p
    else
      let mine : Bool := match s.fr.promotion with
        | some x => x.wait != .idle && x.onPort p
        | none => false
      if mine then s.sourceFailed
      else if fget buddyPort s.fr.buddy = p.1 ∧ bytesHalf b 0 = stPoisoned then match fin? 4 (byteAt b 3) with
        | some r => s.drainMismatch r (bytesWord b 8)
        | none => s
      else s.log .drain lgDrain [p.1, leAt b 0 2]

/-- The sections of a whole DIGEST_DATA payload. -/
def parseSections : Nat → List Byte → Option (List Located)
  | 0, b => if b.isEmpty then some [] else none
  | n + 1, b =>
    let k := leAt b 16 2
    if b.length < 32 + 24 * k ∨ !allZero (slice b 18 14) ∨ 4 ≤ byteAt b 0 then none
    else (parseSections n (b.drop (32 + 24 * k))).map fun l =>
      ⟨byteAt b 0, byteAt b 1, bytesHalf b 2, bytesWord b 4, bytesWord b 8, bytesWord b 12, parseTable k (b.drop 32)⟩ :: l

def parseDigestData (b : List Byte) : Option (List Located) :=
  if b.length < 16 ∨ 4 < byteAt b 0 ∨ !allZero (slice b 1 15) then none else parseSections (byteAt b 0) (b.drop 16)

/-- Segments put together: none where one is missing. -/
def joined (buf : List Byte) (m : Msg) : Option (List Byte) :=
  if m.hdr.offset = buf.length then some (buf ++ m.payload) else none

/-- DIGEST_DATA (R270 phase 2). When FILL names another version than the replica has committed, the copy's digests are used. -/
def doDigestData (p : Fin 24) (s : State) : State :=
  match s.takeMsg p kDigestData with
  | none => s
  | some (m, s) => match s.fillFrom p .digests with
    | none => s
    | some x => match joined x.inbuf m with
      | none => s.sourceFailed
      | some all =>
        let s := s.modPromo fun x => { x with inbuf := all, heard := true, since := s.aon }
        if !m.hdr.flags.getLsbD hfLast then s
        else match parseDigestData all with
        | none => (s.fillBad p).sourceFailed
        | some l =>
          let other := x.version != noPos && l.any fun y => y.committed != x.version
          if l.isEmpty then s.sourceFailed
          else s.modPromo fun x => { x with
            located := if other then [] else l, fromCopy := other, wait := .idle, inbuf := [] }

/-- The record as the position's: a replica's identity and ranks are replaced, and groups that the position is no member of are left out
(R270). -/
def IdRecord.forPosition (x : IdRecord) (pos : Word) (replica : Bool) : IdRecord :=
  if !replica then x
  else { x with
    position := pos
    groups := x.groups.filterMap fun g => (g.2.members.findIdx? fun m => m.pos == pos).map fun i => (g.1, { g.2 with rank := i }) }

/-- A range of a fill is complete: the next is asked for. -/
def State.rangeDone (s : State) : State :=
  let s := s.modPromo fun p => match p.todo with
    | f :: l => { p with todo := l, filled := p.filled ++ [{ f with tried := f.tried ++ [p.current] }], offset := 0 }
    | [] => p
  match s.fr.promotion with
  | some p => s.askRange p
  | none => s

/-- Write a segment of a step's result and record: the result area, then the record on the job's dies. -/
def State.fillResultBytes (s : State) (id : Word) (x : IdRecord) (off : Nat) (bs : List Byte) : State × Option (Half × Half) :=
  match x.jobs.find? fun j => (parseJob j.raw).job == id with
  | none => (s, none)
  | some j =>
    let t : TlyJob := ⟨j.unit, j.raw, parseJob j.raw, j.table, none, none, none, []⟩
    let n := t.dstBytes
    let a := bs.take (n - off)
    let r := bs.drop (n - off)
    let (s, w) := if a.isEmpty then (s, none) else s.writeDev .hub (t.desc.dst + off) (a.map some)
    (allFin 4).foldl (fun (y : State × Option (Half × Half)) d =>
      if r.isEmpty || !t.desc.dies.getLsbD d.1 then y
      else
        let (s, e) := y.1.writeTwin d (t.desc.record + (off - n)) r
        (s, y.2.or e)) (s, w)

/-- A segment of a range is written and digested (R271). -/
def State.fillRangeBytes (s : State) (x : Promotion) (f : FillRange) (off : Nat) (bs : List Byte) : State :=
  let (s, w) := if f.cls = fillResult then match parseIdRecord x.record with
      | some r => s.fillResultBytes f.id r off bs
      | none => (s, none)
    else s.writeDev .hub (f.addr + off) (bs.map some)
  match w with
  | some e => s.promoEnd e.1 e.2
  | none =>
    let d := (f.digest + digestFrom (if f.cls = fillBuffer then f.kind else 4) f.entry (off / 8) bs) % 2 ^ 64
    let s := s.modPromo fun p => { p with
      todo := { f with digest := d } :: p.todo.drop 1
      offset := off + bs.length, bytes := p.bytes + bs.length, heard := true, since := s.aon }
    if off + bs.length < f.bytes then s else s.rangeDone

/-- FILL_DATA. -/
def doFillData (p : Fin 24) (s : State) : State :=
  match s.takeMsg p kFillData with
  | none => s
  | some (m, s) =>
    let b := m.payload
    let bs := b.drop 32
    let last := m.hdr.flags.getLsbD hfLast
    let off := leAt b 12 8
    if b.length < 32 ∨ !allZero (slice b 24 8) ∨ byteAt b 3 ≠ 0 ∨ leAt b 20 4 ≠ bs.length then s.fillBad p
    else match s.fr.promotion with
    | none => s
    | some x =>
      if !x.onPort p then s
      else match x.wait with
      | .record =>
        if fqCls b ≠ fillRecord ∨ off ≠ x.record.length then s
        else
          let all := x.record ++ bs
          let s := s.modPromo fun y => { y with record := all, heard := true, since := s.aon, bytes := y.bytes + bs.length }
          if !last then s
          else match parseIdRecord all with
          | none => s.sourceFailed
          | some r =>
            let replica := match x.source with
              | some y => y.kind == kindReplica
              | none => false
            s.modPromo fun y => { y with record := (r.forPosition x.position replica).bytes, wait := .idle }
      | .tables =>
        if fqCls b ≠ fillTable ∨ off ≠ x.inbuf.length then s
        else
          let all := x.inbuf ++ bs
          let s := s.modPromo fun y => { y with inbuf := all, heard := true, since := s.aon }
          if !last then s
          else
            let v := fqVersion b
            let l : Located := ⟨fqRole b, 0, noStage, v, v, noPos, parseTable (all.length / 24) all⟩
            let s := s.modPromo fun y => { y with located := y.located ++ [l], inbuf := [] }
            match s.fr.promotion, parseIdRecord x.record with
            | some y, some r => s.askTable y r none
            | _, _ => s
      | .range => match x.todo with
        | [] => s
        | f :: _ =>
          if fqCls b ≠ f.cls ∨ fqKind b ≠ f.kind ∨ fqId b ≠ f.id ∨ off ≠ x.offset then s
          else if f.bytes < off + bs.length ∨ (bs.isEmpty ∧ off < f.bytes) then s.sourceFailed
          else s.fillRangeBytes x f off bs
      | _ => s

/-! ## Phases -/

/-- PROMOTE_LOCATE: once the named ports have trained (R270 phase 2). -/
def doPromoteLocate (s : State) : State :=
  match s.fr.promotion with
  | none => s
  | some p =>
    let training := p.sources.any fun x => s.portState x.port == 1 || s.portState x.port == 4
    let none_ := !(p.sources.any fun x => s.sourceUp x)
    if p.phase ≠ 1 ∨ (training ∧ none_) then s
    else
      let s := s.setPhase 2
      match s.fr.promotion with
      | some p => s.askDigests p 0
      | none => s

/-- PROMOTE_RECORD (R270 phase 3). -/
def doPromoteRecord (s : State) : State :=
  match s.fr.promotion with
  | none => s
  | some p =>
    if p.phase ≠ 2 ∨ p.wait ≠ .idle then s
    else
      let s := s.setPhase 3
      match s.fr.promotion with
      | some p => s.askRecord p none
      | none => s

/-- The dies that a record names. -/
def IdRecord.dies (x : IdRecord) : List (Fin 4) :=
  (allFin 4).filter fun d =>
    (x.roles.any fun r => fon roleValid r.role && nbit (fget rcfgDies r.cfg) d.1) ||
    x.jobs.any fun j => (parseJob j.raw).dies.getLsbD d.1

/-- The buffers of a role in a record that a fill writes: entry index, identifier, kind, address, bytes. -/
def IdRecord.buffers (x : IdRecord) (r : IdRole) : List (Nat × Word × Nat × Nat × Nat) :=
  (x.entries.filter fun e => decide (fget rangeFirst r.range ≤ e.1) && decide (e.1 < fget rangeFirst r.range + fget rangeCount r.range)).flatMap
    fun e => match e.2.bufs.find? fun b => b.st == .committed with
      | some b => ([1, 2, 3].filter fun k => b.addr k != 0).map fun k => (e.1, e.2.tensorId, k, b.addr k, e.2.bufBytes)
      | none => []

/-- The first part that a record names and this device lacks: a die that does not serve, or a stack that does not serve a buffer. -/
def State.recordLacks (s : State) (x : IdRecord) : Option (Half × Half) :=
  let die := (x.dies.find? fun d => !s.dieServes d).map fun d => (stDieLost, partDie d)
  let bufs := x.roles.flatMap fun r => if fon roleValid r.role then x.buffers r else []
  let mem := firstSome bufs fun b => firstSome (granules (b.2.2.2.2 + 1) b.2.2.2.1 b.2.2.2.2) fun g => s.devStatus g.1
  die.or mem

/-- The ranges that phase 4 fills, in order (R270): buffers, grid tables, the result of a reduced step. Grid tables and results come only from a
replica; a copy has none (log entry 42). -/
def Promotion.ranges (p : Promotion) (x : IdRecord) : List FillRange :=
  let roles := (allFin 4).filterMap fun r => match x.roles[r.1]? with
    | some y => if fon roleValid y.role then some (r, y) else none
    | none => none
  let at_ := fun (r : Fin 4) (stage : Half) => p.located.find? fun l => if p.fromCopy then l.role == r.1 else l.stage == stage
  let bufs := roles.flatMap fun (r, y) =>
    let stage := BitVec.ofNat 16 (fget roleStage y.role)
    let v := ((at_ r stage).map (·.committed)).getD p.want
    (x.buffers y).map fun b => (⟨fillBuffer, r, stage, b.2.2.1, b.2.1, v, b.1, b.2.2.2.2, b.2.2.2.1, 0, []⟩ : FillRange)
  let jobs := if p.fromCopy then [] else x.jobs.filterMap fun j =>
    let d := parseJob j.raw
    let g := (x.groups.find? fun g => g.1 == d.slot).map (·.2)
    match g.bind fun e => fin? 4 e.role with
    | none => none
    | some r => (x.roles[r.1]?).map fun y => (r, BitVec.ofNat 16 (fget roleStage y.role), d,
        (⟨j.unit, j.raw, d, j.table, none, none, none, []⟩ : TlyJob))
  let grids := jobs.map fun (r, stage, d, t) => (⟨fillGrid, r, stage, 0, d.job, 0, 0, 2 * t.nb, d.grid, 0, []⟩ : FillRange)
  let results := jobs.filterMap fun (r, stage, d, t) => match at_ r stage with
    | some l => if l.reduced = noPos then none
        else some (⟨fillResult, r, stage, 0, d.job, l.reduced, 0, t.dstBytes + 32, d.dst, 0, []⟩ : FillRange)
    | none => none
  bufs ++ grids ++ results

/-- PROMOTE_FILL (R270 phase 4): a device that lacks a die or stack of the record ends here (R275). A copy's digest tables are asked for
first. -/
def doPromoteFill (s : State) : State :=
  match s.fr.promotion with
  | none => s
  | some p => match parseIdRecord p.record with
    | none => s
    | some x =>
      if p.wait ≠ .idle ∨ (p.phase ≠ 3 ∧ p.phase ≠ 4) ∨ !p.filled.isEmpty ∨ !p.todo.isEmpty then s
      else match s.recordLacks x with
      | some (st, part) => s.promoEnd st part
      | none =>
        let lacksTable := p.fromCopy && (List.range 4).any fun r => match x.roles[r]? with
          | some y => fon roleValid y.role && !p.located.any fun l => l.role == r
          | none => false
        let s := if p.phase = 3 then s.setPhase 4 else s
        if lacksTable then s.askTable p x none
        else
          let s := s.modPromo fun p => { p with todo := p.ranges x, offset := 0 }
          match s.fr.promotion with
          | some p => s.askRange p
          | none => s

/-- Whether the digest of a filled buffer matches the table that phase 2 obtained. -/
def Promotion.matches_ (p : Promotion) (x : IdRecord) (f : FillRange) : Bool :=
  if f.cls ≠ fillBuffer then true
  else
    let l := p.located.find? fun l => if p.fromCopy then l.role == f.role.1 else l.stage == f.stage
    let i := match x.roles[f.role.1]? with
      | some r => f.entry - fget rangeFirst r.range
      | none => 0
    (l.bind fun l => tableGet l.table i f.kind) == some f.digest

/-- PROMOTE_VERIFY (R273): what does not match is filled again from its next source. -/
def doPromoteVerify (s : State) : State :=
  match s.fr.promotion with
  | none => s
  | some p => match parseIdRecord p.record with
    | none => s
    | some x =>
      if p.wait ≠ .idle ∨ !p.todo.isEmpty ∨ p.verified ∨ !(p.phase = 5 ∨ (p.phase = 4 ∧ p.filled.length = (p.ranges x).length)) then s
      else
        let s := if p.phase = 4 then s.setPhase 5 else s
        let (good, bad) := p.filled.partition fun f => p.matches_ x f
        if bad.isEmpty then s.modPromo fun p => { p with verified := true }
        else
          let s := s.modPromo fun p => { p with
            filled := good, todo := bad.map fun f => { f with digest := 0 }, offset := 0 }
          match s.fr.promotion with
          | some p => s.askRange p
          | none => s

/-! ## The rejoin (R270 phase 6, R274) -/

/-- Install one role of a record, its epoch raised by one. -/
def State.rejoinRole (s : State) (r : Fin 4) (y : IdRole) (step : Word) : State :=
  if !fon roleValid y.role then s
  else
    let e := (fget roleRoleEpoch y.role + 1) % 2 ^ 32
    let k : RoleBlock := ⟨y.up, y.down, y.cfg, y.fpay, y.bpay, y.range, fput roleRoleEpoch e y.role, step⟩
    (s.installRole r k).modMq r fun q => { q with stepStat := fput stepStep step.toNat q.stepStat }

/-- Install the groups of a record, their membership epochs raised by one. -/
def State.rejoinGroups (s : State) (gs : List (Nat × GroupEntry)) : State :=
  let s := forEach gs (fun s g => match fin? 64 g.1 with
    | some i =>
      let e := { g.2 with memb := g.2.memb + 1 }
      (s.modJob fun j => { j with groups := vset j.groups i ⟨some e, none, 0, s.aon, s.aon⟩ }).setExpects e.bindings
    | none => s) s
  s.refreshGroups

/-- Arm a job of a record. Its role's current step is one in which this member is absent, unless its result has been filled (R274). -/
def State.rejoinJob (s : State) (p : Promotion) (j : IdJob) : State :=
  match fin? 64 j.idx with
  | none => s
  | some k =>
    let d := parseJob j.raw
    let t : TlyJob := ⟨j.unit, j.raw, d, j.table, none, none, none, []⟩
    let s := s.setTjob k (some t)
    match s.jobRole t, s.entry d.slot with
    | some r, some e =>
      let step := (s.mq r).step
      let full := (p.filled.find? fun f => f.cls == fillResult && f.id == d.job).map (·.version)
      if full.isSome then
        let s := s.modTjob k fun t => { t with last := full }
        if full = some step ∨ e.axis ≠ 0 then s else (s.openRun k step s.aon).goAbsent k
      else if e.axis = 0 then (s.openRun k step s.aon).goAbsent k
      else s
    | _, _ => s

/-- PROMOTE_REJOIN: everything is adopted in one cycle (R206), and the command completes. -/
def doPromoteRejoin (s : State) : State :=
  match s.fr.promotion with
  | none => s
  | some p => match parseIdRecord p.record with
    | none => s
    | some x =>
      if p.phase ≠ 5 ∨ !p.verified then s
      else
        let s := s.setPhase 6
        let versionOf := fun (i : Nat) (v : Word) => ((p.filled.find? fun f => f.cls == fillBuffer && f.entry == i).map (·.version)).getD v
        let held := fun (i : Nat) (b : WvtBuf) => if b.st = .committed then { b with version := versionOf i b.version }
          else { b with st := .empty, version := 0 }
        let entries := x.entries.map fun e => (e.1, { e.2 with bufs := e.2.bufs.map (held e.1) })
        let s := (s.modJob fun j => { j with identity := p.position }).modMbq fun m => { m with
          area := Vector.ofFn fun d => x.areas.getD d.1 0, base := x.base }
        let s := forEach ((allFin 4).zip x.roles) (fun s y =>
          let stage := BitVec.ofNat 16 (fget roleStage y.2.role)
          let l := p.located.find? fun l => if p.fromCopy then l.role == y.1.1 else l.stage == stage
          s.rejoinRole y.1 y.2 ((l.map (·.step)).getD 0)) s
        let s := (s.modWvt fun w => { w with entries := entries }).rejoinGroups x.groups
        let s := forEach x.jobs (fun s j => s.rejoinJob p j) s
        let s := s.modFr fun f => { f with promotion := none }
        let ports := p.sources.map (·.port)
        if p.fromCopy then
          let v := ((p.located.head?).map (·.committed)).getD noPos
          s.final p.handle stSourceLost (BitVec.ofNat 16 p.current) { result := List.replicate 8 0 ++ natLe 4 v.toNat }
        else s.finalOkPorts p.handle ports

/-- CANCEL of a promotion before phase 6 (spec 15 R288). -/
def State.promoCancel (s : State) : State := s.promoEnd stCancelled 0

/-- FILL: phases 2 to 6 for this device's own position. -/
def doFill (h : Quad) (src : HostData) (s : State) : State :=
  match s.begins h 0x33 with
  | none => s
  | some c =>
    let s := s.running h
    if s.fr.promotion.isSome || (allFin 4).any (fun d => (s.die d).seq.prog.isSome) then
      s.denied h (if s.fr.promotion.isSome then dtState else dtRunning)
    else s.withSource h (c.arg 16 8) 64 src fun b s =>
      match parseSources b with
      | none => s.bad h dtReserved
      | some l =>
        if sourcesOdd b ∨ l.isEmpty then s.bad h dtArgument
        else
          let me := s.job.identity
          let p : Promotion :=
            { handle := h, isFill := true, phase := 1, position := me, former := me, version := BitVec.ofNat 32 (c.arg 8 4), sources := l
              current := 0, wait := .idle, inbuf := [], located := [], fromCopy := false, verified := false, record := [], todo := []
              filled := [], offset := 0, bytes := 0, since := s.aon, heard := false, failure := 0 }
          s.modFr fun x => { x with promotion := some p }

end Sys2Proof.Machine
end

