-- ==== Sys2Proof/Machine/Reshard.lean ====
section
/-!
DEFINITION. Adopting groups (spec 11 R208, R210) with what it does to tally jobs and votes (spec 13 R257, spec 14 R269), and re-sharding
(spec 13 R256).
-/
namespace Sys2Proof.Machine

/-- The slots of a mask whose membership epoch an adoption raises. -/
def State.membRises (s : State) (m : BitVec 64) : List (Fin 64) :=
  (allFin 64).filter fun i => m.getLsbD i.1 && match (s.grp i).staged, (s.grp i).active with
    | some e, some a => 0 < epochDiff e.memb a.memb
    | _, _ => false

/-- The slots of a mask whose layout epoch an adoption raises. -/
def State.layoutRises (s : State) (m : BitVec 64) : List (Fin 64) :=
  (allFin 64).filter fun i => m.getLsbD i.1 && match (s.grp i).staged, (s.grp i).active with
    | some e, some a => 0 < epochDiff e.layout a.layout
    | _, _ => false

/-- Adopt the staged entries of a mask: steps under a risen membership epoch restart, and votes are run again. -/
def State.adopt (s : State) (m : BitVec 64) : State :=
  let up := s.membRises m
  ((s.adoptGroups m).restartJobs up).revote up

/-- GROUP_ADOPT. -/
def doGroupAdopt (h : Quad) (s : State) : State :=
  s.start h 0x24 fun c s =>
    let m := BitVec.ofNat 64 (c.arg 8 8)
    match s.adoptError m with
    | some x => s.final h x.1 x.2
    | none =>
      if (s.layoutRises m).any fun i => s.jobRuns i then s.denied h dtRunning
      else (s.adopt m).finalOk h []

/-! ## RESHARD (R256) -/

/-- A move of the move list. -/
structure Move where
  src  : Nat
  pos  : Word
  port : Nat
  dst  : Nat
  n    : Nat
deriving DecidableEq, Repr

def parseMoves (n : Nat) (b : List Byte) : List Move :=
  (List.range n).map fun i =>
    let o := 32 * i
    ⟨leAt b o 8, bytesWord b (o + 8), byteAt b (o + 12), leAt b (o + 16) 8, leAt b (o + 24) 4⟩

def movesReserved (n : Nat) (b : List Byte) : Bool :=
  (List.range n).any fun i => !(allZero (slice b (32 * i + 13) 3) && allZero (slice b (32 * i + 28) 4))

/-- Whether a move is local. -/
def Move.isLocal (m : Move) : Bool := m.port == 0xFF

/-- Whether a move is possible: whole blocks of 256 B, within device memory here, and to this device's own position when it is local. -/
def State.moveOk (s : State) (m : Move) : Bool :=
  m.n % 256 == 0 && decide (m.src + m.n ≤ devSize) &&
  (if m.isLocal then m.pos == s.job.identity && decide (m.dst + m.n ≤ devSize) else decide (m.port < 24))

/-- The jobs that still run a step under the old layout. -/
def State.oldSteps (s : State) (slots : BitVec 64) : Nat :=
  (s.tly.jobs.toList.filter fun j => match j with
    | some t => t.busy && (s.chain t.desc.slot).any fun i => slots.getLsbD i.1
    | none => false).length

/-- The progress record of a re-shard (R290). -/
def State.reshardProgress (s : State) (r : Reshard) : State :=
  s.progress r.handle stReshardPending 0 (natLe 4 (s.oldSteps r.slots))

/-- RESHARD: accepted at once, pending until RESHARD_CUTOVER. -/
def doReshard (h : Quad) (rearm moves : HostData) (s : State) : State :=
  s.start h 0x35 fun c s =>
    let m := BitVec.ofNat 64 (c.arg 8 8)
    let nr := c.arg 32 4
    let nm := c.arg 36 4
    match s.adoptError m with
    | some x => s.final h x.1 x.2
    | none =>
      if s.tly.reshards.any fun r => (r.slots &&& m) != 0 then s.denied h dtState
      else if 64 < nr then s.bad h dtArgument
      else s.withSource h (c.arg 16 8) (8 * nr) rearm fun rb s =>
        s.withSource h (c.arg 24 8) (32 * nm) moves fun mb s =>
          if ((List.range nr).any fun i => !allZero (slice rb (8 * i + 2) 2)) ∨ movesReserved nm mb then s.bad h dtReserved
          else if ((List.range nr).any fun i => decide (4 ≤ byteAt rb (8 * i)) || decide (64 ≤ byteAt rb (8 * i + 1))) ∨
              (parseMoves nm mb).any fun x => !s.moveOk x then s.bad h dtArgument
          else
            let r : Reshard := ⟨h, m, rb, mb, []⟩
            (s.modTly fun k => { k with reshards := k.reshards ++ [r] }).reshardProgress r

/-- Perform the local moves in order; a failure is answered. The messages of remote moves are not given (log entry 43). -/
def State.doMoves (s : State) (l : List Move) : State × Option (Half × Half) :=
  l.foldl (fun (x : State × Option (Half × Half)) m =>
    match x with
    | (s, some e) => (s, some e)
    | (s, none) =>
      let (s, r) := s.readDev m.src m.n
      match r.fail with
      | some e => (s, some e)
      | none => if m.isLocal then s.writeDev .hub m.dst r.bytes else (s, none)) (s, none)

/-- The jobs of a re-arm list, checked against the groups as they stand. -/
def State.rearmed (s : State) (b : List Byte) : State × Except Half (List (Fin 64 × TlyJob)) :=
  (List.range (b.length / 8)).foldl (fun (x : State × Except Half (List (Fin 64 × TlyJob))) i =>
    match x, fin? 64 (byteAt b (8 * i + 1)) with
    | (s, .ok l), some j => match s.readJob (byteAt b (8 * i)) (leAt b (8 * i + 4) 4) with
      | (s, .ok t) => (s, .ok (l ++ [(j, t)]))
      | (s, .error e) => (s, .error e)
    | (s, .ok _), none => (s, .error dtArgument)
    | (s, .error e), _ => (s, .error e)) (s, .ok [])

/-- The re-shard is over: the STARTs it held go on. -/
def State.releaseStarts (s : State) (r : Reshard) : State :=
  let held := ((s.tly.reshards.find? fun x => x.handle == r.handle).map (·.held)).getD []
  let s := s.modTly fun k => { k with reshards := k.reshards.filter fun x => x.handle != r.handle }
  forEach held (fun s m => match fin? 64 (byteAt m.bytes 2) with
    | none => s
    | some j => match s.tjob j with
      | some t => s.startJob m j t
      | none => s.answerDenied m dtState) s

/-- RESHARD_CUTOVER: of the first pending re-shard whose old-layout steps have all ended. What cannot be adopted ends the re-shard with its
status, and changes neither groups nor jobs. -/
def doReshardCutover (s : State) : State :=
  match s.tly.reshards.find? fun r => s.oldSteps r.slots == 0 with
  | none => s
  | some r =>
    match s.adoptError r.slots with
    | some x => (s.releaseStarts r).final r.handle x.1 x.2
    | none =>
      let after := s.adoptGroups r.slots
      match (after.rearmed r.rearm).2 with
      | .error e => (s.releaseStarts r).bad r.handle e
      | .ok jobs => match s.doMoves (parseMoves (r.moves.length / 32) r.moves) with
        | (s, some x) => (s.releaseStarts r).final r.handle x.1 x.2
        | (s, none) =>
          let s := forEach jobs (fun s x => s.setTjob x.1 (some x.2)) (s.adopt r.slots)
          (s.releaseStarts r).finalOk r.handle []

/-- CANCEL before the cutover: the staged entries stay staged, and the held STARTs run under the old layout. -/
def State.reshardCancel (s : State) (r : Reshard) : State := (s.releaseStarts r).final r.handle stCancelled 0

end Sys2Proof.Machine
end

