-- ==== Sys2Proof/Machine/Port.lean ====
section
/-!
DEFINITION. The Terti ports (spec 10): states and training (R191, R193), wavelengths and retrains (R194, R195), the loss of a port and what it does to
the units (R196), quarantine (R203), bindings (R210), and CTL flits (R190).
-/
namespace Sys2Proof.Machine

/-! ## States (Table 10-8) -/

def pstOff : Nat := 0
def pstTraining : Nat := 1
def pstActive : Nat := 2
def pstDegraded : Nat := 3
def pstRetrain : Nat := 4
def pstQuarantined : Nat := 6
def pstMisbound : Nat := 7

def State.modPhy (s : State) (p : Fin 24) (f : PortPhy → PortPhy) : State := s.modPort p fun x => { x with phy := f x.phy }
def State.modTx (s : State) (p : Fin 24) (f : LinkTx → LinkTx) : State := s.modPort p fun x => { x with tx := f x.tx }
def State.modRx (s : State) (p : Fin 24) (f : LinkRx → LinkRx) : State := s.modPort p fun x => { x with rx := f x.rx }
def State.setPst (s : State) (p : Fin 24) (st : Nat) : State := s.modPort p fun x => { x with status := fput pstState st x.status }

def lgPort : Nat := 14
def rpQuarantined : Nat := 15

/-- Whether the port is enabled. -/
def State.portOn (s : State) (p : Fin 24) : Bool := fon portEnable (s.port p).cfg

/-- The ticks between attempts to re-acquire (R196). -/
def reacquireTicks : Nat := 2 ^ 18

/-! ## Units, when a port goes or comes back -/

/-- Hand a message back to the unit that sent it, with PORT_LOST (R196 step 2). -/
def State.giveBack (s : State) (p : Fin 24) (m : OutMsg) : State :=
  match m.sender with
  | .sle r d => s.sleReturned r d m.msg.hdr
  | .tly _ => s.tlyReturned p m.msg
  | .fr r => s.frReturned p m.msg (.fr r)
  | _ => s

/-- Every message handed to the port that is not acknowledged, in order of sending. -/
def LinkTx.pendingMsgs (x : LinkTx) : List OutMsg :=
  x.unacked.map (·.out) ++ (x.sending.toList.filterMap fun y => y.map (·.out)) ++ x.queues.toList.flatten

/-- What the units do when a port no longer carries: returned messages first, then what was waited for. -/
def State.unitsPortLost (s : State) (p : Fin 24) (l : List OutMsg) : State :=
  let s := forEach l (fun s m => s.giveBack p m) s
  let s := (((s.shardPortLost p).drainPortLost p).servePortLost p).fillPortLost p
  s.refreshLinks.refreshGroups

/-- What the units do when a port carries again. -/
def State.unitsPortUp (s : State) (p : Fin 24) : State := ((s.refreshLinks.refreshGroups).tlyResend p).frResend p

/-- Reset the sequence and credit state, and drop partly received and held messages; what has been accepted stays (R196 steps 3
and 4). -/
def State.resetLink (s : State) (p : Fin 24) : State :=
  s.modPort p fun x => { x with tx := LinkTx.reset, rx := { LinkRx.reset with delivered := x.rx.delivered, keys := x.rx.keys } }

/-- Pending NACKs are discarded and counted (R201). -/
def State.dropNacks (s : State) (p : Fin 24) : State :=
  s.modPort p fun x => { x with nacks := [], vlogStat := fsat vlogNackDropped x.nacks.length x.vlogStat }

/-- The port stops carrying: LOST, or MISBOUND, or OFF. -/
def State.portFail (s : State) (p : Fin 24) (st cause : Nat) : State :=
  let l := (s.port p).tx.pendingMsgs
  let s := (((s.setPst p st).resetLink p).dropNacks p).modPhy p fun y => { y with reacqAt := s.aon + reacquireTicks, ctlWait := [] }
  let s := (s.log (.port p) lgPort [st, cause]).emit (.report (if st = pstMisbound then rpMismatch else rpPortLost) [p.1])
  s.unitsPortLost p l

/-- Enter LOST, except from QUARANTINED (R194, R196, R203). -/
def State.portLose (s : State) (p : Fin 24) (cause : Nat) : State :=
  let st := s.portState p
  if st = pstOff ∨ st = pstLost ∨ st = pstQuarantined then s else s.portFail p pstLost cause

/-! ## CTL flits (Table 10-6) -/

def ctlSubParam : Nat := 1
def ctlSubSync : Nat := 2
def ctlSubFfe : Nat := 3
def ctlSubLambda : Nat := 4
def ctlSubProbe : Nat := 5
def ctlSubEcho : Nat := 6

/-- A CTL body. -/
def ctlBody (b : List Byte) : List Byte := padTo 244 b

/-- Queue a CTL flit. -/
def State.sendCtl (s : State) (p : Fin 24) (b : List Byte) : State :=
  s.modTx p fun x => { x with ctlOut := x.ctlOut ++ [ctlBody b] }

/-- This end's PARAM. -/
def State.paramBody (s : State) (p : Fin 24) : List Byte :=
  let x := s.port p
  natLe 1 ctlSubParam ++ [1, 0, 0] ++ natLe 4 s.job.identity.toNat ++ natLe 1 (fget portVcEn x.cfg) ++
  natLe 1 (fget portMaxMsg x.cfg) ++ natLe 1 (fget pstRateAct x.status) ++ natLe 1 x.phy.rxGood.toNat ++ List.replicate 8 64

def State.syncBody (s : State) (p : Fin 24) : List Byte := natLe 1 ctlSubSync ++ [0] ++ natLe 2 (s.port p).rx.expect

/-- A subtype that waits for its answer is repeated (R190). -/
def State.ctlAwait (s : State) (p : Fin 24) (n : Nat) : State :=
  s.modPhy p fun y => { y with ctlWait := if y.ctlWait.contains n then y.ctlWait else y.ctlWait ++ [n] }

def State.ctlAnswered (s : State) (p : Fin 24) (n : Nat) : State := s.modPhy p fun y => { y with ctlWait := y.ctlWait.filter (· != n) }

/-- The body of a subtype as it is repeated. -/
def State.ctlAgain (s : State) (p : Fin 24) (n : Nat) : List Byte :=
  if n = ctlSubParam then s.paramBody p
  else if n = ctlSubSync then s.syncBody p
  else if n = ctlSubLambda then natLe 1 n ++ natLe 1 (s.port p).phy.rxGood.toNat ++ natLe 1 (fget pstRateAct (s.port p).status)
  else natLe 1 n ++ List.replicate 7 0

/-- CTL_REPEAT: what is unanswered is sent again on every carrying wavelength (R190). -/
def doCtlRepeat (p : Fin 24) (s : State) : State :=
  forEach (s.port p).phy.ctlWait (fun s n => s.sendCtl p (s.ctlAgain p n)) s

/-! ## Training (R191) -/

/-- Begin training at a rate; the identity of the partner is asked for anew. -/
def State.trainAt (s : State) (p : Fin 24) (rate : Nat) : State :=
  let s := if s.portState p = pstQuarantined then s else s.setPst p pstTraining
  let s := s.modPort p fun x => { x with
    status := fput pstRateAct rate (fput pstLambdaUp 0 x.status)
    phy := { x.phy with txGood := 0xFF, rxGood := 0xFF, txLambda := 0, rxLambda := 0, partner := none, ctlWait := [] } }
  (((s.resetLink p).sendCtl p (s.paramBody p)).ctlAwait p ctlSubParam).ctlAwait p ctlSubProbe

/-- Start training from the configured rate. RATE 0b11 is treated as 0b10 (R181). -/
def State.trainPort (s : State) (p : Fin 24) : State :=
  (s.modPhy p fun y => { y with attempts := 0 }).trainAt p (min 2 (fget portRate (s.port p).cfg))

/-- A rate has failed: the next lower one, then the next of three attempts, then LOST. -/
def State.rateFailed (s : State) (p : Fin 24) : State :=
  let rate := fget pstRateAct (s.port p).status
  if rate < 2 then s.trainAt p (rate + 1)
  else
    let n := (s.port p).phy.attempts + 1
    let s := s.modPhy p fun y => { y with attempts := n }
    if n < 3 then s.trainAt p (min 2 (fget portRate (s.port p).cfg))
    else if s.portState p = pstQuarantined then s
    else s.portLose p 3

/-- The wavelengths that a direction uses out of its good ones: all eight, or the lowest-indexed four, or none; `four` is the alternate
method of BS-13 (spec 16 Table 16-2). -/
def chooseLambdas (good : BitVec 8) (four : Bool := false) : BitVec 8 :=
  if good = 0xFF ∧ !four then good
  else
    let l := maskBits good
    if l.length < 4 then 0 else maskOf 8 (l.take 4)

/-- The port's state by its wavelengths. -/
def PortPhy.stateOf (y : PortPhy) : Nat := if y.txLambda = 0xFF ∧ y.rxLambda = 0xFF then pstActive else pstDegraded

/-- The port carries: LAMBDA_UP, the state, and the units. -/
def State.portUp (s : State) (p : Fin 24) : State :=
  let y := (s.port p).phy
  let was := s.portState p
  let s := s.modPort p fun x => { x with status := fput pstState y.stateOf (fput pstLambdaUp y.rxLambda.toNat x.status) }
  let s := s.log (.port p) lgPort [y.stateOf, y.rxLambda.toNat]
  let s := if y.stateOf = pstDegraded ∧ was ≠ pstDegraded then s.emit (.report rpDegraded [p.1]) else s
  s.unitsPortUp p

/-- Whether SEEN is not what EXPECT asks for. -/
def State.misbound (s : State) (p : Fin 24) : Bool := s.expects p != noPos && s.seen p != s.expects p

/-- TERTI_TRAINING_COMPLETE: `tx` and `rx` are the wavelengths that passed steps 2 to 4. Without the partner's PARAM step 5 has not ended. -/
def doTrainingComplete (p : Fin 24) (tx rx : BitVec 8) (s : State) : State :=
  let x := s.port p
  let st := s.portState p
  if !(st = pstTraining ∨ (st = pstQuarantined ∧ x.phy.light ∧ x.phy.txLambda = 0)) then s
  else
    let t := chooseLambdas (tx &&& x.phy.txGood) x.phy.four
    let r := chooseLambdas (rx &&& x.phy.rxGood) x.phy.four
    if t = 0 ∨ r = 0 then s.rateFailed p
    else match x.phy.partner with
    | none => s
    | some q =>
      let s := s.modPort p fun x => { x with
        partner := fput partnerSeen q.pos.toNat x.partner
        phy := { x.phy with
          txLambda := t, rxLambda := r, light := true, attempts := 0, ctlWait := [], uncorr := []
          vcs := BitVec.ofNat 8 (fget portVcEn x.cfg) &&& q.vcEn, maxMsg := min (fget portMaxMsg x.cfg) q.maxMsg } }
      if st = pstQuarantined then s
      else if s.misbound p then s.portFail p pstMisbound 5
      else s.portUp p

/-- TRAINING_STEP_TIMEOUT: a wavelength that fails steps 1 to 4 is left out; a later step fails the attempt. -/
def doTrainingStepTimeout (p : Fin 24) (stage : Nat) (rxSide : Bool) (lam : Fin 8) (s : State) : State :=
  let x := s.port p
  let st := s.portState p
  if !(st = pstTraining ∨ (st = pstQuarantined ∧ x.phy.txLambda = 0)) ∨ stage = 0 ∨ 6 < stage then s
  else if stage ≤ 4 then
    let off := fun (m : BitVec 8) => m &&& ~~~(BitVec.twoPow 8 lam.1)
    let s := s.modPhy p fun y => if rxSide then { y with rxGood := off y.rxGood } else { y with txGood := off y.txGood }
    let y := (s.port p).phy
    if chooseLambdas y.txGood = 0 ∨ chooseLambdas y.rxGood = 0 then s.rateFailed p else s
  else
    let s := s.modPort p fun x => { x with status := fput pstRateAct 2 x.status }
    s.rateFailed p

/-- PORT_REACQUIRE: a LOST or MISBOUND port tries full training again (R196), unless its engine's lasers are off (spec 17 R318). -/
def doPortReacquire (p : Fin 24) (s : State) : State :=
  let st := s.portState p
  if (st = pstLost ∨ st = pstMisbound) ∧ s.portOn p ∧ (s.port p).phy.reacqAt ≤ s.aon ∧ !s.pwc.oeDark.getLsbD (p.1 / 4) then
    (s.modPhy p fun y => { y with reacqAt := s.aon + reacquireTicks }).trainPort p
  else s

/-- PORT_ENABLE_WRITE: the write of TERTI.PORT_CFG that carries ENABLE; reserved MAX_MSG codes leave that field as it was. -/
def State.writePortCfg (s : State) (p : Fin 24) (v : Word) : State :=
  let old := (s.port p).cfg
  let v := fput (0, 0) 0 v
  let v := if 8 < fget portMaxMsg v then fput portMaxMsg (fget portMaxMsg old) v else v
  let v := if fget portRate v = 3 then fput portRate (fget portRate old) v else v
  s.modPort p fun x => { x with cfg := v }

def doPortEnableWrite (p : Fin 24) (v : Word) (s : State) : State :=
  let was := s.portOn p
  let s := s.writePortCfg p v
  match was, s.portOn p with
  | false, true => if s.portState p = pstOff then s.trainPort p else s
  | true, false => if s.portState p = pstOff then s else s.portFail p pstOff 6
  | true, true => if s.portState p = pstOff then s.trainPort p else s
  | false, false => s

/-! ## The adaptive loops (R192) -/

/-- CTLE_ADAPT_TICK. -/
def doCtleAdaptTick (p : Fin 24) (s : State) : State :=
  if s.carries p then s.modPhy p fun y => { y with eqStep := y.eqStep + 1 } else s

/-- FFE_REQ_COUNT: every 2^16 flits received, one FFE_REQ. -/
def doFfeReqCount (p : Fin 24) (lam : Fin 8) (tap : Nat) (delta : Int) (s : State) : State :=
  let r := (s.port p).rx
  if !s.carries p ∨ r.flits < r.ffeAt + 2 ^ 16 ∨ 4 < tap ∨ delta < -1 ∨ 1 < delta then s
  else (s.modRx p fun x => { x with ffeAt := x.flits }).sendCtl p
    (natLe 1 ctlSubFfe ++ natLe 1 lam.1 ++ natLe 1 tap ++ natLe 1 (delta % 256).toNat)

/-! ## Retrains (R194, R195) -/

/-- Enter RETRAIN towards a choice of wavelengths; the two ends exchange PARAM and SYNC. -/
def State.enterRetrain (s : State) (p : Fin 24) (tx rx : BitVec 8) : State :=
  let s := s.modPort p fun x => { x with
    status := fput pstState pstRetrain x.status, linkErr := fsat linkErrRetrains 1 x.linkErr
    phy := { x.phy with retrainTo := (tx, rx) } }
  let s := s.log (.port p) lgPort [pstRetrain, tx.toNat, rx.toNat]
  let s := (s.sendCtl p (s.paramBody p)).sendCtl p (s.syncBody p)
  s.refreshLinks.refreshGroups

/-- A wavelength fails (R192, R194). -/
def State.lambdaFail (s : State) (p : Fin 24) (rxSide : Bool) (lam : Fin 8) : State :=
  let st := s.portState p
  let y := (s.port p).phy
  let off := fun (m : BitVec 8) => m &&& ~~~(BitVec.twoPow 8 lam.1)
  let used := if rxSide then y.rxLambda.getLsbD lam.1 else y.txLambda.getLsbD lam.1
  let s := s.modPhy p fun y => if rxSide then { y with rxGood := off y.rxGood } else { y with txGood := off y.txGood }
  if !used || !(st = pstActive ∨ st = pstDegraded ∨ st = pstRetrain) then s
  else
    let y := (s.port p).phy
    let now := if st = pstRetrain then y.retrainTo else (y.txLambda, y.rxLambda)
    let good := if rxSide then chooseLambdas y.rxGood else chooseLambdas y.txGood
    let rate := fget pstRateAct (s.port p).status
    let s := if rxSide then s.sendCtl p (natLe 1 ctlSubLambda ++ natLe 1 y.rxGood.toNat ++
        natLe 1 (if good = 0 then min 2 (rate + 1) else rate)) else s
    if good ≠ 0 then s.enterRetrain p (if rxSide then now.1 else good) (if rxSide then good else now.2)
    else if rate < 2 then
      let s := s.modPort p fun x => { x with
        status := fput pstRateAct (rate + 1) x.status
        phy := { x.phy with txGood := 0xFF, rxGood := 0xFF } }
      s.enterRetrain p 0xFF 0xFF
    else s.portLose p 2

/-- WAVELENGTH_FAIL. -/
def doWavelengthFail (p : Fin 24) (rxSide : Bool) (lam : Fin 8) (s : State) : State := s.lambdaFail p rxSide lam

/-- LASER_BIAS_TICK: each bias moves one step of its range of 100 towards the target amplitude: up where the amplitude is `low`, else
down; past 90 % it is flagged, and at the end of the range with a low amplitude the wavelength fails. -/
def doLaserBiasTick (p : Fin 24) (low : BitVec 8) (s : State) : State :=
  if !s.carries p then s
  else
    let old := (List.range 8).map fun i => (s.port p).phy.bias.getD i 50
    let new := (List.range 8).map fun i => if low.getLsbD i then min 100 (old.getD i 50 + 1) else old.getD i 50 - 1
    let aging := maskOf 8 ((List.range 8).filter fun i => decide (90 ≤ new.getD i 50))
    let s := s.modPort p fun x => { x with
      status := fput pstLambdaAging aging.toNat x.status, phy := { x.phy with bias := new } }
    forEach (allFin 8) (fun s l => if low.getLsbD l.1 && old.getD l.1 50 == 100 then s.lambdaFail p false l else s) s

/-- WAVELENGTH_WINDOW_END: the windows of 2^15 ticks restart (R192). -/
def doWavelengthWindowEnd (p : Fin 24) (s : State) : State :=
  s.modPhy p fun y => { y with uncorr := y.uncorr.map fun w => if w.win = s.aon / 2 ^ 15 then w else ⟨s.aon / 2 ^ 15, 0⟩ }

/-- TERTI_RETRAIN_COMPLETE (R195). A retrain that fails goes on at the next lower rate, and at the lowest the port is lost. -/
def doRetrainComplete (p : Fin 24) (ok : Bool) (s : State) : State :=
  if s.portState p ≠ pstRetrain then s
  else
    let y := (s.port p).phy
    let rate := fget pstRateAct (s.port p).status
    let other := match y.partner with
      | some q => q.pos != s.seen p
      | none => false
    if other then s.portLose p 4
    else if ok then
      let s := s.modPhy p fun y => { y with txLambda := y.retrainTo.1, rxLambda := y.retrainTo.2, ctlWait := [] }
      (s.modTx p fun x => { x with resend := x.replay, ackTick := s.aon }).portUp p
    else if rate < 2 then
      let s := s.modPort p fun x => { x with status := fput pstRateAct (rate + 1) x.status }
      s.enterRetrain p 0xFF 0xFF
    else s.portLose p 2

/-- PORT_LOSS_OF_LIGHT: LOST, except from QUARANTINED. -/
def doPortLossOfLight (p : Fin 24) (s : State) : State := (s.modPhy p fun y => { y with light := false }).portLose p 1

/-- LIGHT_RETURN: on a QUARANTINED port the link layer trains again (R203). -/
def doLightReturn (p : Fin 24) (s : State) : State :=
  let s := s.modPhy p fun y => { y with light := true }
  if s.portState p = pstQuarantined then s.trainPort p else s

/-! ## Replays (R189) -/

def LinkTx.ack (x : LinkTx) : Nat := match x.replay.head? with
  | some f => f.seq
  | none => x.nextSeq

/-- The replay limit is reached: a retrain with the same wavelengths; a second within 2^20 ticks loses the port (R194). -/
def State.replayLimit (s : State) (p : Fin 24) : State :=
  let y := (s.port p).phy
  let again := match y.replayMark with
    | some t => decide (s.aon < t + 2 ^ 20)
    | none => false
  if again then s.portLose p 7
  else ((s.modPhy p fun y => { y with replayMark := some s.aon }).modTx p fun x => { x with sameAck := 0 }).enterRetrain p
    y.txLambda y.rxLambda

/-- Replay every held flit from the oldest on. -/
def State.startReplay (s : State) (p : Fin 24) : State :=
  let x := (s.port p).tx
  if x.replay.isEmpty then s
  else
    let n := if x.lastAck = x.ack then x.sameAck + 1 else 1
    let s := s.modPort p fun y => { y with
      linkErr := fsat linkErrReplays 1 y.linkErr
      tx := { y.tx with resend := y.tx.replay, lastAck := x.ack, sameAck := n, ackTick := s.aon } }
    if n = 16 ∧ s.carries p then s.replayLimit p else s

/-- ACK_TIMEOUT_REPLAY: ACK has not advanced for twice the round trip plus 1 µs; the round trip is in nanoseconds, and an AON tick is
40 ns. -/
def doAckTimeoutReplay (p : Fin 24) (s : State) : State :=
  let x := s.port p
  if x.tx.replay.isEmpty ∨ !s.carries p ∨ 40 * (s.aon - x.tx.ackTick) < 2 * x.phy.rtt + 1000 then s else s.startReplay p

/-- REPLAY_WINDOW_END. -/
def doReplayWindowEnd (p : Fin 24) (s : State) : State :=
  match (s.port p).phy.replayMark with
  | some t => if t + 2 ^ 20 ≤ s.aon then s.modPhy p fun y => { y with replayMark := none } else s
  | none => s

/-! ## Quarantine (R203) -/

/-- Enter QUARANTINED when the window's weight has reached the limit: messages go back, the link layer keeps running. -/
def State.quarCheck (s : State) (p : Fin 24) : State :=
  let x := s.port p
  let limit := fget portQuarLimit x.cfg
  if limit = 0 ∨ x.weight.n < limit ∨ s.portState p = pstQuarantined ∨ s.portState p = pstOff then s
  else
    let l := x.tx.pendingMsgs
    let s := (s.setPst p pstQuarantined).modTx p fun t => { t with
      queues := Vector.replicate 8 [], sending := Vector.replicate 8 none, unacked := [] }
    let s := ((s.log (.port p) lgPort [pstQuarantined]).emit (.report rpQuarantined [p.1])).emit (.report rpPortLost [p.1])
    s.unitsPortLost p l

/-- QUARANTINE_WINDOW_END: WINDOW_WEIGHT restarts. -/
def doQuarantineWindowEnd (p : Fin 24) (s : State) : State :=
  if (s.port p).weight.win = s.weightWin then s
  else s.modPort p fun x => { x with weight := ⟨s.weightWin, 0⟩, vlogStat := fput vlogWindowWeight 0 x.vlogStat }

/-- PORT_RELEASE. -/
def doPortRelease (h : Quad) (s : State) : State :=
  s.start h 0x02 fun c s =>
    match port? (c.arg 8 1) with
    | none => s.bad h dtArgument
    | some p =>
      if s.portState p ≠ pstQuarantined then s.denied h dtState
      else
        let s := s.modPort p fun x => { x with
          weight := ⟨s.weightWin, 0⟩, vlogStat := fput vlogWindowWeight 0 x.vlogStat
          status := fput pstState pstTraining x.status }
        (s.trainPort p).finalOkPorts h []

/-! ## Bindings (R210, Table 10-15) -/

/-- Judge every port by its EXPECT: a carrying port with another partner is MISBOUND; a MISBOUND port whose EXPECT accepts any passes at once. -/
def State.rebindPorts (s : State) : State :=
  forEach (allFin 24) (fun s p =>
    let st := s.portState p
    if s.carries p && s.misbound p then s.portFail p pstMisbound 5
    else if st = pstMisbound && s.expects p == noPos then s.portUp p
    else s) s

/-- EXPECT_WRITE. -/
def State.writeExpect (s : State) (p : Fin 24) (v : Word) : State :=
  (s.modPort p fun x => { x with partner := fput partnerExpect v.toNat x.partner }).rebindPorts

/-! ## Acting on CTL flits -/

/-- Take the first CTL body of a subtype. -/
def State.takeCtl (s : State) (p : Fin 24) (n : Nat) : Option (List Byte × State) :=
  match (s.port p).rx.ctlIn.find? fun b => byteAt b 0 == n with
  | none => none
  | some b => some (b, s.modRx p fun x => { x with ctlIn := dropFirst (fun c => byteAt c 0 == n) x.ctlIn })

/-- CTL_PARAM: the partner's parameters; at a retrain another identity loses the port (R195). -/
def doCtlParam (p : Fin 24) (s : State) : State :=
  match s.takeCtl p ctlSubParam with
  | none => s
  | some (b, s) =>
    let q : Param := ⟨bytesWord b 4, b.getD 8 0, byteAt b 9, byteAt b 10, b.getD 11 0, (List.range 8).map fun i => byteAt b (12 + i)⟩
    let s := (s.modPhy p fun y => { y with partner := some q }).ctlAnswered p ctlSubParam
    if s.portState p = pstRetrain ∧ q.pos ≠ s.seen p then s.portLose p 4 else s

/-- The flits from a sequence number on, if they are all held; none when the number is not one the sender can replay from. -/
def LinkTx.heldFrom (x : LinkTx) (e : Nat) : Option (List HeldFlit) :=
  if e = x.nextSeq then some []
  else if x.replay.any fun f => f.seq == e then some (x.replay.dropWhile fun f => f.seq != e)
  else none

/-- The acknowledgement of every flit before a sequence number: flits are released, and the units hear of whole messages. -/
def State.acked (s : State) (p : Fin 24) (e : Nat) : State :=
  let x := (s.port p).tx
  match x.heldFrom e with
  | none => s
  | some rest =>
    if rest.length = x.replay.length then s
    else
      let gone := x.replay.take (x.replay.length - rest.length)
      let done := x.unacked.filter fun u => gone.any fun f => f.seq == u.last
      let s := s.modTx p fun x => { x with
        replay := rest, unacked := x.unacked.filter fun u => !(gone.any fun f => f.seq == u.last)
        resend := x.resend.filter fun f => !gone.contains f
        sameAck := 0, lastAck := e, ackTick := s.aon }
      forEach done (fun s u => match u.out.sender with
        | .sle r d => s.sleAcked r d u.out.msg.hdr
        | .drain r h => s.drainAcked r h u.out.msg.hdr
        | .serve => s.serveAcked p u.out.msg.hdr
        | _ => s) s

/-- CTL_SYNC: the sender replays from its partner's e; one it no longer holds loses the port, which re-acquires at once (Table 10-10,
row 0x01). -/
def doCtlSync (p : Fin 24) (s : State) : State :=
  match s.takeCtl p ctlSubSync with
  | none => s
  | some (b, s) =>
    let e := leAt b 2 2
    let st := s.portState p
    if !(s.carries p ∨ st = pstRetrain ∨ st = pstQuarantined) then s
    else match (s.port p).tx.heldFrom e with
    | some l =>
      let s := s.acked p e
      s.modTx p fun x => { x with resend := l, ackTick := s.aon }
    | none =>
      if st = pstQuarantined then s.trainPort p
      else
        let s := s.portLose p 8
        (s.modPhy p fun y => { y with reacqAt := s.aon + reacquireTicks }).trainPort p

/-- CTL_FFE_REQ: step a transmit tap. -/
def doCtlFfeReq (p : Fin 24) (s : State) : State :=
  match s.takeCtl p ctlSubFfe with
  | none => s
  | some (b, s) =>
    let i := 5 * byteAt b 1 + byteAt b 2
    let d := sInt 8 (byteAt b 3)
    if 7 < byteAt b 1 ∨ 4 < byteAt b 2 then s
    else s.modPhy p fun y =>
      let l := (List.range 40).map fun k => y.ffe.getD k 0
      { y with ffe := l.set i (l.getD i 0 + d) }

/-- CTL_LAMBDA_NOTICE: the partner no longer receives some wavelengths well, and may propose a lower rate. -/
def doCtlLambdaNotice (p : Fin 24) (s : State) : State :=
  match s.takeCtl p ctlSubLambda with
  | none => s
  | some (b, s) =>
    let good := b.getD 1 0
    let rate := min 2 (byteAt b 2)
    let st := s.portState p
    if !(st = pstActive ∨ st = pstDegraded ∨ st = pstRetrain) then s
    else
      let y := (s.port p).phy
      let now := if st = pstRetrain then y.retrainTo else (y.txLambda, y.rxLambda)
      if fget pstRateAct (s.port p).status < rate then
        let s := s.modPort p fun x => { x with
          status := fput pstRateAct rate x.status, phy := { x.phy with txGood := 0xFF, rxGood := 0xFF } }
        s.enterRetrain p 0xFF 0xFF
      else
        let s := s.modPhy p fun y => { y with txGood := y.txGood &&& good }
        let t := chooseLambdas (s.port p).phy.txGood
        if t = 0 then s.portLose p 2
        else if t = now.1 then s
        else s.enterRetrain p t now.2

/-- CTL_RTT_PROBE: answered with its tag. -/
def doCtlRttProbe (p : Fin 24) (s : State) : State :=
  match s.takeCtl p ctlSubProbe with
  | none => s
  | some (b, s) => s.sendCtl p (natLe 1 ctlSubEcho ++ [0, 0, 0] ++ slice b 4 4)

/-- CTL_RTT_ECHO: the measured round trip, in nanoseconds (log entry 3). -/
def doCtlRttEcho (p : Fin 24) (rtt : Nat) (s : State) : State :=
  match s.takeCtl p ctlSubEcho with
  | none => s
  | some (_, s) => (s.modPhy p fun y => { y with rtt := rtt }).ctlAnswered p ctlSubProbe

end Sys2Proof.Machine
end

