-- ==== Sys2Proof/Machine/Link.lean ====
section
/-!
DEFINITION. The link layer of Terti: flits in both directions (R183, R187 to R189), the checks of a message in the order of Table 10-10
(R197, R198), held messages, NACKs (R201), management messages (R185), and the PROMOTE command, which trains a spare's ports (R270).
-/
namespace Sys2Proof.Machine

/-! ## Flits (Table 10-3) -/

def ftIdle : Nat := 0
def ftFirst : Nat := 1
def ftCont : Nat := 2
def ftCtl : Nat := 3

/-- The header of a flit. -/
structure FlitHead where
  seq   : Nat
  ack   : Nat
  cvc   : Nat
  cfree : Nat
  nak   : Bool
  vc    : Nat
  type  : Nat
  eom   : Bool
deriving DecidableEq, Repr

def FlitHead.parse (b : List Byte) : FlitHead :=
  let w := leAt b 0 8
  ⟨nbits w 63 48, nbits w 47 32, nbits w 31 29, nbits w 28 20, nbit w 19, nbits w 18 16, nbits w 15 12, nbit w 11⟩

def FlitHead.bytes (h : FlitHead) : List Byte :=
  natLe 8 (h.seq * 2 ^ 48 + h.ack * 2 ^ 32 + h.cvc * 2 ^ 29 + h.cfree * 2 ^ 20 + b2n h.nak * 2 ^ 19 + h.vc * 2 ^ 16 + h.type * 2 ^ 12 +
    b2n h.eom * 2 ^ 11)

/-- A flit with its CRC. -/
def flitBytes (h : FlitHead) (body : List Byte) : List Byte :=
  let b := h.bytes ++ padTo 244 body
  b ++ natLe 4 (crc32c b).toNat

def flitGood (b : List Byte) : Bool := b.length == 256 && leAt b 252 4 == (crc32c (b.take 252)).toNat

/-- Payload bytes of a FIRST and of a CONT flit. -/
def firstBytes : Nat := 196
def contBytes : Nat := 244

/-- How many flits a message of a length takes (R184). -/
def flitsOf (n : Nat) : Nat := 1 + (n - firstBytes + (contBytes - 1)) / contBytes

/-- Flits of a VC's receive buffer (Table 10-5). -/
def vcBuffer : Nat := 64

/-! ## Checks of a FIRST flit (Table 10-10) -/

/-- What the header rows decide. -/
inductive FirstCheck where
  | take
  | silent
  | hold (job full : Bool)
  | stale (k : Stale)
  | fail (code : Nat) (status : Half) (weight : Nat) (failed cur : Word)
deriving DecidableEq, Repr

/-- Row 0x06. -/
def State.malformed (s : State) (p : Fin 24) (h : Header) : Bool :=
  let mgt := h.vc == vcMgt
  h.reservedBad || !kindOnVc h.kind h.vc || (h.dstPos != s.job.identity && !(mgt && h.dstPos == 0)) ||
  (h.srcPos != s.seen p && !mgt) ||
  (h.group != noGroup && (s.activeGroup h.group).isNone && (s.stagedGroup h.group).isNone) || h.offset % 256 != 0

def Header.key (h : Header) : MsgKey := ⟨h.srcPos, h.stage, h.step, h.mbId, h.kind, h.offset⟩

/-- Whether a spare holds its messages until the rejoin (R274 advice, R270): a promotion has set the position, and the record is not
adopted. -/
def State.promoHolds (s : State) : Bool := match s.fr.promotion with
  | some x => !x.isFill && decide (x.phase < 6)
  | none => false

/-- Whether a tally segment must wait at the head of its VC: its job is not armed (R257), or its step has not begun here and hub staging
has no room for it (R243). -/
def State.tallyHold (s : State) (h : Header) (data : List Byte) : Option (Bool × Bool) :=
  if !(h.kind = kTally ∨ h.kind = kTallyCopy) then none
  else
    let job := bytesWord data 0
    match (allFin 64).find? fun j => match s.tjob j with
      | some t => t.desc.job == job
      | none => false with
    | none => some (true, false)
    | some j =>
      let begun : Bool := match s.trun j with
        | some r => r.step == h.step && (r.started || r.absent)
        | none => false
      if begun || s.stagingRoom h.length then none else some (false, true)

/-- The rows from 0x0F on, in table order. `data` is the payload in the FIRST flit. -/
def State.checkFirst (s : State) (p : Fin 24) (h : Header) (data : List Byte) : FirstCheck :=
  if s.portState p = pstQuarantined then .fail 0x0F stNotPermitted 0 0 0
  else if s.promoHolds ∧ h.vc ≤ vcCtl then .hold false false
  else if s.malformed p h then .fail 0x06 stBadDescriptor 1 0 0
  else if s.maxBytes p < h.length then .fail 0x07 stBadDescriptor 1 0 0
  else match s.epochCheck h with
  | .stale k => .stale k
  | .hold => .hold false false
  | .ahead e c w => .fail 0x0B stNotPermitted w e c
  | .pass =>
    if h.kind = kShardReq ∧ s.shardReqGone h data then .fail 0x0C stVersionGone 0 0 0
    else if (h.vc = vcFwd ∨ h.vc = vcBwd) ∧ (s.port p).rx.keys.contains h.key then
      if h.flags.getLsbD hfResend then .silent else .fail 0x0D stNotPermitted 1 0 0
    else match s.tallyHold h data with
    | some (job, full) => .hold job full
    | none => .take

/-! ## Receiving DATA flits -/

def State.setOpened (s : State) (p : Fin 24) (v : Fin 8) (o : Option OpenMsg) : State :=
  s.modRx p fun r => { r with opened := vset r.opened v o }

/-- Return the credit of flits (R187). -/
def State.freeFlits (s : State) (p : Fin 24) (v : Fin 8) (n : Nat) : State :=
  s.modRx p fun r => { r with freed := vmod r.freed v fun x => (x + n) % 512 }

/-- A whole message is accepted: its unit takes it from here, and its key is kept (R184, R197). -/
def State.deliver (s : State) (p : Fin 24) (m : Msg) : State :=
  s.modRx p fun r => { r with
    delivered := r.delivered ++ [m]
    keys := if m.hdr.vc = vcFwd ∨ m.hdr.vc = vcBwd then keepLast 1024 (r.keys ++ [m.hdr.key]) else r.keys }

/-- A message has failed a row: logged and answered, and the port's window is judged. -/
def State.failMsg (s : State) (p : Fin 24) (h : Header) (c : FirstCheck) : State :=
  match c with
  | .stale k => (s.bounce p h k false).quarCheck p
  | .fail code st w e cur => (s.reject p h code st w e cur).quarCheck p
  | _ => s

/-- Whether the flits so far disagree with LENGTH (row 0x0E). -/
def OpenMsg.wrongLength (o : OpenMsg) : Bool := if o.ended then o.flits != flitsOf o.hdr.length else flitsOf o.hdr.length ≤ o.flits

/-- A message whose header has passed, after one more flit: a wrong length discards it, its last flit delivers it. -/
def State.settleOpen (s : State) (p : Fin 24) (v : Fin 8) (o : OpenMsg) : State :=
  if o.discard then s.setOpened p v (if o.ended then none else some o)
  else if o.wrongLength then
    let s := s.setOpened p v (if o.ended then none else some { o with discard := true, held := none })
    (s.reject p o.hdr 0x0E stBadDescriptor).quarCheck p
  else if o.ended then (s.setOpened p v none).deliver p ⟨o.hdr, o.payload.take o.hdr.length⟩
  else s.setOpened p v (some o)

/-- Judge the message that stands at the head of a VC: taken, held, or discarded. Its flits are freed unless it is held. -/
def State.judge (s : State) (p : Fin 24) (v : Fin 8) (o : OpenMsg) : State :=
  match s.checkFirst p o.hdr o.payload with
  | .take => (s.freeFlits p v o.flits).settleOpen p v { o with held := none }
  | .hold job full =>
    if o.wrongLength then (s.freeFlits p v o.flits).settleOpen p v { o with held := none }
    else
      let t := match o.held with
        | some t => t
        | none => s.aon
      s.setOpened p v (some { o with held := some t, job := job, full := full })
  | .silent => (s.freeFlits p v o.flits).settleOpen p v { o with held := none, discard := true }
  | c => ((s.freeFlits p v o.flits).settleOpen p v { o with held := none, discard := true }).failMsg p o.hdr c

/-- A CONT flit with no open message, or a FIRST while one is open (row 0x02). -/
def State.flitOrder (s : State) (p : Fin 24) (v : Fin 8) (o : Option OpenMsg) : State :=
  let viol : Viol := match o with
    | some o => violOf o.hdr 0x02 1
    | none => { code := 0x02, vc := v.1 }
  let s := s.violate p viol
  let s := match o with
    | some o => if o.discard then s else s.nack p o.hdr stBadDescriptor 0x02
    | none => s
  s.quarCheck p

/-- A DATA flit at the head of its VC. -/
def State.takeFlit (s : State) (p : Fin 24) (v : Fin 8) (f : RxFlit) : State :=
  let r := (s.port p).rx
  match vget r.opened v, f.first with
  | none, false =>
    if vget r.skip v then (s.freeFlits p v 1).modRx p fun r => { r with skip := vset r.skip v (!f.eom) }
    else (s.freeFlits p v 1).flitOrder p v none
  | some o, false =>
    let o := { o with flits := o.flits + 1, ended := f.eom, payload := if o.discard then o.payload else o.payload ++ f.body }
    if o.held.isSome then
      if o.wrongLength then (s.freeFlits p v o.flits).settleOpen p v { o with held := none } else s.setOpened p v (some o)
    else (s.freeFlits p v 1).settleOpen p v o
  | open_, true =>
    let s := match open_ with
      | some o => ((s.freeFlits p v (if o.held.isSome then o.flits else 0)).setOpened p v none).flitOrder p v (some o)
      | none => s
    let s := s.modRx p fun r => { r with skip := vset r.skip v false }
    let h := Header.parse f.body
    let o : OpenMsg := ⟨h, f.body.drop 48, 1, false, f.eom, none, false, false⟩
    if !(s.port p).phy.vcs.getLsbD v.1 ∨ h.vc ≠ v.1 then
      (((s.freeFlits p v 1).settleOpen p v { o with discard := true }).reject p { h with vc := v.1 } 0x04 stBadDescriptor).quarCheck p
    else s.judge p v o

/-- Whether the head of a VC is held and complete, so that later flits wait behind it. -/
def LinkRx.blocked (r : LinkRx) (v : Fin 8) : Bool := match vget r.opened v with
  | some o => o.held.isSome && o.ended
  | none => false

/-- Take the flits that waited behind a message that has gone. -/
def State.drainVc : Nat → State → Fin 24 → Fin 8 → State
  | 0, s, _, _ => s
  | n + 1, s, p, v =>
    let r := (s.port p).rx
    match vget r.buffer v with
    | [] => s
    | f :: rest =>
      if r.blocked v then s
      else State.drainVc n ((s.modRx p fun r => { r with buffer := vset r.buffer v rest }).takeFlit p v f) p v

/-- Flits in a VC's receive buffer: those of a held message and those behind it. -/
def LinkRx.occupied (r : LinkRx) (v : Fin 8) : Nat :=
  (vget r.buffer v).length + match vget r.opened v with
    | some o => if o.held.isSome then o.flits else 0
    | none => 0

/-- The flits of a list up to the message that its end leaves open, and that message's flits. -/
def cutOpen (l : List RxFlit) : List RxFlit × List RxFlit :=
  let n := ((l.reverse.takeWhile fun f => !f.eom)).length
  (l.take (l.length - n), l.drop (l.length - n))

/-- A flit on a VC whose buffer is full (row 0x05): it and its message are discarded. -/
def State.overrun (s : State) (p : Fin 24) (v : Fin 8) (f : RxFlit) : State :=
  let r := (s.port p).rx
  let (keep, gone) := cutOpen (vget r.buffer v)
  let s := s.freeFlits p v 1
  let say := fun (s : State) (h : Header) => (s.reject p h 0x05 stNotPermitted).quarCheck p
  if f.first then say (s.modRx p fun r => { r with skip := vset r.skip v (!f.eom) }) (Header.parse f.body)
  else if r.blocked v then
    let s := (s.freeFlits p v gone.length).modRx p fun r => { r with buffer := vset r.buffer v keep, skip := vset r.skip v (!f.eom) }
    match gone with
    | g :: _ => if g.first then say s (Header.parse g.body) else s.flitOrder p v none
    | [] => if vget r.skip v then s else s.flitOrder p v none
  else match vget r.opened v with
    | some o => say ((s.freeFlits p v o.flits).setOpened p v (if f.eom then none else some { o with held := none, discard := true })) o.hdr
    | none => s

/-- A DATA flit in sequence: to the head of its VC, or behind a held message. -/
def State.dataFlit (s : State) (p : Fin 24) (v : Fin 8) (f : RxFlit) : State :=
  let r := (s.port p).rx
  if vcBuffer ≤ r.occupied v then s.overrun p v f
  else if r.blocked v then
    if vget r.skip v && !f.first then (s.freeFlits p v 1).modRx p fun r => { r with skip := vset r.skip v (!f.eom) }
    else s.modRx p fun r => { r with buffer := vmod r.buffer v fun l => l ++ [f], skip := vset r.skip v false }
  else s.takeFlit p v f

/-! ## Receiving a flit (R183, R189) -/

/-- Ask for a replay, once per gap. -/
def State.gap (s : State) (p : Fin 24) : State :=
  if (s.port p).rx.nakSent then s
  else (s.modRx p fun r => { r with nakSent := true }).modTx p fun t => { t with nakNow := true }

/-- Count an uncorrectable codeword of a wavelength; the eighth of a window fails it (R192). -/
def State.fecFail (s : State) (p : Fin 24) (lam : Fin 8) : State :=
  let w := s.aon / 2 ^ 15
  let l := (List.range 8).map fun i => (s.port p).phy.uncorr.getD i ⟨w, 0⟩
  let old := l.getD lam.1 ⟨w, 0⟩
  let n := (if old.win = w then old.n else 0) + 1
  let s := s.modPort p fun x => { x with
    linkErr := fsat linkErrFecUncorr 1 x.linkErr, phy := { x.phy with uncorr := l.set lam.1 ⟨w, n⟩ } }
  if n = 8 then s.lambdaFail p true lam else s

/-- Whether a CTL body has a known subtype and zeros in every byte that Table 10-6 does not list. -/
def ctlGood (b : List Byte) : Bool :=
  let zeros := fun (from_ : Nat) => allZero (b.drop from_)
  match byteAt b 0 with
  | 1 => byteAt b 1 == 1 && allZero (slice b 2 2) && zeros 20
  | 2 => byteAt b 1 == 0 && zeros 4
  | 3 => zeros 4
  | 4 => zeros 3
  | 5 => allZero (slice b 1 3) && zeros 8
  | 6 => allZero (slice b 1 3) && zeros 8
  | _ => false

/-- A CTL flit: what waits already is the same flit from another wavelength (R190); a step request is never repeated. -/
def State.ctlFlit (s : State) (p : Fin 24) (b : List Byte) : State :=
  if !ctlGood b then (s.violate p { code := 0x03, kind := byteAt b 0 }).quarCheck p
  else if byteAt b 0 ≠ ctlSubFfe ∧ (s.port p).rx.ctlIn.contains b then s
  else s.modRx p fun r => { r with ctlIn := r.ctlIn ++ [b] }

/-- The states in which DATA flits are taken. -/
def State.takesData (s : State) (p : Fin 24) : Bool :=
  s.carries p || s.portState p == pstRetrain || s.portState p == pstQuarantined

/-- TERTI_FLIT_RECEIVE. -/
def doFlitReceive (p : Fin 24) (lam : Fin 8) (fecOk : Bool) (flit : List Byte) (s : State) : State :=
  let st := s.portState p
  if st = pstOff ∨ st = pstLost then s
  else
    let s := if fecOk then s else s.fecFail p lam
    if !fecOk || !flitGood flit then
      (s.modPort p fun x => { x with linkErr := fsat linkErrCrcErr 1 x.linkErr }).gap p
    else
      let h := FlitHead.parse flit
      let body := slice flit 8 244
      let s := s.modRx p fun r => { r with flits := r.flits + 1 }
      let s := s.modTx p fun t => { t with freed := match fin? 8 h.cvc with
        | some c => vset t.freed c h.cfree
        | none => t.freed }
      let s := s.acked p h.ack
      let s := if h.nak then s.startReplay p else s
      if h.type = ftCtl then s.ctlFlit p body
      else if !(h.type = ftFirst ∨ h.type = ftCont) ∨ !s.takesData p then s
      else
        let e := (s.port p).rx.expect
        let d := (h.seq + 65536 - e) % 65536
        if d = 0 then
          let s := s.modRx p fun r => { r with expect := (e + 1) % 65536, nakSent := false }
          match fin? 8 h.vc with
          | some v => s.dataFlit p v ⟨h.type == ftFirst, h.eom, body⟩
          | none => s
        else if d ≤ 511 then s.gap p
        else if 65024 ≤ d then s
        else (s.sendCtl p (s.syncBody p)).violate p { code := 0x01, vc := h.vc } |>.quarCheck p

/-! ## Held messages (R198) -/

/-- The epoch of a held message that is one ahead, and this device's. -/
def State.heldEpochs (s : State) (h : Header) : Word × Word :=
  if h.vc = vcFwd ∨ h.vc = vcBwd then
    match s.roleOf h.stage with
    | some r => (h.roleEpoch, s.roleEpoch r)
    | none => (h.roleEpoch, 0)
  else match s.activeGroup h.group with
    | some (_, e) => if h.layoutEpoch = e.layout then (h.membEpoch, e.memb) else (h.layoutEpoch, e.layout)
    | none => match s.stagedGroup h.group with
      | some (_, e) => (h.layoutEpoch, e.layout)
      | none => (0, 0)

/-- MESSAGE_HOLD_EXPIRY. A message that waits for room in staging has no limit: waiting loses nothing (R243). -/
def doMessageHoldExpiry (p : Fin 24) (v : Fin 8) (s : State) : State :=
  match vget (s.port p).rx.opened v with
  | none => s
  | some o => match o.held with
    | none => s
    | some t =>
      if o.full ∨ s.inGrace p t then s
      else
        let (e, c) := if o.job then (0, 0) else s.heldEpochs o.hdr
        let s := (s.freeFlits p v o.flits).settleOpen p v { o with held := none, discard := true }
        let s := (s.reject p o.hdr 0x0B stNotPermitted 0 e c).quarCheck p
        State.drainVc vcBuffer s p v

/-- Check every held message again, as at every adoption (R198), at an ARM, and when hub staging has room. -/
def State.recheckHolds (s : State) : State :=
  forEach (allFin 24) (fun s p => forEach (allFin 8) (fun s v =>
    match vget (s.port p).rx.opened v with
    | some o => if o.held.isSome then State.drainVc vcBuffer (s.judge p v o) p v else s
    | none => s) s) s

/-! ## Sending flits (R187, R188) -/

/-- The VCs that share what VC_CTL and VC_MGT leave, and their weights; 0 is treated as 1 (Table 10-16). -/
def rrVcs : List (Fin 8) := [0, 1, 2, 3, 4, 6]

def Port.weightOf (x : Port) (v : Fin 8) : Nat :=
  let i := if v.1 = 6 then 5 else v.1
  max 1 (nbits x.vcWeight.toNat (4 * i + 3) (4 * i))

/-- Credit of a VC. -/
def Port.credit (x : Port) (v : Fin 8) : Nat :=
  let size := match x.phy.partner with
    | some q => q.bufs.getD v.1 0
    | none => 0
  size - (vget x.tx.sent v + 512 - vget x.tx.freed v % 512) % 512

/-- Whether a message goes out on a QUARANTINED port: only NACKs. -/
def OutMsg.isNack (m : OutMsg) : Bool := m.msg.hdr.kind == kNack

/-- The message that a VC sends from: the one under way, or the next. -/
def Port.current (x : Port) (v : Fin 8) : Option Sending :=
  match vget x.tx.sending v with
  | some y => some y
  | none => ((vget x.tx.queues v).head?).map fun m => ⟨m, m.msg.payload, false⟩

/-- Whether a VC may send a DATA flit now. -/
def Port.ready (x : Port) (quarantined : Bool) (v : Fin 8) : Bool :=
  x.phy.vcs.getLsbD v.1 && decide (1 ≤ x.credit v) && match x.current v with
    | some y => !quarantined || y.out.isNack
    | none => false

/-- The VC chosen by R188, points 2 to 4, and the round-robin state after it. -/
def Port.choose (x : Port) (quarantined : Bool) : Option (Fin 8 × LinkTx) :=
  let t := x.tx
  if x.ready quarantined 5 then some (5, t)
  else if x.ready quarantined 7 then some (7, t)
  else
    let k := t.rrVc % 6
    let order := rrVcs.drop k ++ rrVcs.take k
    let can := order.filter fun v => x.ready quarantined v
    if can.isEmpty then none
    else
      let t := if can.any fun v => vget t.rrLeft v != 0 then t else { t with rrLeft := vmap t.rrLeft fun v _ => x.weightOf v }
      match can.find? fun v => vget t.rrLeft v != 0 with
      | none => none
      | some v =>
        let left := vget t.rrLeft v - 1
        let i := if v.1 = 6 then 5 else v.1
        some (v, { t with rrLeft := vset t.rrLeft v left, rrVc := if left = 0 then (i + 1) % 6 else i })

/-- Put a flit on the fibre: its header carries the acknowledgement, one VC's freed count, and a request for replay. -/
def State.sendFlit (s : State) (p : Fin 24) (seq vc type : Nat) (eom : Bool) (body : List Byte) : State :=
  let x := s.port p
  let on := maskBits x.phy.vcs
  let cvc := match on.find? fun v => x.tx.cvc ≤ v with
    | some v => v
    | none => on.headD 0
  let freed := match fin? 8 cvc with
    | some v => vget x.rx.freed v
    | none => 0
  let h : FlitHead := ⟨seq, x.rx.expect, cvc, freed, x.tx.nakNow, vc, type, eom⟩
  (s.modTx p fun t => { t with cvc := cvc + 1, nakNow := false, flits := t.flits + 1 }).emit (.flit p (flitBytes h body))

def State.sendIdle (s : State) (p : Fin 24) : State := s.sendFlit p 0 0 ftIdle false []

/-- Send the next flit of a VC's message and hold it for replay (R184, R189). -/
def State.sendData (s : State) (p : Fin 24) (v : Fin 8) (t : LinkTx) : State :=
  match (s.port p).current v with
  | none => s
  | some y =>
    let n := if y.begun then contBytes else firstBytes
    let body := padTo 244 (if y.begun then y.rest.take n else y.out.msg.hdr.bytes ++ y.rest.take n)
    let rest := y.rest.drop n
    let eom := rest.isEmpty
    let f : HeldFlit := ⟨t.nextSeq, !y.begun, v.1, eom, body⟩
    let queue := if (vget t.sending v).isSome then vget t.queues v else (vget t.queues v).tail
    let s := s.modTx p fun _ => { t with
      nextSeq := (t.nextSeq + 1) % 65536
      replay := t.replay ++ [f]
      ackTick := if t.replay.isEmpty then s.aon else t.ackTick
      sent := vmod t.sent v fun n => (n + 1) % 512
      queues := vset t.queues v queue
      sending := vset t.sending v (if eom then none else some ⟨y.out, rest, true⟩)
      unacked := if eom then t.unacked ++ [⟨y.out, t.nextSeq⟩] else t.unacked }
    s.sendFlit p f.seq v.1 (if f.first then ftFirst else ftCont) eom body

/-- Entries of the replay buffer (R189). -/
def replayEntries : Nat := 512

/-- TERTI_FLIT_TRANSMIT: the next flit, in the order of R188. At least one flit of 4,096 is IDLE (R182). -/
def doFlitTransmit (p : Fin 24) (s : State) : State :=
  let st := s.portState p
  let x := s.port p
  if st = pstOff ∨ st = pstLost then s
  else if x.tx.flits % 4096 = 4095 then s.sendIdle p
  else match x.tx.ctlOut with
  | b :: rest => (s.modTx p fun t => { t with ctlOut := rest }).sendFlit p 0 0 ftCtl false b
  | [] =>
    let quar := st == pstQuarantined
    if !(s.carries p || quar) then s.sendIdle p
    else match x.tx.resend with
    | f :: rest => (s.modTx p fun t => { t with resend := rest }).sendFlit p f.seq f.vc (if f.first then ftFirst else ftCont) f.eom f.body
    | [] =>
      if replayEntries ≤ x.tx.replay.length then s.sendIdle p
      else match x.choose quar with
      | some (v, t) => s.sendData p v t
      | none => s.sendIdle p

/-! ## NACKs (R201) -/

/-- NACK_SEND: the first waiting NACK is handed to VC_CTL while the port carries and has credit; a QUARANTINED port answers too (R203). -/
def doNackSend (p : Fin 24) (s : State) : State :=
  let x := s.port p
  match x.nacks with
  | [] => s
  | m :: rest =>
    if !(s.carries p ∨ s.portState p = pstQuarantined) ∨ x.credit 5 = 0 then s
    else (s.modPort p fun y => { y with nacks := rest }).send p m .mcp

def lgNack : Nat := 16

/-- NACK: to the unit that sent the message that failed. Of a kind whose unit has no rule for it, the port's event log tells. -/
def doNack (p : Fin 24) (s : State) : State :=
  match s.takeMsg p kNack with
  | none => s
  | some (m, s) =>
    let k := nkKind m.payload
    let s := s.log (.port p) lgNack [k, (nkStatus m.payload).toNat]
    if k = kFwdAct ∨ k = kBwdGrad ∨ k = kMbDrop then s.sleNack m
    else if k = kShardReq then s.shardNack p m.hdr.wver (nkStatus m.payload)
    else s

/-- MGMT_MESSAGE: a management message is delivered to the MCP (R185). -/
def doMgmtMessage (p : Fin 24) (s : State) : State :=
  let mine := fun (m : Msg) => decide (m.hdr.vc = vcMgt)
  match (s.port p).rx.delivered.find? mine with
  | none => s
  | some m => { s.modRx p fun r => { r with delivered := dropFirst mine r.delivered } with mail := s.mail ++ [(p, m)] }

/-! ## PROMOTE (R270, spec 15 Tables 15-11, 15-14) -/

/-- The bindings of a promotion block: none for a reserved value. -/
def parseBindings (b : List Byte) : Option (List (Nat × Word)) :=
  let one := fun (j : Nat) => slice b (64 + 8 * j) 8
  let ok := (List.range 24).all fun j => byteAt (one j) 5 ≤ 1 && allZero (slice (one j) 6 2)
  if !ok then none
  else some ((List.range 24).filterMap fun j =>
    if byteAt (one j) 5 = 0 then none else some (byteAt (one j) 4, bytesWord (one j) 0))

/-- Train a port that is enabled; what it had not delivered goes back. -/
def State.promoTrain (s : State) (p : Fin 24) : State :=
  let st := s.portState p
  if st = pstOff ∨ st = pstTraining then s
  else
    let l := (s.port p).tx.pendingMsgs
    (s.trainPort p).unitsPortLost p l

/-- PROMOTE, phase 1. Like SET_IDENTITY it needs a device without roles and groups (R206). -/
def doPromote (h : Quad) (src : HostData) (s : State) : State :=
  match s.begins h 0x32 with
  | none => s
  | some c =>
    let s := s.running h
    let set := (allFin 4).any (fun r => s.roleUsed r) || (allFin 64).any fun i => (s.grp i).active.isSome || (s.grp i).staged.isSome
    if s.fr.promotion.isSome || set then s.denied h dtState
    else s.withSource h (c.arg 16 8) 256 src fun b s =>
      match parseSources b, parseBindings b with
      | some l, some bs =>
        let pos := BitVec.ofNat 32 (c.arg 8 4)
        let named := bs ++ l.map fun x => (x.port.1, x.pos)
        let odd := sourcesOdd b || named.any fun x => (port? x.1).isNone
        if odd ∨ l.isEmpty ∨ pos = noPos ∨ clashing (named ++ s.otherBindings) then s.bad h dtArgument
        else
          let p : Promotion :=
            { handle := h, isFill := false, phase := 1, position := pos, former := s.job.identity, version := noPos, sources := l
              current := 0, wait := .idle, inbuf := [], located := [], fromCopy := false, verified := false, record := [], todo := []
              filled := [], offset := 0, bytes := 0, since := s.aon, heard := false, failure := 0 }
          let s := (s.modJob fun j => { j with identity := pos }).setExpects named
          let s := forEach ((allFin 24).filter fun q => named.any fun x => x.1 == q.1) (fun s q => s.promoTrain q) s
          (s.modFr fun x => { x with promotion := some p }).promoProgress
      | _, _ => s.bad h dtReserved

end Sys2Proof.Machine
end

