-- ==== Sys2Proof/Machine/Maint.lean ====
section
/-!
DEFINITION. The maintenance activities (spec 19): MARCH with its engine and column repair (spec 07 R143 to R147), SCRUB, the four kinds
of CALIBRATE, FUSE_READ and DIE_RESET as host commands, their ends, and a stall that reaches its budget (R335).
-/
namespace Sys2Proof.Machine

/-! ## Column repair (spec 07 R143, spec 21 R349) -/

/-- Redundant columns of a bank. -/
def spareColumns : Nat := 16

/-- Columns without a spare, columns replaced, and SPAD.REPAIR or HUBSRAM.REPAIR. -/
structure Columns where
  bad    : List (Nat × Nat)
  spares : List (Nat × Nat)
  reg    : Quad
deriving DecidableEq, Repr

/-- Replace a failing column while its bank has a spare; otherwise it stays. -/
def Columns.add (c : Columns) (x : Nat × Nat) : Columns :=
  if c.bad.contains x || c.spares.contains x then c
  else if (c.spares.filter fun y => y.1 == x.1).length < spareColumns then
    { c with spares := c.spares ++ [x], reg := fsat repairSpared 1 c.reg }
  else { c with bad := c.bad ++ [x] }

/-- The banks with an unrepaired column, and the first of them. -/
def Columns.sync (c : Columns) : Columns :=
  let banks := (c.bad.map (·.1)).eraseDups
  let first := banks.foldl min 0xFF
  let bits := (c.bad.filter fun x => x.1 == first).map (·.2)
  { c with reg := fput repairUnrepaired banks.length (fput repairFirstBank first (fput repairFirstBit (bits.foldl min 0xFF) c.reg)) }

/-- Apply R143 to the columns that a march found. -/
def Columns.repair (c : Columns) (l : List (Nat × Nat)) : Columns := (l.foldl Columns.add c).sync

def Die.columns (d : Die) : Columns := ⟨d.badCols, d.spares, d.regs.repair⟩
def Die.setColumns (d : Die) (c : Columns) : Die :=
  { d with badCols := c.bad, spares := c.spares, regs := { d.regs with repair := c.reg } }
def HubMem.columns (h : HubMem) : Columns := ⟨h.badCols, h.spares, h.repair⟩
def HubMem.setColumns (h : HubMem) (c : Columns) : HubMem := { h with badCols := c.bad, spares := c.spares, repair := c.reg }

/-! ## March lists (spec 07 Table 7-5) -/

def opR0 : Nat := 0
def opR1 : Nat := 1
def opW0 : Nat := 2
def opW1 : Nat := 3

/-- An element from its order and operations. -/
def marchElem (order : Nat) (ops : List Nat) : Word :=
  BitVec.ofNat 32 (order * 2 ^ 30 + ops.length * 2 ^ 27 + (ops.zipIdx.map fun x => x.1 * 2 ^ (3 * x.2)).sum)

def marchMats : List Word := [marchElem 0 [opW0], marchElem 1 [opR0, opW1], marchElem 2 [opR1, opW0]]

def marchC : List Word :=
  [marchElem 0 [opW0], marchElem 1 [opR0, opW1], marchElem 1 [opR1, opW0], marchElem 2 [opR0, opW1], marchElem 2 [opR1, opW0],
   marchElem 0 [opR0]]

/-- March SS, which the spec names and does not print: PRESUMED from the literature (log entry 44). -/
def marchSs : List Word :=
  [marchElem 0 [opW0], marchElem 1 [opR0, opR0, opW0, opR0, opW1], marchElem 1 [opR1, opR1, opW1, opR1, opW0],
   marchElem 2 [opR0, opR0, opW0, opR0, opW1], marchElem 2 [opR1, opR1, opW1, opR1, opW0], marchElem 0 [opR0]]

/-- The operations of an element. -/
def elemOps (w : Word) : List Nat := (List.range (nbits w.toNat 29 27)).map fun i => nbits w.toNat (3 * i + 2) (3 * i)

/-- Whether an element has a reserved code. -/
def elemBad (w : Word) : Bool :=
  let n := nbits w.toNat 29 27
  nbits w.toNat 31 30 == 3 || n == 0 || n == 7 || nbits w.toNat 26 18 != 0 || (elemOps w).any fun o => decide (6 ≤ o)

/-- What every word holds after a list: none where it writes nothing. -/
def marchLast (l : List Word) (bg : Quad) : Option Quad :=
  match ((l.map elemOps).flatten.filter fun o => o == opW0 || o == opW1).getLast? with
  | none => none
  | some o => some (if o = opW0 then bg else ~~~bg)

/-! ## What a march does to memory (R144) -/

/-- The bank group of a scrupulous word address of a die: eight banks of the banked region, or the twin region. -/
def dieGroup (w : Nat) : Nat := if twinBase ≤ 8 * w then 16 else nbits (8 * w) 14 8 / 8

/-- The bank group of a word of hub SRAM. -/
def hubGroup (w : Nat) : Nat := (8 * w / 128) % 92 / 4

/-- Write a value to every word of a range that a test accepts. -/
def wmFill (m : WordMem) (first n : Nat) (p : Nat → Bool) (v : Quad) : WordMem :=
  (List.range n).foldl (fun m i =>
    let w := first + i
    if p w then { m with ram := (m.ram.wrs (8 * w) (natLe 8 v.toNat)).setMark w none } else m) m

/-- A preserving march reads every word and writes it back: what was correctable is corrected, what was poisoned stays so. -/
def wmRestore (m : WordMem) (p : Nat → Bool) : WordMem :=
  (m.ram.marks.map (·.1)).foldl (fun m w =>
    if p w then
      let (m, bs) := wmRead m (8 * w) 8
      (wmWrites m 0 (8 * w) bs).1
    else m) m

/-- The effect of a march on its memory. The adding words of the semaphores have no storage of their own. -/
def State.marchMemory (s : State) (target : Nat) (preserve : Bool) (l : List Word) (g : BitVec 32) (bg : Quad) : State :=
  match fin? 4 target with
  | some d =>
    let named := fun (w : Nat) => g.getLsbD (dieGroup w)
    if preserve then s.modDie d fun x => x.setWords (wmRestore x.words named)
    else match marchLast l bg with
    | none => s
    | some v =>
      let data := fun (w : Nat) => named w && (semOfWord w).isNone && (addOfWord w).isNone
      s.modDie d fun x =>
        let x := x.setWords (wmFill x.words 0 (spadSize / 8) data v)
        if g.getLsbD 16 then (allFin 128).foldl (fun x i => x.semSet i (v.toNat % 2 ^ 32)) x else x
  | none =>
    let named := fun (w : Nat) => decide (8 * w < vaultBase) && g.getLsbD (hubGroup w)
    if preserve then s.modHub fun h => h.setWords (wmRestore h.words named)
    else match marchLast l bg with
    | none => s
    | some v => s.modHub fun h => h.setWords (wmFill h.words 0 (vaultBase / 8) named v)

/-! ## MARCH -/

/-- Bank groups of a target (R144): a die's seventeen, or the hub's twenty-three. -/
def marchGroups (target : Nat) : Nat := if target < 4 then 17 else 23

/-- Whether a list names an operation through port B without naming the twin region alone. -/
def marchPortB (target : Nat) (g : BitVec 32) (l : List Word) : Bool :=
  (l.any fun w => (elemOps w).any fun o => o == 4 || o == 5) && !(target < 4 && g == 0x10000#32)

/-- Whether the arguments of a MARCH are out of range. -/
def marchArgsBad (c : Command) : Bool :=
  let target := c.arg 8 1
  let g := c.arg 12 4
  let top := if target < 4 then 2 ^ 17 else 2 ^ 24
  4 < target || 3 < c.arg 10 1 || g == 0 || top ≤ g || (c.arg 10 1 == 0 && (c.arg 11 1 == 0 || 16 < c.arg 11 1))

/-- MARCH. A request that names the vault is refused (R144). Under SW4_COMPAT the low half of the background stands for both (R147). -/
def doMarch (h : Quad) (src : HostData) (s : State) : State :=
  s.start h 0x40 fun c s =>
    let target := c.arg 8 1
    let preserve := nbit (c.arg 9 1) 0
    let compat := nbit (c.arg 9 1) 1
    let g := BitVec.ofNat 32 (c.arg 12 4)
    let bg := if compat then c.arg 16 4 * (2 ^ 32 + 1) else c.arg 16 8
    let ask := fun (l : List Word) (s : State) =>
      if l.any elemBad then s.bad h dtReserved
      else if marchPortB target g l then s.bad h dtArgument
      else s.requestAct (some h) c.noqueue (.march target preserve compat l g (BitVec.ofNat 64 bg))
    if marchArgsBad c then s.bad h dtArgument
    else if target = 4 ∧ g.getLsbD 23 then s.denied h dtState
    else match c.arg 10 1 with
    | 1 => ask marchMats s
    | 2 => ask marchC s
    | 3 => ask marchSs s
    | _ => s.withSource h (c.arg 24 8) (4 * c.arg 11 1) src fun b s =>
      ask ((List.range (c.arg 11 1)).map fun i => bytesWord b (4 * i)) s

def lgMarch : Nat := 17

/-- The first failing read by position (R146). -/
def firstFail (l : List MarchFail) : Option MarchFail :=
  l.foldl (fun a x => match a with
    | none => some x
    | some y =>
      if x.element < y.element ∨ (x.element = y.element ∧ (x.op < y.op ∨ (x.op = y.op ∧ x.offset < y.offset))) then some x
      else some y) none

/-- MARCH_COMPLETE: memory is as the march leaves it, the first failure is logged, columns are repaired, and the command completes.
The spec gives the report no place in the record: its RESULT is free (log entry 45). -/
def doMarchComplete (id : Nat) (fails : List MarchFail) (s : State) : State :=
  match s.act? id with
  | some ⟨_, .march target preserve compat l g bg, h, _, _⟩ =>
    let s := s.marchMemory target preserve l g bg
    let cols := ((fails.map (·.columns)).flatten).eraseDups
    let s := match fin? 4 target with
      | some d => s.modDie d fun x => x.setColumns (x.columns.repair cols)
      | none => s.modHub fun x => x.setColumns (x.columns.repair cols)
    let s := s.endAct id
    let (code, ds) := match fin? 4 target with
      | some d => (partUnit d 8, [d])
      | none => (part 0 12, [])
    match firstFail fails, h with
    | none, some h => s.finalOk h ds
    | none, none => s
    | some f, h =>
      let off := if compat then f.offset / 4 else f.offset
      let s := s.log .hub lgMarch ([target, f.element, f.op, off, ((fails.map (·.offset)).eraseDups).length] ++
        (f.columns.map fun x => [x.1, x.2]).flatten)
      match h with
      | none => s
      | some h =>
        let (bs, s) := s.freshBytes 12
        s.final h stOkDegraded code { result := bs }
  | _ => s

/-! ## SCRUB, CALIBRATE, DIE_RESET, FUSE_READ -/

/-- SCRUB. -/
def doScrub (h : Quad) (s : State) : State :=
  s.start h 0x41 fun c s =>
    if c.arg 8 1 = 0 then s.bad h dtArgument else s.requestAct (some h) c.noqueue (.scrub (BitVec.ofNat 8 (c.arg 8 1)))

/-- The bundle that a part code names. -/
def bundleOf (code : Nat) : Option (Fin 80) := (allFin 80).find? fun b => (partBundle b).toNat == code

/-- The Terti port that a part code names. -/
def portOf (code : Nat) : Option (Fin 24) := if code / 4096 = 7 then fin? 24 (code % 4096) else none

/-- Whether a part code names a zone of Table 17-3: a die, the hub by a hub unit, a stack, or an optical engine. -/
def zoneCode (code : Nat) : Bool :=
  (code / 4096 == 0 && code % 4096 ≤ 14) || (code / 4096 == 1 && decide (code % 4096 < 4)) ||
  (code / 4096 == 3 && decide (code % 4096 < 8)) || (code / 4096 == 6 && decide (code % 4096 < 7))

/-- A CALIBRATE of a kind starts. -/
def State.calibrate (s : State) (h : Quad) (kind : Nat) (f : Command → State → State) : State :=
  match s.begins h 0x42 with
  | none => s
  | some c => if c.arg 8 1 = kind then f c (s.running h) else s

/-- CALIBRATE 0. -/
def doCalibrateRetrain (h : Quad) (s : State) : State :=
  s.calibrate h 0 fun c s => match bundleOf (c.arg 10 2) with
    | some b => s.requestAct (some h) c.noqueue (.retrain b)
    | none => s.bad h dtArgument

/-- CALIBRATE 1. -/
def doCalibrateCastling (h : Quad) (s : State) : State :=
  s.calibrate h 1 fun c s => match bundleOf (c.arg 10 2) with
    | some b => if 66 ≤ c.arg 12 1 then s.bad h dtArgument else s.requestAct (some h) c.noqueue (.castle b (c.arg 12 1))
    | none => s.bad h dtArgument

/-- Optical re-equalisations that have been admitted begin: the port retrains with all eight wavelengths (R194). -/
def State.startReeqs (s : State) : State :=
  forEach s.marb.running (fun s a => match a.kind with
    | .reeq p =>
      if s.carries p then (s.modPhy p fun y => { y with txGood := 0xFF, rxGood := 0xFF }).enterRetrain p 0xFF 0xFF else s
    | _ => s) s

/-- Optical re-equalisations whose port is no longer in RETRAIN have ended. -/
def State.endReeqs (s : State) : State :=
  forEach s.marb.running (fun s a => match a.kind with
    | .reeq p =>
      if s.portState p = pstRetrain then s
      else
        let s := s.endAct a.id
        match a.handle with
        | none => s
        | some h => if s.carries p then s.finalOkPorts h [p] else s.final h stPortLost (partPort p)
    | _ => s) s

/-- CALIBRATE 2. -/
def doCalibrateReeq (h : Quad) (s : State) : State :=
  s.calibrate h 2 fun c s => match portOf (c.arg 10 2) with
    | some p => (s.requestAct (some h) c.noqueue (.reeq p)).startReeqs
    | none => s.bad h dtArgument

/-- CALIBRATE 3. -/
def doCalibrateThermal (h : Quad) (s : State) : State :=
  s.calibrate h 3 fun c s =>
    if zoneCode (c.arg 10 2) then s.requestAct (some h) c.noqueue (.thermal (BitVec.ofNat 16 (c.arg 10 2))) else s.bad h dtArgument

/-- DIE_RESET. -/
def doDieReset (h : Quad) (s : State) : State :=
  s.start h 0x44 fun c s => match fin? 4 (c.arg 8 1) with
    | some d => s.requestAct (some h) c.noqueue (.dieReset d)
    | none => s.bad h dtArgument

/-- FUSE_READ (spec 18 R326). -/
def doFuseRead (h : Quad) (s : State) : State :=
  s.start h 0x43 fun c s =>
    if 5 < c.arg 8 1 then s.bad h dtArgument else s.requestAct (some h) c.noqueue (.fuse (c.arg 8 1) (c.arg 16 8))

/-- What a fuse bank holds, as the model lists it (spec 18 Table 18-3). -/
def Fuses.bank (f : Fuses) : Nat → List Nat
  | 0 => f.lifeWords ++ [f.rmaCount]
  | 1 => (f.keys.toList.map fun k => [k.rsa.toNat, k.slh.toNat, b2n k.fused]).flatten
  | 2 => (f.keys.toList.map fun k => b2n k.revoked) ++ [f.svn]
  | 3 => (f.columns.map fun x => [x.1, x.2.1, x.2.2]).flatten
  | 4 => (f.lanes.map fun x => [x.1, x.2]).flatten
  | _ => f.vf.flatten

/-- FUSE_READ_COMPLETE: the bank goes to its destination. How a bank lies in bytes is not given: a function of the bank's contents without a
body (log entry 6). -/
def doFuseReadComplete (s : State) : State :=
  let mine := s.marb.running.find? fun a => match a.kind with
    | .fuse _ _ => true
    | _ => false
  match mine with
  | some ⟨id, .fuse bank dest, h, _, _⟩ =>
    let bs := Config.fuseBytes bank (s.sec.fuses.bank bank)
    let (s, fail) := (s.endAct id).sink dest bs
    match h, fail with
    | none, _ => s
    | some h, some x => s.final h x.1 x.2
    | some h, none => s.finalOk h [] { result := natLe 4 bs.length }
  | _ => s

/-- MARB_ADMIT. -/
def doMarbAdmitAll (s : State) : State := (doMarbAdmit s).startReeqs

/-! ## Stall overruns (R335) -/

/-- MARB_STALL_OVERRUN: marches and scrubs cannot exceed their budgets. -/
def doStallOverrun (id : Nat) (s : State) : State :=
  match s.act? id with
  | none => s
  | some a =>
    let note := fun (s : State) => (s.modMarb fun m => { m with status := fsat marbOverrun 1 m.status }).log .hub lgOverrun [id]
    match a.kind with
    | .castle b lane =>
      let s := (note s).modBun b fun x => if x.st = bsCastling then { x.setSt x.former with cast := none } else x
      (s.ladder b lane).endBundleAct b
    | .retrain b => ((note s).disableBundle b).endBundleAct b
    | .reeq p => (note s).portLose p 9
    | _ => s

end Sys2Proof.Machine
end

