-- ==== Sys2Proof/Machine/Run.lean ====
section
/-!
DEFINITION. Programs as host commands (spec 06 R124 to R128), CANCEL (spec 15 R288), and what the block does of itself after
every command: faults stop programs, commands complete and the next ones start, bindings and held messages are judged again, and
status registers follow what they show. `ran` puts that after a command's own effect.
-/
namespace Sys2Proof.Machine

/-! ## Loading a program (R124, R125) -/

def imageMagic : Nat := 0x50385753

/-- The idle causes that SEMATTR may name. -/
def semCauses : List Nat := [0, 1, 2, 4, 5]

/-- Why an image is refused, if it is: `n` is the descriptor's byte count. -/
def imageBad (b : List Byte) (n : Nat) : Option Half :=
  let len := leAt b 4 4
  let attr := slice b 128 128
  if leAt b 0 4 ≠ imageMagic ∨ n ≠ 256 + 16 * len ∨ len = 0 ∨ len ≤ leAt b 8 4 ∨
      leAt b 16 4 ≠ (crc32c (slice b 256 (16 * len))).toNat then some dtCheck
  else if !allZero (slice b 20 108) ∨ attr.any fun x => nbit x.toNat 4 then some dtReserved
  else if attr.any fun x => !semCauses.contains (x.toNat % 16) then some dtCheck
  else none

/-- Whether two ranges of bytes meet. -/
def rangesMeet (a n b m : Nat) : Bool := a < b + m && b < a + n

/-- The images of programs that run or wait on a die, by base and length. -/
def State.imagesOn (s : State) (d : Fin 4) : List (Nat × Nat) :=
  let here := match (s.die d).seq.prog with
    | some p => [(p.base, 256 + 16 * p.len)]
    | none => []
  here ++ s.host.runs.filterMap fun r =>
    let y := vget r.dies d
    if y.st = .waiting then
      let head := (List.range 4).map fun i => (s.die d).byte (y.base + 4 + i)
      some (y.base, 256 + 16 * leNat head)
    else none

/-- The dies of a mask. -/
def maskDies (m : Nat) : List (Fin 4) := (allFin 4).filter fun d => nbit m d.1

/-- The measurement register takes in a loaded image, the die mask and the base (spec 18 R328; the byte order of a digest is log entry 8). -/
def State.measureImage (s : State) (image : List Byte) (mask base : Nat) : State :=
  let new := Config.sha384 (natLe 48 s.sec.measure.toNat ++ natLe 48 (Config.sha384 image).toNat ++ natLe 1 mask ++ natLe 4 base)
  s.modSec fun x => { x with measure := new }

/-- LOAD_PROGRAM. -/
def doLoadProgram (h : Quad) (src : HostData) (s : State) : State :=
  s.start h 0x10 fun c s =>
    let ds := maskDies (c.arg 16 1)
    let base := c.arg 20 4
    let n := c.arg 24 4
    if ds.isEmpty ∨ base % 256 ≠ 0 ∨ n < 256 then s.bad h dtArgument
    else if ds.any fun d => (s.imagesOn d).any fun x => rangesMeet base n x.1 x.2 then s.denied h dtRunning
    else match firstSome ds fun d => s.twinStatus d with
    | some x => s.final h x.1 x.2
    | none => s.withSource h (c.arg 8 8) n src fun b s =>
      let room := decide (base + n ≤ spadSize) && !rangesMeet base n twinBase 2048
      match if room then imageBad b n else some dtAddress with
      | some x =>
        let s := forEach ds (fun s d =>
          let (bs, s) := s.freshBytes (min n (spadSize - base))
          s.modDie d fun y => (y.write 0 base (bs.map some)).1) s
        s.bad h x
      | none =>
        let s := forEach ds (fun s d => s.modDie d fun y => (y.write 0 base (b.map some)).1) s
        let s := s.measureImage b (c.arg 16 1) base
        s.finalOk h ds { result := slice b 16 4 }

/-! ## Running a program (R126) -/

/-- A die's part of a command before it has started. -/
def DieRun.new (base : Nat) (st : DieRunState) : DieRun := ⟨base, st, false, 0, 0, 0, 0, 0, 0, none, false⟩

/-- RUN_PROGRAM: each named die's part waits for its turn. From IDLE the device goes to ACTIVE (spec 17 R309). -/
def doRunProgram (h : Quad) (s : State) : State :=
  s.start h 0x11 fun c s =>
    let ds := maskDies (c.arg 8 1)
    let base := fun (d : Fin 4) => c.arg (16 + 4 * d.1) 4
    let absent := ds.any fun d => !s.dieServes d && !s.dieFenced d
    if ds.isEmpty ∨ ds.any (fun d => base d % 256 ≠ 0 ∨ spadSize < base d + 256) then s.bad h dtArgument
    else if absent then s.denied h dtState
    else
      let part := fun (d : Fin 4) => DieRun.new (base d) (if ds.contains d then .waiting else .unnamed)
      let r : RunCmd := ⟨h, BitVec.ofNat 128 (c.arg 32 16), c.order, Vector.ofFn part, 0, none⟩
      let s := s.modPwc fun x => { x with state := if x.state = 1 then 0 else x.state }
      s.modHost fun x => { x with runs := x.runs ++ [r] }

/-- Whether an earlier RUN_PROGRAM that names the die is not yet final. -/
def State.earlierRun (s : State) (d : Fin 4) (order : Nat) : Bool :=
  s.host.cmds.any fun c => c.opc == 0x11 && c.order < order && c.st != .finished && nbit (c.arg 8 1) d.1 &&
    !(s.host.runs.any fun r => r.handle == c.handle && (vget r.dies d).st == .ended)

/-- Whether the program at a base passes the checks of R126, step 2. -/
def State.runChecks (s : State) (d : Fin 4) (head : List Byte) : Bool :=
  leAt head 0 4 == imageMagic && (allFin 4).all fun r =>
    let w := (s.mq r).cfgNow
    let cause := fun (f : Fld) => byteAt head (128 + fget f w) % 16
    !(s.roleUsed r && nbit (fget rcfgDies w) d.1) || (cause rcfgFsem == 1 && cause rcfgBsem == 2)

/-- Start a command's part on a die. -/
def State.startRun (s : State) (d : Fin 4) (r : RunCmd) : State :=
  let base := (vget r.dies d).base
  let (s, x) := s.readSpad d [] base 256
  let head := x.data
  let p : DieProgram := ⟨r.handle, base, leAt head 4 4, leAt head 12 4, slice head 128 128⟩
  let s := (s.modSeq d fun q => { q with prog := some p, stopped := false, wait := none, due := none }).modRun r.handle fun r =>
    { r with dies := vmod r.dies d fun y => { y with st := .running } }
  if !s.runChecks d head then s.raise d ⟨1, 0, 0, unitSeq, BitVec.ofNat 24 (base / 16), stBadDescriptor, partUnit d unitSeq⟩
  else
    let keep := fun (i : Fin 128) => nbit (byteAt head (128 + i.1)) 5
    let s := s.modDie d fun y => (allFin 128).foldl (fun y i => if keep i then y else y.semSet i 0) y
    s.modSeq d fun q => { q with
      pc := BitVec.ofNat 24 ((base + 256) / 16 + leAt head 8 4), loops := Vector.replicate 16 0, seed := r.seed }

/-- The command whose part starts next on a die without a program: the first accepted, once no earlier one is left. -/
def State.nextRunOn (s : State) (d : Fin 4) : Option RunCmd :=
  s.host.runs.find? fun r => (vget r.dies d).st == .waiting && !s.earlierRun d r.order

/-! ## Stopping a program (R127) -/

/-- Record a stop in SEQ.FAULT; the first stands. A fenced die's is kept in the hub's copy too (spec 09 R177). -/
def faultWord (f : FaultInfo) : Quad :=
  fput seqFaultValid 1 (fput seqFaultCause f.cause (fput seqFaultOpc f.opc (fput seqFaultFn f.fn (fput seqFaultEngine f.engine
    (fput seqFaultPc f.pc.toNat 0)))))

def State.recordFault (s : State) (d : Fin 4) (f : FaultInfo) : State :=
  s.modDie d fun x =>
    let put := fun (w : Quad) => if fon seqFaultValid w then w else faultWord f
    { x with regs := { x.regs with fault := put x.regs.fault }, copy := { x.copy with fault := put x.copy.fault } }

/-- A stop as a part of a command keeps it: the first counts, and a stop after END but before the last completion undoes END. -/
def DieRun.stop (y : DieRun) (f : FaultInfo) : DieRun :=
  if y.cause ≠ 0 then y
  else { y with cause := f.cause, status := f.status, part := f.part, pc := f.pc, opc := BitVec.ofNat 8 f.opc
                fn := BitVec.ofNat 8 f.fn, byEnd := false }

/-- Stop the program of a die: dispatch ends, queued instructions go, slots and votes learn of it (R127, spec 12 R223, spec 14 R266). -/
def State.stopDie (s : State) (d : Fin 4) (f : FaultInfo) : State :=
  match (s.die d).seq.prog with
  | none => s.recordFault d f
  | some p =>
    let s := (s.recordFault d f).modSeq d fun q => { q with
      stopped := true, wait := none, mxaQ := [], vxeQ := [], movQ := [], trnQ := [], rngQ := [] }
    let s := s.modRun p.handle fun r => { r with dies := vmod r.dies d fun y => y.stop f }
    let s := s.slotsOfStopped d (if f.cause = 9 then dcDieLost else dcProgram)
    forEach (allFin 4) (fun s r => if nbit (fget rcfgDies (s.mq r).cfgNow) d.1 then s.noVote r else s) s

def peerStop (pc : BitVec 24) : FaultInfo := ⟨0xA, 0, 0, unitSeq, pc, 0, 0⟩

/-- PEER_STOP to the other dies of a command; one that waits does not start. -/
def State.stopPeers (s : State) (h : Quad) (d : Fin 4) : State :=
  match s.host.runs.find? fun r => r.handle == h with
  | none => s
  | some r =>
    forEach ((allFin 4).filter fun e => e != d) (fun s e =>
      let y := vget r.dies e
      if y.st = .running then (if y.cause = 0 then s.stopDie e (peerStop (s.die e).seq.pc) else s)
      else if y.st = .waiting then s.modRun h fun r =>
        { r with dies := vmod r.dies e fun y => { y.stop (peerStop 0) with st := .ended } }
      else s) s

/-- Act on the fault that a die has met. -/
def State.actFault (s : State) (d : Fin 4) : State :=
  match (s.die d).seq.due with
  | none => s
  | some f =>
    let s := s.modSeq d fun q => { q with due := none }
    let first := match (s.die d).seq.prog with
      | some p => (s.host.runs.find? fun r => r.handle == p.handle).map fun r => (p.handle, (vget r.dies d).cause == 0)
      | none => none
    let s := s.stopDie d f
    match first with
    | some (h, true) => s.stopPeers h d
    | _ => s

/-- A stopped program has ended: every started instruction has completed; on a fenced die at once. -/
def State.endDie (s : State) (d : Fin 4) : State :=
  let x := s.die d
  match x.seq.prog with
  | none => s
  | some p =>
    if !x.seq.stopped || !(x.quiet || s.dieFenced d) then s
    else (s.modSeq d fun q => { q with prog := none, stopped := false, wait := none }).modRun p.handle fun r =>
      { r with dies := vmod r.dies d fun y => { y with st := .ended } }

/-- A part that waits for a fenced die ends with DIE_LOST, and stops the others. -/
def State.endFenced (s : State) (d : Fin 4) : State :=
  if !s.dieFenced d then s
  else forEach s.host.runs (fun s r =>
    if (vget r.dies d).st = .waiting then
      let s := s.modRun r.handle fun r => { r with dies := vmod r.dies d fun y =>
        { y.stop ⟨9, 0, 0, unitSeq, 0, stDieLost, partDie d⟩ with st := .ended } }
      s.stopPeers r.handle d
    else s) s

/-! ## Completing the command (R127, R128) -/

/-- The statuses of R128 in order. -/
def runOrder : List Half := [stDieLost, stStackLost, stBadDescriptor, stPoisoned, stCancelled, stNonfinite]

/-- The statuses that a part brings. -/
def DieRun.statuses (y : DieRun) : List Half :=
  (match y.lost with
    | some l => [l.1]
    | none => []) ++
  (if y.cause = 0 then (if y.skipped then [stNonfinite] else []) else if y.cause = 0xA then [] else [y.status])

/-- Whether a part has faulted: PEER_STOP is another die's fault. -/
def DieRun.faulted (y : DieRun) : Bool := y.cause != 0 && y.cause != 0xA

/-- Byte 6 of the result: the dies that faulted, and those that ended by END. -/
def RunCmd.endByte (r : RunCmd) : Nat :=
  (maskOf 4 (((allFin 4).filter fun d => (vget r.dies d).faulted).map (·.1))).toNat +
  16 * (maskOf 4 (((allFin 4).filter fun d => (vget r.dies d).byEnd).map (·.1))).toNat

/-- The part of a stage link or group, of a role that a program on these dies uses, that is reduced: the port of a PARTIAL link that does
not carry (spec 12 R235), or a DEGRADED port (spec 10 R194). -/
def State.rolePart (s : State) (ds : List (Fin 4)) : Option Half :=
  firstSome (allFin 4) fun r =>
    if !(s.roleUsed r && ds.any fun d => nbit (fget rcfgDies (s.mq r).cfgNow) d.1) then none
    else
      let links := [s.link r .bwd, s.link r .fwd]
      let away := firstSome links fun l =>
        if s.linkState l = lkPartial then
          firstSome (allFin 24) fun p => if l.ports.contains p.1 && !s.carries p then some (partPort p) else none
        else none
      let groups := (allFin 64).filterMap fun i => match (s.grp i).active with
        | some e => if e.role = r.1 then some e else none
        | none => none
      let used := (links.filter StageLink.exists_).flatMap StageLink.ports ++ groups.flatMap fun e => [e.prevPort, e.nextPort]
      away.or (firstSome (allFin 24) fun p =>
        if used.contains p.1 && s.portState p == pstDegraded then some (partPort p) else none)

/-- The reduced part that a program on these dies uses, in the order of R171, then of its roles' ports. -/
def State.reducedPart (s : State) (ds : List (Fin 4)) : Option Half := (s.degradedPart ds).or (s.rolePart ds)

/-- The dies on which a command's parts run. -/
def RunCmd.on (r : RunCmd) : List (Fin 4) := (allFin 4).filter fun d => (vget r.dies d).st == .running

/-- Whether a command under way has noted a reduced part, if it uses one now. -/
def State.noted (s : State) (r : RunCmd) : Bool := r.on.isEmpty || r.reduced.isSome || (s.reducedPart r.on).isNone

/-- Every RUN_PROGRAM under way notes a reduced part that it uses (R128). -/
def State.noteReduced (s : State) : State :=
  s.modHost fun x => { x with runs := x.runs.map fun r => if s.noted r then r else { r with reduced := s.reducedPart r.on } }

/-- The final record, once every named die has ended. -/
def State.completeRun (s : State) (r : RunCmd) : State :=
  if !(r.dies.toList.all fun y => y.st == .unnamed || y.st == .ended) then s
  else
    let s := s.modHost fun x => { x with runs := x.runs.filter fun q => q.handle != r.handle }
    let ds := (allFin 4).filter fun d => (vget r.dies d).st == .ended
    let all := (ds.map fun d => (vget r.dies d).statuses).flatten
    let tail := natLe 1 r.endByte ++ List.replicate 5 0
    match runOrder.find? fun st => all.contains st with
    | none => match (s.reducedPart ds).or r.reduced with
      | none => s.final r.handle stOk 0 { summary := r.summary }
      | some p => s.final r.handle stOkDegraded p { summary := r.summary }
    | some st =>
      match ds.find? fun d => (vget r.dies d).faulted with
      | some d =>
        let y := vget r.dies d
        s.final r.handle st y.part { summary := r.summary, result := natLe 3 y.pc.toNat ++ natLe 1 y.cause ++ [y.opc, y.fn] ++ tail }
      | none =>
        let lost := firstSome ds fun d => (vget r.dies d).lost
        if st = stNonfinite then
          let d := firstSome ds fun d => if (vget r.dies d).skipped then some (partDie d) else none
          s.final r.handle st (d.getD 0) { summary := r.summary }
        else s.final r.handle st ((lost.map (·.2)).getD 0) { summary := r.summary, result := List.replicate 6 0 ++ tail }

/-- One round of what programs do of themselves. -/
def State.runRound (s : State) : State :=
  let s := forEach (allFin 4) State.actFault s
  let s := forEach (allFin 4) State.endFenced s
  let s := forEach (allFin 4) State.endDie s
  let s := forEach s.host.runs (fun s r => s.completeRun r) s
  forEach (allFin 4) (fun s d =>
    if (s.die d).seq.prog.isSome || !s.dieServes d then s
    else match s.nextRunOn d with
    | some r => s.startRun d r
    | none => s) s

/-- Rounds until nothing is left to do: each ends a part of a command, starts one, or is the last. -/
def State.runRounds : Nat → State → State
  | 0, s => s
  | n + 1, s => State.runRounds n s.runRound

/-! ## CANCEL (spec 15 R288) -/

/-- A maintenance activity is given up: what it held goes back to what it was. -/
def State.abandonAct (s : State) (a : Activity) : State :=
  match a.kind with
  | .castle b _ => s.modBun b fun x => if x.st = bsCastling then { x.setSt x.former with cast := none } else x
  | .retrain b => s.modBun b fun x => if x.st = bsRetrain then x.setSt x.former else x
  | _ => s

/-- End a target with CANCELLED, if it can be cancelled now. -/
def State.cancelTarget (s : State) (c : Command) : Option State :=
  let h := c.handle
  if c.st = .finished then none
  else if c.opc = 0x11 then
    if s.host.runs.any fun r => r.handle == h then
      some (forEach (allFin 4) (fun s d =>
        let f : FaultInfo := ⟨8, 0, 0, unitSeq, (s.die d).seq.pc, stCancelled, partDie d⟩
        match s.host.runs.find? fun r => r.handle == h with
        | none => s
        | some r => match (vget r.dies d).st with
          | .running => s.stopDie d f
          | .waiting => s.modRun h fun r => { r with dies := vmod r.dies d fun y =>
              { y.stop { f with pc := 0 } with st := .ended } }
          | _ => s) s)
    else some (s.final h stCancelled 0)
  else if c.opc = 0x35 then
    match s.tly.reshards.find? fun r => r.handle == h with
    | some r => some (s.reshardCancel r)
    | none => some (s.final h stCancelled 0)
  else if c.opc = 0x32 ∨ c.opc = 0x33 then
    match s.fr.promotion with
    | some p => if p.handle ≠ h then some (s.final h stCancelled 0) else if p.phase < 6 then some s.promoCancel else none
    | none => some (s.final h stCancelled 0)
  else if c.opc = 0x34 then
    let mine := s.fr.drains.filter fun d => d.handle == some h
    some ((forEach mine (fun s d => s.dropDrain d) s).final h stCancelled 0)
  else if 0x40 ≤ c.opc ∧ c.opc ≤ 0x42 then
    let mine := s.marb.running.filter fun a => a.handle == some h
    some (((forEach mine (fun s a => s.abandonAct a) s).dropAct h).final h stCancelled 0)
  else if s.marb.queue.any fun a => a.handle == some h then some ((s.dropAct h).final h stCancelled 0)
  else none

/-- CANCEL. -/
def doCancel (h : Quad) (s : State) : State :=
  s.start h 0x01 fun c s =>
    match (s.cmd? (BitVec.ofNat 64 (c.arg 8 8))).bind fun t => s.cancelTarget t with
    | some s => s.finalOk h []
    | none => s.denied h dtState

/-! ## After every command -/

/-- A RUN_PROGRAM that only waits for its dies' programs: no part waits to start, and one runs. -/
def RunCmd.under (r : RunCmd) : Bool :=
  (r.dies.toList.all fun y => y.st != .waiting) && r.dies.toList.any fun y => y.st == .running

/-- Whether nothing is left to do of itself: no die has a fault to act on or a stopped program, no RUN_PROGRAM has a part to start or
is to end, no drain is to begin, no port is to be judged, no message is held, and no optical re-equalisation has ended. -/
def State.calm (s : State) : Bool :=
  (allFin 4).all (fun d => (s.die d).seq.due.isNone && ((s.die d).seq.prog.isNone || !(s.die d).seq.stopped)) &&
  s.host.runs.all RunCmd.under && s.fr.due.isEmpty &&
  (s.marb.running.all fun a => match a.kind with
    | .reeq p => s.portState p == pstRetrain
    | _ => true) &&
  (allFin 24).all fun p =>
    !(s.carries p && s.misbound p) && !(s.portState p == pstMisbound && s.expects p == noPos) &&
    (s.port p).rx.opened.toList.all fun o => match o with
      | some o => o.held.isNone
      | none => true

/-- What the block does of itself. -/
def State.tend (s : State) : State :=
  let n := 4 * s.host.runs.length + 4
  State.runRounds n ((((State.runRounds n s).rebindPorts).startDrains).recheckHolds).endReeqs

/-- Status registers follow what they show: GRP.STATUS (spec 11 R213) and MARB.STATUS (spec 19 Table 19-6); and a RUN_PROGRAM under way
notes a reduced part (spec 06 R128). -/
def State.derive (s : State) : State := s.refreshGroups.syncMarb.noteReduced

def State.settle (s : State) : State := (if s.calm then s else s.tend).derive

/-- A command that goes on: its own effect and what follows from it. The queue and TIME.AON are no command's to change. -/
def ran (f : State → State) (s : State) : Host.Outcome State Fault Refusal :=
  .next { (f s).settle with pending := s.pending, aon := s.aon }

/-- A command that gives the block nothing to do of itself: its own effect, and the status registers that follow from it. -/
def ranStill (f : State → State) (s : State) : Host.Outcome State Fault Refusal :=
  .next { (f s).derive with pending := s.pending, aon := s.aon }

end Sys2Proof.Machine
end

