-- ==== Sys2Proof/Machine/Host.lean ====
section
/-!
DEFINITION. The host port X (spec 15): rings and doorbells, the fetch and decode of descriptors (R283, R286), completion and progress
records (R285, R290), interrupts (R291), and the host link (R292).
-/
namespace Sys2Proof.Machine

def State.sq (s : State) (q : Fin 32) : SqRing := vget s.host.sqs q
def State.cq (s : State) (q : Fin 32) : CqRing := vget s.host.cqs q
def State.modSq (s : State) (q : Fin 32) (f : SqRing → SqRing) : State := s.modHost fun h => { h with sqs := vmod h.sqs q f }
def State.modCq (s : State) (q : Fin 32) (f : CqRing → CqRing) : State := s.modHost fun h => { h with cqs := vmod h.cqs q f }

def SqRing.on (r : SqRing) : Bool := fon sqCfgEnable r.cfg
def CqRing.on (r : CqRing) : Bool := fon cqCfgEnable r.cfg
def SqRing.size (r : SqRing) : Nat := 2 ^ fget sqCfgLog2size r.cfg
def CqRing.size (r : CqRing) : Nat := 2 ^ fget cqCfgLog2size r.cfg
def SqRing.cqOf (r : SqRing) : Fin 32 := ⟨fget sqCfgCq r.cfg % 32, Nat.mod_lt _ (by decide)⟩

/-! ## Ring errors and enables (R281, Table 15-9) -/

def errTail : Nat := 1
def errCqDisabled : Nat := 2
def errCqInUse : Nat := 3

/-- Record an error of a ring: the first since SQ_STOPPED was clear gives CAUSE and RING. -/
def State.ringError (s : State) (cause : Nat) (ring : Fin 32) (stops : Bool) : State :=
  s.modHost fun h =>
    let e := h.ringErr
    let first := fget ringErrSqStopped e == 0
    let e := if first then fput ringErrCause cause (fput ringErrRing ring.1 e) else e
    { h with ringErr := if stops then e ||| BitVec.twoPow 64 (32 + ring.1) else e }

/-- LOG2SIZE as a write leaves it: a value outside 4 to 16 changes nothing. -/
def ringLog (f : Fld) (old new : Word) : Nat := if 4 ≤ fget f new ∧ fget f new ≤ 16 then fget f new else fget f old

/-- SQ_ENABLE: a write of HOST.SQ_CFG. -/
def doSqEnable (q : Fin 32) (v : Word) (s : State) : State :=
  let r := s.sq q
  if r.on then s.modSq q fun r => { r with cfg := fflag sqCfgEnable (fon sqCfgEnable v) r.cfg }
  else
    let s := s.modSq q fun r => { r with
      cfg := fput sqCfgCq (fget sqCfgCq v) (fput sqCfgLog2size (ringLog sqCfgLog2size r.cfg v) r.cfg) }
    if !fon sqCfgEnable v then s
    else if !(s.cq (s.sq q).cqOf).on then s.ringError errCqDisabled q true
    else s.modSq q fun r => { r with cfg := fflag sqCfgEnable true r.cfg, head := 0, tail := 0, stopped := false }

/-- Whether an enabled SQ names a CQ. -/
def State.cqInUse (s : State) (q : Fin 32) : Bool := s.host.sqs.toList.any fun r => r.on && r.cqOf == q

/-- CQ_ENABLE: a write of HOST.CQ_CFG. -/
def doCqEnable (q : Fin 32) (v : Word) (s : State) : State :=
  let r := s.cq q
  let s := s.modCq q fun r => { r with cfg := fput cqCfgThresh (fget cqCfgThresh v) (fput cqCfgTimer (fget cqCfgTimer v) r.cfg) }
  if r.on then
    if fon cqCfgEnable v then s
    else if s.cqInUse q then s.ringError errCqInUse q false
    else s.modCq q fun r => { r with cfg := fflag cqCfgEnable false r.cfg }
  else
    let s := s.modCq q fun r => { r with
      cfg := fput cqCfgVector (fget cqCfgVector v) (fput cqCfgLog2size (ringLog cqCfgLog2size r.cfg v) r.cfg) }
    if !fon cqCfgEnable v then s
    else s.modCq q fun r => { r with cfg := fflag cqCfgEnable true r.cfg, head := 0, tail := 0, phase := true, r := 0, first := none }

/-- A write of a ring's base: ignored while the ring is enabled. -/
def State.writeSqBase (s : State) (q : Fin 32) (v : Quad) : State :=
  s.modSq q fun r => if r.on then r else { r with base := v &&& 0x000FFFFFFFFFF000#64 }
def State.writeCqBase (s : State) (q : Fin 32) (v : Quad) : State :=
  s.modCq q fun r => if r.on then r else { r with base := v &&& 0x000FFFFFFFFFF000#64 }

/-! ## Doorbells (R283, R291) -/

/-- SQ_TAIL. -/
def doSqTail (q : Fin 32) (v : Half) (s : State) : State :=
  let r := s.sq q
  if !r.on ∨ r.stopped then s
  else if r.size ≤ v.toNat then (s.modSq q fun r => { r with stopped := true }).ringError errTail q true
  else s.modSq q fun r => { r with tail := v.toNat }

/-- CQ_HEAD. -/
def doCqHead (q : Fin 32) (v : Half) (s : State) : State :=
  let r := s.cq q
  if !r.on ∨ r.size ≤ v.toNat then s
  else s.modCq q fun r =>
    let r := { r with head := v.toNat }
    if r.head = r.tail then { r with r := 0, first := none } else r

/-! ## Decoding a descriptor (R286, Table 15-11) -/

/-- The argument bytes of a command as (offset, bytes, bits used of the last byte); none for a reserved opcode. -/
def argBytes (opc : Nat) : Option (List (Nat × Nat × Nat)) :=
  match opc with
  | 0x00 => some []
  | 0x01 => some [(8, 8, 8)]
  | 0x02 => some [(8, 1, 8)]
  | 0x10 => some [(8, 8, 8), (16, 1, 4), (20, 8, 8)]
  | 0x11 => some [(8, 1, 4), (16, 32, 8)]
  | 0x20 => some [(8, 4, 8)]
  | 0x21 => some [(8, 1, 8), (9, 1, 1), (16, 8, 8)]
  | 0x22 => some [(8, 4, 8), (16, 8, 8)]
  | 0x23 => some [(8, 1, 8), (9, 1, 1), (16, 8, 8)]
  | 0x24 => some [(8, 8, 8)]
  | 0x30 => some [(8, 5, 8), (13, 1, 1), (14, 1, 8)]
  | 0x31 => some [(8, 6, 8), (16, 16, 8)]
  | 0x32 => some [(8, 4, 8), (16, 8, 8)]
  | 0x33 => some [(8, 4, 8), (16, 8, 8)]
  | 0x34 => some [(8, 2, 8), (12, 5, 8), (24, 8, 8)]
  | 0x35 => some [(8, 32, 8)]
  | 0x40 => some [(8, 1, 8), (9, 1, 2), (10, 22, 8)]
  | 0x41 => some [(8, 1, 8)]
  | 0x42 => some [(8, 1, 8), (10, 3, 8)]
  | 0x43 => some [(8, 1, 8), (16, 8, 8)]
  | 0x44 => some [(8, 1, 8)]
  | 0x50 => some [(8, 2, 8)]
  | 0x51 => some [(8, 24, 8)]
  | 0x52 => some [(8, 1, 8), (16, 8, 8)]
  | _ => none

/-- The bits of a descriptor that its command names. -/
def argMask (l : List (Nat × Nat × Nat)) : Nat :=
  (l.map fun x => (2 ^ (8 * (x.2.1 - 1) + x.2.2) - 1) * 2 ^ (8 * x.1)).sum + 0x7FF

/-- Where a command's address arguments stand. -/
def addrArgs (opc : Nat) : List Nat :=
  match opc with
  | 0x10 => [8]
  | 0x21 => [16]
  | 0x22 => [16]
  | 0x23 => [16]
  | 0x31 => [16]
  | 0x32 => [16]
  | 0x33 => [16]
  | 0x34 => [24]
  | 0x35 => [16, 24]
  | 0x40 => [24]
  | 0x43 => [16]
  | 0x51 => [24]
  | 0x52 => [16]
  | _ => []

/-- Whether an address argument has a bit outside those that R286 names. -/
def addrReserved (a : Nat) : Bool := if nbit a 63 then nbits a 62 40 != 0 else nbits a 62 52 != 0

/-- Whether a scratchpad base is misaligned or leaves no room for a header. -/
def baseBad (b : Nat) : Bool := b % 256 != 0 || decide (spadSize < b + 256)

/-- The argument ranges and alignments that need no device state (R283): the detail of the refusal. -/
def argCheck (c : Command) : Option Half :=
  let a := c.arg 8 1
  let range := fun (bad : Bool) => if bad then some dtArgument else none
  match c.opc with
  | 0x02 => range (decide (24 ≤ a))
  | 0x10 =>
    if c.arg 16 1 % 16 = 0 ∨ c.arg 24 4 < 256 then some dtArgument else if c.arg 20 4 % 256 ≠ 0 then some dtAddress else none
  | 0x11 =>
    if a % 16 = 0 then some dtArgument
    else if (maskDies a).any fun d => baseBad (c.arg (16 + 4 * d.1) 4) then some dtAddress else none
  | 0x20 => range (c.arg 8 4 == 0xFFFFFFFF)
  | 0x21 => range (decide (4 ≤ a))
  | 0x22 => range (c.arg 10 2 == 0 || decide (4096 < c.arg 8 2 + c.arg 10 2))
  | 0x23 => range (decide (64 ≤ a))
  | 0x24 => range (c.arg 8 8 == 0)
  | 0x30 => range (decide (24 ≤ c.arg 12 1) || c.arg 14 1 == 0 || decide (2 < c.arg 14 1))
  | 0x31 => range (decide (24 ≤ c.arg 12 1) || c.arg 13 1 == 0 || decide (2 < c.arg 13 1))
  | 0x34 => range (a == 0 || decide (16 ≤ a) || decide (1 < c.arg 9 1) || (c.arg 9 1 == 1 && decide (24 ≤ c.arg 16 1)))
  | 0x40 => range (marchArgsBad c)
  | 0x41 => range (a == 0)
  | 0x42 => range (decide (3 < a) ||
      (if a = 3 then !zoneCode (c.arg 10 2) else if a = 2 then (portOf (c.arg 10 2)).isNone else (bundleOf (c.arg 10 2)).isNone) ||
      (a == 1 && decide (66 ≤ c.arg 12 1)))
  | 0x43 => range (decide (5 < a))
  | 0x44 => range (decide (4 ≤ a))
  | 0x50 => range (decide (3 < a) || decide (16 ≤ c.arg 9 1) || (a == 2 && c.arg 9 1 == 0))
  | _ => none

/-- Why a descriptor fails its decode checks, if it does. -/
def decodeBad (c : Command) : Option Half :=
  match argBytes c.opc with
  | none => some dtOpcode
  | some l =>
    if c.desc.toNat &&& argMask l ≠ c.desc.toNat ∨ (addrArgs c.opc).any fun o => addrReserved (c.arg o 8) then some dtReserved
    else argCheck c

/-! ## DESCRIPTOR_FETCH (R282 to R284) -/

/-- Outstanding commands (R284). -/
def maxCommands : Nat := 1024

/-- Descriptors of one batch. -/
def fetchBatch : Nat := 16

/-- A descriptor has been read: ACCEPTED, or BAD_DESCRIPTOR in its place. -/
def State.fetchOne (s : State) (q : Fin 32) (x : HostData) : State :=
  let r := s.sq q
  let h := BitVec.ofNat 64 (q.1 * 2 ^ 48 + r.seq.toNat)
  let s := s.modSq q fun r => { r with head := (r.head + 1) % r.size, seq := BitVec.ofNat 64 ((r.seq.toNat + 1) % 2 ^ 48) }
  let record := fun (st detail : Half) (result : List Byte) (fin urgent : Bool) =>
    s.pushRecord r.cqOf ⟨h, st, detail, 0, 0, 0, padTo 12 result, fin, urgent, false⟩
  match x with
  | none => record stBadDescriptor dtReadErr [] true false
  | some bs =>
    let c : Command := ⟨h, r.cqOf, BitVec.ofNat 512 (leNat (padTo 64 bs)), .accepted, s.host.orders, s.aon, 0, 0⟩
    match decodeBad c with
    | some d => record stBadDescriptor d [] true c.urgent
    | none =>
      (record stAccepted 0 (natLe 1 c.opc) false false).modHost fun p => { p with cmds := p.cmds ++ [c], orders := p.orders + 1 }

/-- DESCRIPTOR_FETCH: a batch that RdCurr has brought, at most as many as are submitted and as commands may be outstanding. -/
def doDescriptorFetch (q : Fin 32) (batch : List HostData) (s : State) : State :=
  let r := s.sq q
  if !r.on ∨ r.stopped ∨ !s.host.linkUp then s
  else
    let submitted := (r.tail + r.size - r.head) % r.size
    let n := min (min submitted fetchBatch) (maxCommands - s.host.cmds.length)
    forEach (batch.take n) (fun s x => s.fetchOne q x) s

/-! ## Completion records (R285, R289, R291) -/

/-- The 32 bytes of a record (Table 15-15). -/
def HostRecord.bytes (r : HostRecord) (phase : Bool) : List Byte :=
  natLe 8 r.handle.toNat ++ natLe 2 r.status.toNat ++ natLe 2 r.detail.toNat ++ natLe 4 (b2n phase * 2 ^ 31 + r.summary.toNat) ++
  natLe 2 r.rerolls.toNat ++ natLe 2 r.poison.toNat ++ padTo 12 r.result

/-- Send a CQ's message. -/
def State.interrupt (s : State) (q : Fin 32) : State :=
  (s.emit (.msix (fget cqCfgVector (s.cq q).cfg))).modCq q fun r => { r with r := 0, first := none }

/-- Write a record at CQ_TAIL and count it. A command whose final record is written is outstanding no longer. -/
def State.writeRecord (s : State) (q : Fin 32) (x : HostRecord) : State :=
  let r := s.cq q
  let s := s.emit (.hostWrite (r.base.toNat + 32 * r.tail) (x.bytes r.phase))
  let wraps := r.tail + 1 = r.size
  let s := s.modCq q fun r => { r with
    tail := if wraps then 0 else r.tail + 1, phase := if wraps then !r.phase else r.phase
    r := r.r + 1, first := if r.first.isNone then some s.aon else r.first }
  let s := if x.final then s.modHost fun p => { p with cmds := p.cmds.filter fun c => c.handle != x.handle } else s
  let thresh := fget cqCfgThresh r.cfg
  if thresh ≠ 0 ∧ (thresh ≤ r.r + 1 ∨ (x.final ∧ x.urgent)) then s.interrupt q else s

/-- COMPLETION_RECORD_WRITE: the oldest record that waits for the CQ. A progress record is skipped unless more than a quarter of the CQ
is free. -/
def doCompletionRecordWrite (q : Fin 32) (s : State) : State :=
  let r := s.cq q
  match r.held with
  | [] => s
  | x :: rest =>
    let used := (r.tail + r.size - r.head) % r.size
    if !r.on ∨ !s.host.linkUp then s
    else if x.progress ∧ 4 * (r.size - used) ≤ r.size then s.modCq q fun r => { r with held := rest }
    else if (r.tail + 1) % r.size = r.head then s
    else (s.modCq q fun r => { r with held := rest }).writeRecord q x

/-- CQ_INTERRUPT_TIMER. -/
def doCqInterruptTimer (q : Fin 32) (s : State) : State :=
  let r := s.cq q
  let t := fget cqCfgTimer r.cfg
  match r.first with
  | none => s
  | some f => if !r.on ∨ fget cqCfgThresh r.cfg = 0 ∨ t = 0 ∨ r.r = 0 ∨ s.aon < f + 25 * t then s else s.interrupt q

/-! ## Progress records (R290) -/

/-- Units done: the model does not follow a march, a scrub or a drain within itself, and the number is free (log entry 46). -/
def State.unitsProgress (s : State) (h : Quad) (st : Half) (total : Nat) : State :=
  let (n, s) := s.fresh (total + 1)
  s.actProgress h st n total

/-- PROGRESS_RECORD_TIMER. -/
def doProgressRecordTimer (h : Quad) (s : State) : State :=
  match s.cmd? h with
  | none => s
  | some c =>
    if !isLong c.opc ∨ !(c.st = .running ∨ c.st = .queued) ∨ s.aon < c.tick + 2 ^ 20 then s
    else if c.opc = 0x32 ∨ c.opc = 0x33 then
      match s.fr.promotion with
      | some p => if p.handle = h then s.progress h p.status p.failure p.result else s
      | none => s
    else if c.opc = 0x34 then
      s.unitsProgress h stAccepted ((s.fr.drains.filter fun d => d.handle == some h).map (·.bytes)).sum
    else if c.opc = 0x35 then
      match s.tly.reshards.find? fun r => r.handle == h with
      | some r => s.reshardProgress r
      | none => s
    else if c.st = .queued then s.actProgress h stQueued 0 c.total
    else s.unitsProgress h stAccepted c.total

/-! ## The host link (R277, R292) -/

/-- HOST_LINK_DOWN: rings are disabled, the host filter is emptied, and writes that waited for the host go on. -/
def doHostLinkDown (s : State) : State :=
  if !s.host.linkUp then s
  else
    let s := s.modHost fun h => { h with
      linkUp := false, memErr := fsat memErrLinkDown 1 h.memErr
      sqs := vmap h.sqs fun _ r => { r with cfg := fflag sqCfgEnable false r.cfg }
      cqs := vmap h.cqs fun _ r => { r with cfg := fflag cqCfgEnable false r.cfg } }
    let lines := (s.fab.pendingWrites.map (·.line)).eraseDups
    let up := fun (w : PendingWrite) => { w with needBi := false }
    let s := s.modFab fun f => { f with hostFilter := [], pendingWrites := f.pendingWrites.map up }
    (forEach lines (fun s l => s.release l) s).emit (.report rpHostLinkDown [])

/-- HOST_LINK_UP: once the port has been brought up by BS-13. -/
def doHostLinkUp (s : State) : State :=
  if s.boot.xUp ∧ s.pwc.state ≤ 1 ∧ !s.pwc.oeDark.getLsbD 6 then s.modHost fun h => { h with linkUp := true } else s

end Sys2Proof.Machine
end

