-- ==== Sys2Proof/Machine/Boot.lean ====
section
/-!
DEFINITION. Starts and stops (spec 16): the pins, stop causes, the boot steps BS-01 to BS-14 with their methods, the ledger's journal,
the checks of an image, and halting.
-/
namespace Sys2Proof.Machine

/-! ## Codes -/

/-- Stop causes (Table 16-1). -/
def stopPowerOn : Nat := 0
def stopRst : Nat := 1
def stopBrownout : Nat := 2
def stopClock : Nat := 3
def stopStepFail : Nat := 4
def stopWatchdog : Nat := 5
def stopThermal : Nat := 6
def stopWake : Nat := 7

/-- Ledger record kinds (Table 16-4). -/
def recBegin : Nat := 1
def recEnd : Nat := 2
def recClear : Nat := 3
def recData : Nat := 4

/-- Methods (Table 16-4). -/
def methodPrimary : Nat := 0
def methodAlternate : Nat := 1
def methodSkip : Nat := 2
def methodDefer : Nat := 3

/-- Power states of the device as `Pwc.state` codes them (spec 17 Table 17-2). -/
def pwActive : Nat := 0
def pwIdle : Nat := 1
def pwWatch : Nat := 3
def pwStopped : Nat := 4

/-- Report codes: the restart after a brown-out, an untrimmed AON, a refused WATCH entry (log entry 23). -/
def rpBrownout : Nat := 20
def rpUntrimmed : Nat := 21
def rpNoWatch : Nat := 22
def rpTamper : Nat := 23

/-! ## The journal (R299) -/

/-- Records of 64 B in a bank of 512 KiB. -/
def bankRecords : Nat := 8192

def Boot.bank (b : Boot) : List LedgerRec := if b.bankNow = 0 then b.bank0 else b.bank1

/-- The latest record of every instance, newest first. -/
def latestRecords (l : List LedgerRec) : List LedgerRec :=
  (l.foldl (fun (acc : List LedgerRec) r => if acc.any fun x => x.step == r.step && x.inst == r.inst then acc else r :: acc) []).reverse

/-- A full bank's latest records go to the other bank, with higher numbers; then the full bank is erased. -/
def Boot.snapshot (b : Boot) : Boot :=
  let l := (latestRecords b.bank).reverse
  let new := (l.zipIdx.map fun x => { x.1 with seq := b.nextSeq + x.2 }).reverse
  let b := { b with nextSeq := b.nextSeq + l.length }
  if b.bankNow = 0 then { b with bank1 := new, bank0 := [], bankNow := 1 } else { b with bank0 := new, bank1 := [], bankNow := 0 }

/-- Append a record. -/
def Boot.record (b : Boot) (r : LedgerRec) : Boot :=
  let b := if bankRecords ≤ b.bank.length then b.snapshot else b
  let r := { r with seq := b.nextSeq, startNo := fget ldgStartStarts b.ldgStart }
  let b := { b with nextSeq := b.nextSeq + 1 }
  if b.bankNow = 0 then { b with bank0 := r :: b.bank0 } else { b with bank1 := r :: b.bank1 }

/-- Append a record of a step's instance. -/
def State.journal (s : State) (step inst kind method : Nat) (result : Half) (attempts fails : Nat) (detail : Half) (data : List Nat) : State :=
  s.modBoot fun b => b.record ⟨0, 0, step, inst, kind, method, result, attempts, fails, detail, data⟩

/-- FAILS of an instance in this start (R297). -/
def State.failsOf (s : State) (step inst : Nat) : Nat :=
  match s.boot.fails.find? fun x => x.1 == step && x.2.1 == inst with
  | some x => x.2.2
  | none => 0

/-- FAILS of an instance rises by 1, to 15 at most (R297). -/
def State.raiseFails (s : State) (step inst : Nat) : State :=
  let n := min 15 (s.failsOf step inst + 1)
  s.modBoot fun b => { b with fails := (b.fails.filter fun x => !(x.1 == step && x.2.1 == inst)) ++ [(step, inst, n)] }

/-- The counts that the ledger holds at the beginning of a start: those of each instance's latest record. -/
def Boot.loadFails (b : Boot) : List (Nat × Nat × Nat) :=
  (latestRecords b.bank).filterMap fun r => if r.fails = 0 then none else some (r.step, r.inst, r.fails)

/-! ## The straps in use (R294, R352) -/

/-- BOOTSRC after the substitutions of Table 21-10. -/
def State.bootSrc (s : State) : Nat :=
  let v := fget strapBootsrc s.boot.straps
  if v = 3 then 0 else if v = 1 ∧ !fon strapCxlEn s.boot.straps then 0 else v

/-- Whether the value of BOOTSRC was substituted. -/
def State.srcSubstituted (s : State) : Bool := s.bootSrc != fget strapBootsrc s.boot.straps

def State.isSpare (s : State) : Bool := fon strapSpare s.boot.straps

/-- Whether X is a mandatory instance of BS-13 (R296). -/
def State.xMandatory (s : State) : Bool := s.bootSrc == 1

/-- TERTI.PORT_CFG.RATE at reset: the strap, 0b11 treated as 0b10 (R181). -/
def State.strapRate (s : State) : Nat := min 2 (fget strapTportRate s.boot.straps)

/-! ## Steps and their instances (Table 16-2) -/

/-- Whether a step is optional. -/
def stepOptional (k : Nat) : Bool := 7 ≤ k && k ≤ 13

def State.dieOut (s : State) (d : Nat) : Bool := s.boot.excludedDies.getLsbD d
def State.stackOut (s : State) (k : Nat) : Bool := s.boot.excludedStacks.getLsbD k

/-- The instances that a step runs: a part of an excluded die has none. -/
def State.instances (s : State) : Nat → List Nat
  | 8 => (List.range 4).filter fun d => !s.dieOut d
  | 9 => (List.range 4).filter fun d => !s.dieOut d
  | 10 => ((allFin 80).filter fun b => (bundleDies b).all fun d => !s.dieOut d.1).map (·.1)
  | 11 => (List.range 8).filter fun k => !s.stackOut k
  | 12 => (List.range 8).filter fun k => !s.stackOut k
  | 13 => List.range 25
  | _ => [0]

/-- The method that FAILS chooses (R297), by whether the instance may be skipped. -/
def methodFor (optional : Bool) (fails : Nat) : Nat :=
  if fails = 0 then methodPrimary else if fails = 1 ∨ !optional then methodAlternate else methodSkip

/-- The method of an instance. A die is mandatory while every die that is left would be skipped (R296); a spare's Terti ports are deferred
(R304), and X is skipped where CXL_EN is 0 (Table 21-10). -/
def State.methodOf (s : State) (k i : Nat) : Nat :=
  let last := (k = 8 ∨ k = 9) ∧ (s.instances k).all fun j => decide (2 ≤ s.failsOf k j)
  if k = 13 ∧ i < 24 ∧ s.isSpare then methodDefer
  else if k = 13 ∧ i = 24 ∧ !fon strapCxlEn s.boot.straps then methodSkip
  else methodFor (stepOptional k && !decide last && !(k == 13 && i == 24 && s.xMandatory)) (s.failsOf k i)

/-- The part code of a step's instance (spec 01 Table 1-4); 0 for a step with one instance. -/
def instPart (k i : Nat) : Half :=
  match k with
  | 8 => part 1 i
  | 9 => part 2 (16 * i + 8)
  | 10 => if i < 64 then part 4 i else part 5 (i - 64)
  | 11 => part 3 i
  | 12 => part 3 i
  | 13 => if i < 24 then part 7 i else part 8 0
  | _ => 0

/-- The status that a failed instance's END record carries where the step itself finds the failure. -/
def instLost (k : Nat) : Half :=
  if k = 8 ∨ k = 9 then stDieLost else if k = 11 ∨ k = 12 then stStackLost else if k = 13 then stPortLost else stInternal

/-! ## Stops -/

/-- Every domain but the always-on one stops: what it held is gone (spec 17 R306). The pins, the ledger and flash, the PWC, SEC's fuses
and SEC.TAMPER, TIME.AON, HOST.SQ_SEQ and the model's own records stay (spec 21 Table 21-3). -/
def State.cold (s : State) : State :=
  { State.reset with
    pending := s.pending, free := s.free, aon := s.aon, boot := s.boot, pwc := s.pwc, sec := s.sec, logs := s.logs, out := s.out
    host := { HostPort.reset with sqs := vmap HostPort.reset.sqs fun q r => { r with seq := (vget s.host.sqs q).seq } } }

/-- Whether a start is under way or the device is in service. -/
def State.live (s : State) : Bool := s.boot.step != 0 || s.boot.inService

/-- The stacks whose STK.STATUS shows an erased core die. -/
def State.erasedNow (s : State) : BitVec 8 :=
  maskOf 8 ((allFin 8).filterMap fun k => if fon stkErased (s.stk k).status then some k.1 else none)

/-- Halt under R305: nothing restarts the device by itself. MP stays up if BS-07 passed in this start. -/
def State.halt (s : State) (step : Nat) (mp : Bool) : State :=
  let s := s.modBoot fun b => { b with
    restartAt := none, mpUp := mp, ldgStart := fput ldgStartHaltStep step (fput ldgStartHalted 1 b.ldgStart) }
  let s := s.modPwc fun p => { p with tripped := false, brown := false }
  if mp then s.emit (.report rpHalt [step]) else s

/-- How a stopped device starts again. -/
inductive StopEnd where
  | pin
  | after
  | trip
  | brown (overVolt : Bool)
  | halt
deriving DecidableEq, Repr

/-- A stop: the retained stop register takes the cause, the pads are held, and a start that has not reached BS-14 counts in FAILED_RUN
(R298 item 6); at 8 the device halts where it would have restarted (R298 item 7). `mp` tells whether MP stays powered. -/
def State.stop (s : State) (cause : Nat) (how : StopEnd) (mp : Bool) : State :=
  let k := s.boot.step
  let mp := mp && s.boot.mpUp
  let failed := 1 ≤ k ∧ k ≤ 13
  let s := s.modBoot fun b => { b with
    retained := cause, step := 0, inService := false, restartAt := none, mpUp := false, window := none
    erasedStacks := b.erasedStacks ||| s.erasedNow
    ldgStart := if failed then fsat ldgStartFailedRun 1 b.ldgStart else b.ldgStart }
  let s := s.modPwc fun p => { p with
    state := pwStopped, stopped := true, padHold := 0x1FFF, mode := fput modeArmed 0 p.mode, cmd := none, cmdFail := none, exiting := 0 }
  let s := (s.modSec fun x => { x with wipe := none, lifecycle := none, fuseHeld := false, debugHalt := 0 }).cold
  let limit := decide (8 ≤ fget ldgStartFailedRun s.boot.ldgStart)
  match how with
  | .pin => s
  | .halt => s.halt k mp
  | .after => if limit then s.halt k mp else (s.modBoot fun b => { b with restartAt := some (s.aon + 2 ^ 16), mpUp := false })
  | .trip =>
    if limit then s.halt k mp
    else (s.modPwc fun p => { p with tripped := true, tripAt := s.aon }).modBoot fun b => { b with mpUp := mp }
  | .brown o => if limit then s.halt k mp else s.modPwc fun p => { p with brown := true, overVolt := o }

/-! ## The beginning of a start -/

/-- What every start resets (spec 21 Table 21-3): all registers but those held on VDD_AON and the ledger's own. The port rate takes its
strap (R181). -/
def State.startRegisters (s : State) : State :=
  let s := s.cold
  let s := s.modPwc fun p => { Pwc.reset with
    clkFault := p.clkFault, lastWake := p.lastWake, thermStatus := fput thermTrips (fget thermTrips p.thermStatus) 0
    oeDark := p.oeDark, refused := p.refused }
  let s := s.modSec fun x => { Sec.reset with tamper := x.tamper, tampered := x.tampered, fuses := x.fuses }
  let s := s.modBoot fun b => { b with
    step := 1, stepBegin := s.aon, stepOpen := false, restartAt := none, inService := false, ldgCtrl := 0, steps := Boot.reset.steps
    fails := [], imageSrc := 0, window := none, manifest := none, mpUp := false, mpRate := 0, coresUp := 0
    excludedDies := 0, excludedStacks := 0, xUp := false, tamperHalt := false, ldgStart := fput ldgStartHalted 0 b.ldgStart }
  forEach (allFin 24) (fun s p => s.modPort p fun x => { x with cfg := fput portRate s.strapRate x.cfg }) s

/-- A start begins, at BS-01. A restart through the ledger counts in PWC.LAST_WAKE, whose SOURCE is RESET (spec 17 Table 17-12). -/
def State.beginStart (s : State) (restart : Bool) : State :=
  let s := s.startRegisters
  s.modPwc fun p => { p with lastWake := fput lastWakeSource 4 (if restart then fsat lastWakeCount 1 p.lastWake else p.lastWake) }

/-- A wake from WATCH is a start with stop cause WAKE (R304, spec 17 R319). -/
def State.wake (s : State) (source : Nat) : State :=
  let s := (s.modBoot fun b => { b with retained := stopWake }).startRegisters
  s.modPwc fun p => { p with lastWake := fput lastWakeSource source (fsat lastWakeCount 1 p.lastWake) }

/-- A stopped device restarts once nothing holds it stopped any more. -/
def State.restartNow (s : State) : State := if s.pwc.tripped || s.pwc.brown then s else s.beginStart true

/-! ## The pins (R293, R350) -/

/-- PWR_OK_RISE. With RST_N already high the device leaves OFF at once (spec 17 Table 17-2, R305). -/
def doPwrOkRise (s : State) : State :=
  if s.boot.pwrOk || !s.boot.vinOk then s
  else
    let s := s.modPwc fun p => { p with
      clkFault := fput clkFaultAonFallback (fget clkFaultAonFallback p.clkFault) 0
      lastWake := fput lastWakeCount 0 p.lastWake, thermStatus := fput thermTrips 0 p.thermStatus }
    let s := s.modBoot fun b => { b with pwrOk := true, retained := stopPowerOn }
    if s.boot.rstN then s.beginStart false else s

/-- PWR_OK_FALL. The wake-light latch is held clear while PWR_OK is low (spec 22 R361). -/
def doPwrOkFall (s : State) : State :=
  if !s.boot.pwrOk then s
  else
    let s := s.stop stopPowerOn .pin false
    (s.modBoot fun b => { b with pwrOk := false, wakeLatch := none, tamperHalt := false }).modPwc fun p => { p with tripped := false, brown := false }

/-- RST_N_ASSERT: `ticks` is how long RST_N has been low; a pulse shorter than 4 AON ticks is ignored. -/
def doRstNAssert (ticks : Nat) (s : State) : State :=
  if ticks < 4 ∨ !s.boot.rstN then s
  else
    let s := s.stop stopRst .pin false
    (s.modBoot fun b => { b with rstN := false }).modPwc fun p => { p with tripped := false, brown := false }

/-- The majority of three samples of every strap (R350); bit 0 is reserved. -/
def majority (a b c : Word) : Word := ((a &&& b) ||| (a &&& c) ||| (b &&& c)) &&& 0xFFFFFFFE#32

/-- RST_N_RELEASE: the straps are sampled, HOST.SQ_SEQ restarts, and with PWR_OK high a start begins. -/
def doRstNRelease (a b c : Word) (s : State) : State :=
  if s.boot.rstN then s
  else
    let s := s.modBoot fun x => { x with rstN := true, straps := majority a b c }
    let s := s.modHost fun h => { h with sqs := vmap h.sqs fun _ r => { r with seq := 0 } }
    if s.boot.pwrOk then s.beginStart false else s

/-! ## Steps begin and end -/

/-- A die is excluded (R296): its stacks are lost, its bundles stay OFF, and its copy holds reset values (spec 21 R347). -/
def State.excludeDie (s : State) (d : Fin 4) : State :=
  let s := s.modDie d fun _ => Die.reset
  let s := s.modFab fun f => { f with
    fences := vset f.fences d none
    dieState := vset f.dieState d (fput dieCause 4 (fput dieState dsExcluded 0)) }
  let s := forEach (resetBundles d) (fun s b => s.modBun b fun x => x.setSt bsOff) s
  let s := forEach ((allFin 8).filter fun k => k.1 / 2 = d.1) (fun s k => s.modStk k fun x => x.lose 5) s
  let s := (s.modBoot fun b => { b with
    excludedDies := b.excludedDies ||| BitVec.twoPow 4 d.1
    excludedStacks := b.excludedStacks ||| (0x03#8 <<< (2 * d.1)) }).loseHome d
  forEach (allFin 4) State.setWidths s

/-- A stack is excluded. -/
def State.excludeStack (s : State) (k : Fin 8) : State :=
  (s.modStk k fun x => x.lose 5).modBoot fun b => { b with excludedStacks := b.excludedStacks ||| BitVec.twoPow 8 k.1 }

/-- What a step does before its attempts: DIE_EN excludes dies before BS-08, the ledger's method chooses BS-05's source, and the ports of
BS-13 start to train, by the alternate method on four wavelengths. -/
def State.prepareStep (s : State) (k : Nat) : State :=
  if k = 5 then s.modBoot fun b => { b with imageSrc := if s.failsOf 5 0 = 0 then 0 else 1, window := none }
  else if k = 8 then
    let en := fget strapDieEn s.boot.straps
    if en = 0 then s else forEach ((allFin 4).filter fun d => !nbit en d.1) State.excludeDie s
  else if k = 13 then
    let s := s.modPwc fun p => { p with padHold := fput padHoldOeHold 0 p.padHold }
    forEach (allFin 24) (fun s p =>
      let m := s.methodOf 13 p.1
      if m = methodDefer then s
      else if m = methodSkip then s.modPort p fun x => { x with cfg := fput portEnable 0 x.cfg }
      else (s.modPhy p fun y => { y with four := decide (m = methodAlternate) }).trainPort p) s
  else s

/-- Write the BEGIN records of a step's instances that are to run. -/
def State.openStep (s : State) (k : Nat) : State :=
  let s := (s.modBoot fun b => { b with step := k, stepBegin := s.aon, stepOpen := true }).prepareStep k
  forEach (s.instances k) (fun s i =>
    let m := s.methodOf k i
    if m = methodPrimary ∨ m = methodAlternate then s.journal k i recBegin m 0 0 (s.failsOf k i) 0 [] else s) s

/-- Close the records that a stop left open, as its cause decides (R295, Table 16-1). -/
def State.closeOpen (s : State) (cause : Nat) : State :=
  let result : Half := if cause = stopBrownout then stBrownout
    else if cause = stopClock ∨ cause = stopWatchdog ∨ cause = stopThermal then stInternal else stCancelled
  let counts := cause = stopBrownout ∨ cause = stopClock ∨ cause = stopWatchdog ∨ cause = stopThermal
  forEach ((latestRecords s.boot.bank).filter fun r => r.kind == recBegin) (fun s r =>
    let s := if counts then s.raiseFails r.step r.inst else s
    s.journal r.step r.inst recEnd r.method result r.attempts (s.failsOf r.step r.inst) 0 []) s

/-- The LDG reads the retained stop register, closes what the stop left open, and records the start (R295). -/
def State.readStopCause (s : State) : State :=
  let cause := s.boot.retained
  let s := s.modBoot fun b => { b with fails := b.loadFails }
  let s := s.closeOpen cause
  let s := s.modBoot fun b => { b with ldgStart := fput ldgStartLastStop cause (fsat ldgStartStarts 1 b.ldgStart) }
  s.emit (.report rpStart [cause])

/-- Open BS-01 if the start has only just begun. -/
def State.enterBoot (s : State) : State := if s.boot.stepOpen then s else s.readStopCause.openStep 1

/-- A step of a start ends the start: STEP_FAIL, and a restart or a halt (R298). -/
def State.failStart (s : State) (halt : Bool) : State := s.stop stopStepFail (if halt then .halt else .after) true

/-- What an instance of a step did. -/
structure InstOut where
  inst     : Nat
  method   : Nat
  status   : Half
  attempts : Nat
  detail   : Half
  data     : List Nat
deriving DecidableEq, Repr

def InstOut.passed (o : InstOut) : Bool :=
  (o.method == methodPrimary || o.method == methodAlternate) && (o.status == stOk || o.status == stOkDegraded)
def InstOut.ran (o : InstOut) : Bool := o.method == methodPrimary || o.method == methodAlternate
def InstOut.failed (o : InstOut) : Bool := o.ran && !o.passed

/-- Write the END record of an instance, and the DATA record with its choices. -/
def State.endInst (s : State) (k : Nat) (o : InstOut) : State :=
  let s := if o.failed then s.raiseFails k o.inst else s
  let n := s.failsOf k o.inst
  let s := s.journal k o.inst recEnd o.method o.status o.attempts n o.detail []
  if o.data.isEmpty then s else s.journal k o.inst recData o.method o.status o.attempts n o.detail o.data

/-- LDG.STEP_STATUSk (Table 16-7). The worst status is the one with the highest code. -/
def stepStatus (l : List InstOut) (fails : Nat) : Quad :=
  let worst := (l.map (·.status.toNat)).foldl max 0
  let v : Quad := fput ldgStepResult worst 0
  let v := fput ldgStepAttempts (min 255 (l.map (·.attempts)).sum) v
  let v := fput ldgStepFailed (l.filter (·.failed)).length v
  let v := fput ldgStepDegraded (l.filter fun o => o.passed && o.status == stOkDegraded).length v
  let v := fput ldgStepSkipped (l.filter fun o => !o.ran).length v
  let v := fput ldgStepMethod ((l.map (·.method)).foldl max 0) v
  fput ldgStepDone 1 (fput ldgStepFails fails v)

/-- Record the end of a step's instances. -/
def State.endStep (s : State) (k : Nat) (l : List InstOut) : State :=
  let s := forEach l (fun s o => s.endInst k o) s
  let fails := (l.map fun o => s.failsOf k o.inst).foldl max 0
  s.modBoot fun b => { b with
    stepOpen := false
    steps := match fin? 14 (k - 1) with
      | some i => vset b.steps i (stepStatus l fails)
      | none => b.steps }

/-! ## Attempts -/

/-- One instance tries a step: up to three attempts (R298), each of which starts from the same state. -/
def tryInst (f : Attempt → State → State × Half) (k i m : Nat) : Nat → List Attempt → State → State × InstOut
  | n, l, s =>
    let a := match l with
      | x :: _ => x
      | [] => ⟨stOk, 0, []⟩
    let (t, st) := if a.status = stOk ∨ a.status = stOkDegraded then f a s else (s, a.status)
    let detail := fun (x : Half) => if x = stOk then (0 : Half) else if instPart k i = 0 then a.detail else instPart k i
    if st = stOk ∨ st = stOkDegraded then (t, ⟨i, m, st, n + 1, detail st, []⟩)
    else match l with
      | _ :: rest => if n < 2 then tryInst f k i m (n + 1) rest s else (s, ⟨i, m, st, n + 1, detail st, []⟩)
      | [] => (s, ⟨i, m, st, 3, detail st, []⟩)

/-- Run the instances of a step in turn: `f` is one attempt of an instance by a method, `r` the outcomes of the physical processes by
instance; where it lists none, the process succeeds (log entry 3). -/
def State.runInstances (s : State) (k : Nat) (f : Nat → Nat → Attempt → State → State × Half) (r : List (List Attempt)) : State × List InstOut :=
  (s.instances k).foldl (fun (acc : State × List InstOut) i =>
    let m := s.methodOf k i
    if m = methodPrimary ∨ m = methodAlternate then
      let (t, o) := tryInst (f i m) k i m 0 (r.getD i []) acc.1
      (t, acc.2 ++ [o])
    else (acc.1, acc.2 ++ [⟨i, m, stOk, 0, 0, []⟩])) (s, [])

/-- Whether a step passed (R296): it fails when an instance of a mandatory kind fails, or when instances ran and none passed. -/
def stepPassed (k : Nat) (xMandatory : Bool) (l : List InstOut) : Bool :=
  if k = 13 then !(xMandatory && l.any fun o => o.inst == 24 && !o.passed)
  else if k = 8 ∨ k = 9 then l.any (·.passed)
  else l.any (·.passed) || !(l.any (·.failed))

/-- After a step: go on to the next one, or end the start. -/
def State.afterStep (s : State) (k : Nat) (passed halt : Bool) : State :=
  if passed then s.openStep (k + 1) else s.failStart halt

/-- Whether boot step `k` is under way. -/
def State.atStep (s : State) (k : Nat) : Bool := s.boot.step == k

/-- A step with one instance. -/
def State.single (s : State) (k : Nat) (f : Nat → Attempt → State → State × Half) (r : List (List Attempt)) : State :=
  let (s, l) := s.runInstances k (fun _ => f) r
  (s.endStep k l).afterStep k (stepPassed k s.xMandatory l) false

/-! ## BS-01 to BS-04 -/

/-- BS-01: the regulators start. -/
def doBs01 (r : List (List Attempt)) (s : State) : State :=
  if !s.atStep 1 then s else s.enterBoot.single 1 (fun _ a s => (s, a.status)) r

/-- BS-02: PLLs lock; the alternate leaves AON untrimmed (spec 01 R11). -/
def doBs02 (r : List (List Attempt)) (s : State) : State :=
  if !s.atStep 2 then s
  else s.single 2 (fun m a s =>
    (s.modPwc fun p => { p with trimmed := decide (m = methodPrimary) }, if m = methodAlternate then stOkDegraded else a.status)) r

/-- The life-cycle state (spec 18 R320): SCRAPPED outranks all; else the word that was blown last (log entry 6). -/
def Fuses.lifeState (f : Fuses) : Nat := if f.lifeWords.contains 5 then 5 else f.lifeWords.getLastD 0

/-- SEC.STATUS's fuse fields (spec 18 Table 18-5). DBG_OPEN counts in MANUFACTURE and RMA only (R330). -/
def State.loadSecStatus (s : State) : State :=
  let f := s.sec.fuses
  let st := f.lifeState
  let dbg := fon strapDbgOpen s.boot.straps && (st == 1 || st == 4)
  let bits := fun (p : KeySlot → Bool) => (maskOf 4 ((allFin 4).filterMap fun i => if p (vget f.keys i) then some i.1 else none)).toNat
  s.modSec fun x => { x with
    status := fput secLifecycle st (fput secRmaCount f.rmaCount (fflag secDbgActive dbg (fput secWipeFail 0 (fput secSvn f.svn
      (fput secRevoked (bits (·.revoked)) (fput secFused (bits (·.fused)) x.status)))))) }

/-- BS-03: fuse sense, life-cycle read and vault march; a SCRAPPED device halts without retry (R305). -/
def doBs03 (r : List (List Attempt)) (s : State) : State :=
  if !s.atStep 3 then s
  else
    let t := s.loadSecStatus
    if s.sec.fuses.lifeState = 5 then
      let o : InstOut := ⟨0, s.methodOf 3 0, stNotPermitted, 1, 0, []⟩
      (t.endStep 3 [o]).failStart true
    else s.single 3 (fun _ a s =>
      let s := s.loadSecStatus
      let s := s.modPwc fun p => { p with vf := vmap p.vf fun d _ => s.sec.fuses.vf.getD d.1 [] }
      (s.modSec fun x => { x with vaultHeld := false }, a.status)) r

/-- The columns of a memory that fuses replace; memory 4 is the hub. -/
def Fuses.columnsOf (f : Fuses) (m : Nat) : List (Nat × Nat) :=
  f.columns.filterMap fun x => if x.1 = m then some x.2 else none

/-- The start-up march of a memory (spec 07 R143): the fused repair, then the columns that the march found. A bank with two or more
unrepaired columns fails the attempt. -/
def startColumns (fused found : List (Nat × Nat)) : Columns × Half :=
  let c := (Columns.mk [] fused 0x00000000FFFF0000#64).repair found
  let banks := c.bad.map (·.1)
  let twice := banks.any fun b => 2 ≤ (banks.filter (· == b)).length
  (c, if twice then stInternal else if c.bad.isEmpty then stOk else stOkDegraded)

/-- BS-04: the hub's SRAM. -/
def doBs04 (r : List (List Attempt)) (s : State) : State :=
  if !s.atStep 4 then s
  else
    let (s, l) := s.runInstances 4 (fun _ _ a s =>
      let (c, st) := startColumns (s.sec.fuses.columnsOf 4) a.faults
      (s.modHub fun h => h.setColumns c, st)) r
    let data := (s.hub.spares.map fun x => [x.1, x.2]).flatten
    let l := l.map fun o => if o.passed then { o with data := data } else o
    (s.endStep 4 l).afterStep 4 (stepPassed 4 false l) false

/-! ## BS-05: the image (R301, R302) -/

/-- Bytes of a manifest, of an image slot, and of the boot window. -/
def manifestBytes : Nat := 0x6000
def slotBytes : Nat := 62 * 2 ^ 20
def windowBytes : Nat := 64 * 2 ^ 20

/-- A component entry (Table 16-10). -/
structure Component where
  off    : Nat
  size   : Nat
  dest   : Nat
  digest : BitVec 384
  resv   : Bool
deriving DecidableEq, Repr

def digestOf (l : List Byte) : BitVec 384 := BitVec.ofNat 384 (leNat (l.take 48))

def componentOf (b : List Byte) (i : Nat) : Component :=
  let o := 0x40 + 80 * i
  ⟨leAt b (o + 8) 8, leAt b (o + 16) 8, leAt b (o + 24) 8, digestOf (slice b (o + 32) 48), allZero (slice b (o + 4) 4)⟩

def manifestComponents (b : List Byte) : List Component := (List.range (byteAt b 0x11)).map (componentOf b)

/-- Whether two components overlap. -/
def componentsMeet : List Component → Bool
  | [] => false
  | c :: rest => (rest.any fun x => rangesMeet c.off c.size x.off x.size) || componentsMeet rest

/-- Check FORMAT (R301): `kind` is the kind asked for, `room` the bytes after the manifest. DEST is within the boot window, which the
model lays at hub SRAM offset 0 (log entry 47). -/
def manifestFormat (b : List Byte) (kind room : Nat) : Bool :=
  let n := byteAt b 0x11
  let total := leAt b 0x14 4
  let cs := manifestComponents b
  let resv := allZero (slice b 0x12 2) && allZero (slice b 0x18 40) && allZero (slice b (0x40 + 80 * n) (80 * (32 - n)))
    && allZero (slice b 0xBC4 60) && allZero (slice b 0xC30 208) && allZero (slice b 0x4EE0 4384) && nbits (leAt b 8 4) 31 2 == 0
  leAt b 0 4 == 0x4B535242 && leAt b 4 2 == 1 && byteAt b 6 == kind && byteAt b 7 ≤ 3 && byteAt b 0x10 ≤ 127
    && (if kind = 1 then 1 ≤ n && n ≤ 32 && allZero (slice b 0xD00 256) else n == 0 && total == 0)
    && total ≤ room && (cs.all fun c => c.off + c.size ≤ total && c.dest + c.size ≤ windowBytes && c.resv) && !componentsMeet cs && resv

/-- The slots that a life-cycle state accepts images from (spec 18 Table 18-1). -/
def slotAccepted (life slot : Nat) : Bool :=
  if life = 1 ∨ life = 4 then slot ≤ 1 else if life = 2 ∨ life = 3 then slot ≤ 3 else false

/-- Check KEY_HASH (R301, spec 18 R324). -/
def State.keyHash (s : State) (b : List Byte) (anySlot : Bool) : Bool :=
  match fin? 4 (byteAt b 7) with
  | none => false
  | some i =>
    let k := vget s.sec.fuses.keys i
    k.fused && !k.revoked && (anySlot || slotAccepted s.sec.fuses.lifeState i.1)
      && Config.sha384 (slice b 0xA40 388) == k.rsa && Config.sha384 (slice b 0xC00 48) == k.slh

/-- The signature checks (R301). -/
def rsaOk (b : List Byte) : Bool := Config.rsaVerifies (slice b 0xA40 384) (slice b 0xBC0 4) (b.take 0xE00) (slice b 0xE00 384)
def slhOk (b : List Byte) : Bool := Config.slhVerifies (slice b 0xC00 48) (b.take 0xE00) (slice b 0xF80 16224)

/-- The first failing check of Table 16-5 on a source, if any: `b` its manifest, `body` its bytes after the manifest. -/
def State.imageFault (s : State) (b : List Byte) (room : Nat) (body : Nat → Nat → List Byte) : Option Nat :=
  if !manifestFormat b 1 room then some 1
  else if !s.keyHash b false then some 2
  else if !rsaOk b then some 3
  else if !slhOk b then some 4
  else if byteAt b 0x10 < s.sec.fuses.svn then some 5
  else if !((manifestComponents b).all fun c => Config.sha384 (body c.off c.size) == c.digest) then some 6
  else none

/-- Where an image comes from. -/
inductive ImageSource where
  | port (p : BootPath)
  | slotA
  | slotB
deriving DecidableEq, Repr

/-- The image order of R302. -/
def State.imageOrder (s : State) : List ImageSource :=
  match s.bootSrc with
  | 1 => [.port .host, .slotA, .slotB]
  | 2 => [.port .mp, .slotA, .slotB]
  | _ => [.slotA, .slotB]

/-- The source in use. -/
def State.imageSource (s : State) : ImageSource := (s.imageOrder[s.boot.imageSrc]?).getD .slotB

/-- A source's manifest, the room after it, and its bytes; none while an image has still to arrive. -/
def State.imageBytes (s : State) : ImageSource → Option (List Byte × Nat × (Nat → Nat → List Byte))
  | .slotA => some (s.boot.flashA.rds 0 manifestBytes, slotBytes - manifestBytes, fun o n => s.boot.flashA.rds (manifestBytes + o) n)
  | .slotB => some (s.boot.flashB.rds 0 manifestBytes, slotBytes - manifestBytes, fun o n => s.boot.flashB.rds (manifestBytes + o) n)
  | .port p => match s.boot.window with
    | some (q, l) => if q = p then
        some (padTo manifestBytes l, windowBytes - manifestBytes, fun o n => padTo n (slice l (manifestBytes + o) n))
      else none
    | none => none

/-- Load the verified image: every component goes to its place in hub SRAM, and the manifest is measured. -/
def State.loadImage (s : State) (b : List Byte) (body : Nat → Nat → List Byte) (method : Nat) : State :=
  let s := forEach (manifestComponents b) (fun s c => s.putHub c.dest (body c.off c.size)) s
  s.modBoot fun x => { x with
    manifest := some ⟨byteAt b 7, byteAt b 0x10, bytesWord b 8, Config.sha384 b, method⟩, window := none }

/-- The substitution of BOOTSRC is journaled with BS-05 (R294, Table 21-10), and so is the slot used. -/
def State.imageData (s : State) (src : ImageSource) : List Nat :=
  let place := match src with
    | .port .host => 2
    | .port .mp => 3
    | .slotA => 0
    | .slotB => 1
  if s.srcSubstituted then [place, fget strapBootsrc s.boot.straps, s.bootSrc] else [place]

/-- BS-05 fails with a check's code. -/
def State.imageFails (s : State) (code attempts : Nat) : State :=
  let o : InstOut := ⟨0, s.methodOf 5 0, if code = 7 then stCancelled else stBadDescriptor, attempts, BitVec.ofNat 16 code,
    if s.srcSubstituted then s.imageData s.imageSource else []⟩
  (s.endStep 5 [o]).failStart false

/-- The checks on the source in use, then on a third source where R302 allows it. -/
def State.tryImage : Nat → Nat → State → State
  | 0, _, s => s
  | fuel + 1, done, s =>
    let src := s.imageSource
    match s.imageBytes src with
    | none => s
    | some (b, room, body) =>
      match s.imageFault b room body with
      | none =>
        let o : InstOut := ⟨0, s.methodOf 5 0, stOk, done + 1, 0, s.imageData src⟩
        ((s.loadImage b body (min 1 s.boot.imageSrc)).endStep 5 [o]).afterStep 5 true false
      | some code =>
        if s.boot.imageSrc = 1 ∧ 2 ≤ s.failsOf 5 0 ∧ s.imageOrder.length = 3 then
          State.tryImage fuel (done + 3) (s.modBoot fun b => { b with imageSrc := 2 })
        else s.imageFails code (done + 3)

/-- BS-05. The checks are functions of the source's bytes, so three attempts agree. -/
def doBs05 (_r : List (List Attempt)) (s : State) : State := if !s.atStep 5 then s else s.tryImage 2 0

/-- BOOT_IMAGE_ARRIVAL: an image is written into the boot window in hub SRAM, if BS-05 waits for one from there (log entry 47). -/
def doBootImageArrival (p : BootPath) (image : List Byte) (s : State) : State :=
  if s.atStep 5 ∧ s.imageSource = .port p ∧ image.length ≤ windowBytes then
    (s.putHub 0 image).modBoot fun b => { b with window := some (p, image) }
  else s

/-! ## BS-06 to BS-09 -/

/-- BS-06: the MCP cores; the alternate holds in reset those that failed (`faults` lists them), and one at least runs. -/
def doBs06 (r : List (List Attempt)) (s : State) : State :=
  if !s.atStep 6 then s
  else s.single 6 (fun m a s =>
    let up := 0xF#4 &&& ~~~(maskOf 4 (a.faults.map (·.1)))
    let s := s.modBoot fun b => { b with coresUp := up }
    if m = methodPrimary then (s, if up = 0xF then a.status else stInternal)
    else (s, if up = 0 then stInternal else if up = 0xF then a.status else stOkDegraded)) r

/-- BS-07: the management port; skipped, MP is off. An untrimmed AON is reported once MP is up (spec 01 R11). -/
def doBs07 (r : List (List Attempt)) (s : State) : State :=
  if !s.atStep 7 then s
  else s.single 7 (fun m a s =>
    let s := s.modBoot fun b => { b with mpUp := true, mpRate := if m = methodPrimary then 100 else 25 }
    let s := if s.pwc.trimmed then s else s.emit (.report rpUntrimmed [])
    let s := if s.boot.retained = stopBrownout then s.emit (.report rpBrownout []) else s
    (if fon tamperValid s.sec.tamper then s.emit (.report rpTamper [s.sec.tamper.toNat]) else s, a.status)) r

/-- The least voltage of a step in a die's fused table, in mV (spec 17 R313). -/
def State.voltOf (s : State) (d : Fin 4) (n : Nat) : Nat := (vget s.pwc.vf d).getD n 0

/-- Set a die's ACLK step and the voltage that goes with it (R303: the order of the two changes is not visible in the state). -/
def State.setAclk (s : State) (d : Fin 4) (n : Nat) : State :=
  s.modPwc fun p => { p with dvfs := vmod p.dvfs d fun w => fput dvfsCurStep n (fput dvfsVoltMv (min 1023 (s.voltOf d n)) w) }

/-- The dies and stacks that a step's failed and skipped instances leave out (R296, R298 item 4). -/
def State.leaveOut (s : State) (k : Nat) (l : List InstOut) : State :=
  forEach (l.filter fun o => !o.passed) (fun s o =>
    match k with
    | 8 => match fin? 4 o.inst with
      | some d => s.excludeDie d
      | none => s
    | 9 => match fin? 4 o.inst with
      | some d => s.excludeDie d
      | none => s
    | 10 => match fin? 80 o.inst with
      | some b => s.modBun b fun x => x.setSt bsDisabled
      | none => s
    | 11 => match fin? 8 o.inst with
      | some x => s.excludeStack x
      | none => s
    | 12 => match fin? 8 o.inst with
      | some x => if s.boot.erasedStacks.getLsbD x.1 then s.excludeStack x else s
      | none => s
    | 13 => match fin? 24 o.inst with
      | some p => if o.method = methodSkip ∨ o.method = methodDefer then s else if s.portState p = pstTraining then s.portLose p 3 else s
      | none => s.modBoot fun b => { b with xUp := false }
    | _ => s) s

/-- BS-08: the die rails and ACLK. DIE_EN = 0 halts the device without retry (R294, R305). -/
def doBs08 (r : List (List Attempt)) (s : State) : State :=
  if !s.atStep 8 then s
  else if fget strapDieEn s.boot.straps = 0 then
    let l := (List.range 4).map fun d => (⟨d, s.methodOf 8 d, stNotPermitted, 0, 0, []⟩ : InstOut)
    (s.endStep 8 l).failStart true
  else
    let (s, l) := s.runInstances 8 (fun i _ a s =>
      match fin? 4 i with
      | none => (s, a.status)
      | some d =>
        let s := (s.modDie d fun x => { x with pwr := { x.pwr with off := false, aclkOn := true } }).setAclk d 0
        (s.modPwc fun p => { p with padHold := p.padHold &&& ~~~(BitVec.twoPow 32 d.1) }, a.status)) r
    let ok := stepPassed 8 false l
    ((s.endStep 8 l).leaveOut 8 l).afterStep 8 ok false

/-- BS-09: the scratchpads. -/
def doBs09 (r : List (List Attempt)) (s : State) : State :=
  if !s.atStep 9 then s
  else
    let (s, l) := s.runInstances 9 (fun i _ a s =>
      match fin? 4 i with
      | none => (s, a.status)
      | some d =>
        let (c, st) := startColumns (s.sec.fuses.columnsOf i) a.faults
        (s.modDie d fun x => x.setColumns c, if st = stInternal then instLost 9 else st)) r
    let l := l.map fun o => match fin? 4 o.inst with
      | some d => if o.passed then { o with data := ((s.die d).spares.map fun x => [x.1, x.2]).flatten } else o
      | none => o
    ((s.endStep 9 l).leaveOut 9 l).afterStep 9 (stepPassed 9 false l) false

/-! ## BS-10 to BS-12 -/

/-- BS-10: the bundles train; then each die's state follows its hub link (spec 09 R170). -/
def doBs10 (r : List (List Attempt)) (s : State) : State :=
  if !s.atStep 10 then s
  else
    let (s, l) := s.runInstances 10 (fun i _ a s =>
      match fin? 80 i with
      | none => (s, a.status)
      | some b =>
        let s := s.modBun b fun x => x.train (s.fusedBad b) (a.faults.map (·.1))
        let st := (s.bun b).st
        (s, if st = bsDisabled then stInternal else if st = bsHalf then stOkDegraded else stOk)) r
    let l := l.map fun o => match fin? 80 o.inst with
      | some b => if o.passed then { o with data := [(s.bun b).laneMap.toNat] } else o
      | none => o
    let s := (s.endStep 10 l).leaveOut 10 l
    let s := s.modPwc fun p => { p with padHold := fput padHoldNbHold 0 p.padHold }
    let s := forEach ((allFin 4).filter fun d => !s.dieOut d.1) (fun s d => s.modFab fun f => { f with
      dieState := vmod f.dieState d (fun w => fput dieCause 0 (fput dieState dsUp w)) }) s
    s.relink.afterStep 10 (stepPassed 10 false l) false

/-- BS-11: the stacks train, at 9.6 Gb/s by the alternate method (spec 08 R149). -/
def doBs11 (r : List (List Attempt)) (s : State) : State :=
  if !s.atStep 11 then s
  else
    let (s, l) := s.runInstances 11 (fun i m a s =>
      match fin? 8 i with
      | none => (s, a.status)
      | some k => (s.modStk k fun x => { x with status := fput stkRate m x.status }, a.status)) r
    ((s.endStep 11 l).leaveOut 11 l).afterStep 11 (stepPassed 11 false l) false

/-- BS-12: rows are repaired, by hard and soft repair or by soft repair only; `faults` lists the rows that the ledger names. -/
def doBs12 (r : List (List Attempt)) (s : State) : State :=
  if !s.atStep 12 then s
  else
    let (s, l) := s.runInstances 12 (fun i m a s =>
      match fin? 8 i with
      | none => (s, a.status)
      | some k =>
        let rows := a.faults.map (·.1)
        let s := if m = methodPrimary then s.modStk k fun x => { x with hardRepair := x.hardRepair ++ rows } else s
        (s.modBoot fun b => { b with erasedStacks := b.erasedStacks &&& ~~~(BitVec.twoPow 8 k.1) }, a.status)) r
    let rows := fun (o : InstOut) => (r.getD o.inst []).getLast?.map fun a => a.faults.map (·.1)
    let l := l.map fun o => if o.passed then { o with data := (rows o).getD [] } else o
    ((s.endStep 12 l).leaveOut 12 l).afterStep 12 (stepPassed 12 false l) false

/-! ## BS-13: the ports -/

/-- How a Terti port's training ended: it carries, on all wavelengths or fewer, or it failed. -/
def State.portOutcome (s : State) (p : Fin 24) : Half :=
  let st := s.portState p
  if st = pstActive then stOk else if st = pstDegraded then stOkDegraded else stPortLost

/-- The outcome of BS-13 for a Terti port: its training (R191) runs from the step's beginning, and the port's state tells how it ended. -/
def State.tertiInst (s : State) (p : Fin 24) : InstOut :=
  let m := s.methodOf 13 p.1
  let st := s.portOutcome p
  let sub := if fget strapTportRate s.boot.straps = 3 then [3, 2] else []
  if m = methodSkip ∨ m = methodDefer then ⟨p.1, m, stOk, 0, 0, []⟩
  else ⟨p.1, m, st, min 3 ((s.port p).phy.attempts + 1), if st = stOk then 0 else partPort p, sub⟩

/-- BS-13: Terti ports by their states, X by its outcome. -/
def doBs13 (r : List (List Attempt)) (s : State) : State :=
  if !s.atStep 13 then s
  else
    let ts := (allFin 24).map fun p => s.tertiInst p
    let m := s.methodOf 13 24
    let up := fun (_a : Attempt) (s : State) => (s.modBoot fun b => { b with xUp := true }, stOk)
    let (s, x) := if m = methodSkip then (s, (⟨24, m, stOk, 0, 0, []⟩ : InstOut)) else tryInst up 13 24 m 0 (r.getD 24 []) s
    let l := ts ++ [x]
    let ok := stepPassed 13 s.xMandatory l
    let s := (s.endStep 13 l).leaveOut 13 l
    let s := forEach (allFin 24) (fun s p => s.modPhy p fun y => { y with four := false }) s
    s.afterStep 13 ok false

/-! ## BS-14: service -/

/-- SEC blows the fuses that the verified manifest asks for (spec 18 R324, R325). -/
def State.blowManifest (s : State) : State :=
  match s.boot.manifest with
  | none => s
  | some m =>
    let s := if m.flags.getLsbD 0 then s.modSec fun x => { x with fuses := { x.fuses with svn := max x.fuses.svn m.svn } } else s
    let s := if m.flags.getLsbD 1 ∧ m.slot % 2 = 1 then
        match fin? 4 (m.slot - 1) with
        | some i => s.modSec fun x => { x with fuses := { x.fuses with keys := vmod x.fuses.keys i fun k => { k with revoked := true } } }
        | none => s
      else s
    s.loadSecStatus

/-- The nominal ACLK step (spec 17). -/
def nominalStep : Nat := 20

/-- The device enters WATCH (spec 17 R307, R319): everything but VDD_AON and VDD_MGT is off. -/
def State.enterWatch (s : State) : State :=
  let s := s.modBoot fun b => { b with
    step := 0, inService := false, erasedStacks := b.erasedStacks ||| s.erasedNow, mpUp := false, coresUp := 0, xUp := false }
  let s := s.modPwc fun p => { p with
    state := pwWatch, stopped := false, padHold := 0x1FFF, mode := fput modeArmed 0 p.mode, cmd := none, cmdFail := none, exiting := 0
    watchAt := s.aon, watchTaken := 0 }
  (s.modSec fun x => { x with wipe := none, lifecycle := none, fuseHeld := false, debugHalt := 0 }).cold

/-- The device enters service in a power state. -/
def State.enterService (s : State) (st : Nat) : State :=
  let s := forEach ((allFin 4).filter fun d => !s.dieOut d.1) (fun s d => s.setAclk d (min nominalStep (min 28 (fget dvfsMaxStep (vget s.pwc.dvfs d))))) s
  (s.modBoot fun b => { b with step := 0, inService := true, wakeLatch := none }).modPwc fun p => { p with state := st, stopped := false }

/-- BS-14: the alternate method enters IDLE. A spare enters WATCH unless it was woken, or a wake-light pattern came during the start, or
WATCH is refused because AON has fallen back (R304). -/
def doBs14 (r : List (List Attempt)) (s : State) : State :=
  if !s.atStep 14 then s
  else
    let m := s.methodOf 14 0
    let spare := s.isSpare && s.boot.retained != stopWake && s.boot.wakeLatch.isNone && m == methodPrimary
    let fallen := fon clkFaultAonFallback s.pwc.clkFault
    let (s, o) := tryInst (fun a s => (s, if spare && fallen then stOkDegraded else a.status)) 14 0 m 0 (r.getD 0 []) s
    let o := if spare && fallen && o.passed then { o with detail := part 9 6 } else o
    let s := s.endStep 14 [o]
    if o.failed then s.failStart false
    else
      let s := s.modBoot fun b => { b with ldgStart := fput ldgStartFailedRun 0 b.ldgStart }
      let s := s.blowManifest
      if spare && fallen then (s.enterService pwIdle).emit (.report rpNoWatch [(part 9 6).toNat])
      else if spare then s.enterWatch
      else s.enterService (if m = methodAlternate then pwIdle else pwActive)

/-! ## Limits, restarts and the ledger's control register -/

/-- The time limit of a step in AON ticks (Table 16-2). -/
def State.stepLimit (s : State) : Nat → Nat
  | 1 => 20 * ticksPerMs
  | 2 => 20 * ticksPerMs
  | 3 => 50 * ticksPerMs
  | 4 => 20 * ticksPerMs
  | 5 => match s.imageSource with
    | .port _ => 2 ^ 28
    | _ => 500 * ticksPerMs
  | 6 => 50 * ticksPerMs
  | 7 => 50 * ticksPerMs
  | 8 => 10 * ticksPerMs
  | 9 => 10 * ticksPerMs
  | 10 => 5 * ticksPerMs
  | 11 => 200 * ticksPerMs
  | 12 => 2000 * ticksPerMs
  | 13 => 200 * ticksPerMs
  | _ => 10 * ticksPerMs

/-- BOOT_STEP_TIMEOUT: the running step fails by its limit. An image that has not arrived is NO_IMAGE; any other step ends the start with
cause WATCHDOG, its open instances closed INTERNAL (Table 16-1). -/
def doBootStepTimeout (s : State) : State :=
  let k := s.boot.step
  if k = 0 ∨ s.aon < s.boot.stepBegin + s.stepLimit k then s
  else
    let s := s.enterBoot
    let waits := k = 5 ∧ (s.imageBytes s.imageSource).isNone
    if waits then s.imageFails 7 3
    else
      let l := (s.instances k).filterMap fun i =>
        let m := s.methodOf k i
        if m = methodPrimary ∨ m = methodAlternate then some (⟨i, m, stInternal, 1, instPart k i, []⟩ : InstOut) else none
      (s.endStep k l).stop stopWatchdog .after true

/-- BOOT_RESTART: 2^16 AON ticks after a start ended, the next begins (R298 item 5). -/
def doBootRestart (s : State) : State :=
  match s.boot.restartAt with
  | some t => if t ≤ s.aon ∧ s.boot.pwrOk ∧ s.boot.rstN then s.beginStart true else s
  | none => s

/-- The instances of a step as the ledger numbers them (Table 16-4). -/
def stepInstances (k : Nat) : Nat := if k = 8 ∨ k = 9 then 4 else if k = 10 then 80 else if k = 11 ∨ k = 12 then 8 else if k = 13 then 25 else 1

/-- LDG_CTRL_CLEAR (R300): CLEAR records for every instance of each named step. They are written within the command, so that the bit
reads 0 again after it; nothing changes in the current start. -/
def doLdgCtrlClear (v : Word) (s : State) : State :=
  if !s.live then s
  else forEach ((List.range 14).filter fun k => v.getLsbD (k + 1)) (fun s k =>
    forEach (List.range (stepInstances (k + 1))) (fun s i => s.journal (k + 1) i recClear 0 0 0 0 0 []) s) s

end Sys2Proof.Machine
end

