-- ==== Sys2Proof/Machine/Power.lean ====
section
/-!
DEFINITION. Clock loss (spec 01 R18, R19), and power, adaptive clocks, thermal control, brown-out, WATCH and wake (spec 17, spec 22 R361).
-/
namespace Sys2Proof.Machine

def lgPower : Nat := 18
def lgPadIgnored : Nat := 19
def rpTrip : Nat := 24
def rpClock : Nat := 25

/-! ## Clock loss (Table 1-7) -/

/-- Record a lost clock: its bit, and FIRST_DOMAIN if no fault bit was set (Table 1-8). -/
def State.clockLost (s : State) (bit : Fld) (domain : Nat) : State :=
  s.modPwc fun p =>
    let w := if fget (6, 1) p.clkFault = 0 then fput clkFaultFirstDomain domain p.clkFault else p.clkFault
    { p with clkFault := fput bit 1 w }

/-- A lost clock stops every domain but AON, and the device restarts through the ledger. -/
def State.clockStop (s : State) (bit : Fld) (domain : Nat) : State :=
  if !s.live then s else (s.clockLost bit domain).stop stopClock .after false

/-- REF_OSC_LOST. -/
def doRefOscLost (s : State) : State := s.clockStop clkFaultRefLost 7

/-- FCLK_LOCK_LOST. -/
def doFclkLockLost (s : State) : State := s.clockStop clkFaultFclkLost 4

/-- GCLK_LOCK_LOST: the MCP stops, and the PWC restarts the device. -/
def doGclkLockLost (s : State) : State := s.clockStop clkFaultGclkLost 5

/-- AON_OSC_STOPPED: its consumers run from GCLK ÷ 40. -/
def doAonOscStopped (s : State) : State :=
  if fon clkFaultAonFallback s.pwc.clkFault then s
  else ((s.clockLost clkFaultAonLost 6).modPwc fun p => { p with clkFault := fput clkFaultAonFallback 1 p.clkFault }).emit (.report rpClock [6])

/-- AON_OSCILLATOR_RETURN: AON_FALLBACK follows the present state (R19). -/
def doAonOscillatorReturn (s : State) : State :=
  s.modPwc fun p => { p with clkFault := fput clkFaultAonFallback 0 p.clkFault }

/-- Gate a die's ACLK: its forwarded clocks stop, and the hub fences it with cause CLOCK_LOST (spec 09 R175). -/
def State.gateDie (s : State) (d : Fin 4) : State :=
  let s := s.modDie d fun x => { x with pwr := { x.pwr with aclkOn := false } }
  if s.dieServes d then s.startFence d 1 else s

/-- ACLK_LOCK_LOST. -/
def doAclkLockLost (d : Fin 4) (s : State) : State :=
  if !(s.die d).pwr.aclkOn then s
  else
    let s := (s.clockLost clkFaultAclkLost d.1).modPwc fun p => { p with clkFault := fput (8 + d.1, 8 + d.1) 1 p.clkFault }
    s.gateDie d

/-- MCLK_LOCK_LOST. -/
def doMclkLockLost (k : Fin 8) (s : State) : State :=
  if !s.live ∨ (vget s.stks k).selfRefresh ∨ fon stkLost (s.stk k).status then s
  else
    ((s.clockLost clkFaultMclkLost (0x10 + k.1)).modPwc fun p => { p with mclkLost := p.mclkLost ||| BitVec.twoPow 8 k.1 }).loseStack k 1

/-- CLK_FAULT_WRITE: write 1 to clear bits 6 to 1 and ACLK_DIES (R19). -/
def doClkFaultWrite (v : Word) (s : State) : State :=
  s.modPwc fun p => { p with clkFault := p.clkFault &&& ~~~(v &&& 0x00000F7E#32) }

/-! ## POWER (R307 to R309) -/

/-- Whether a program runs on a die. -/
def State.programOn (s : State) (d : Fin 4) : Bool := (s.die d).seq.prog.isSome
def State.anyProgram (s : State) : Bool := (allFin 4).any fun d => s.programOn d

/-- A POWER command starts once no other waits for its transition: `ok` answers the detail of a refusal. -/
def State.powerCmd (s : State) (h : Quad) (state : Nat) (ok : List (Fin 4) → State → Option Half)
    (f : List (Fin 4) → State → State) : State :=
  match s.cmd? h with
  | none => s
  | some c =>
    if c.arg 8 1 ≠ state ∨ s.pwc.cmd.isSome then s
    else s.start h 0x50 fun c s =>
      let ds := maskDies (c.arg 9 1)
      match ok ds s with
      | some x => s.denied h x
      | none => f ds (s.modPwc fun p => { p with cmd := some h, cmdFail := none, cmdDies := BitVec.ofNat 4 (c.arg 9 1) })

/-- POWER 0: refused for a die that is excluded or fenced. Device firmware performs the transition. -/
def doPowerActive (h : Quad) (s : State) : State :=
  s.powerCmd h 0 (fun ds s => if ds.any fun d => s.dieFenced d || s.dieSt d == dsExcluded then some dtState else none) fun _ s => s

/-- POWER 1: refused while a program runs. -/
def doPowerIdle (h : Quad) (s : State) : State :=
  s.powerCmd h 1 (fun _ s => if s.anyProgram then some dtRunning else none) fun _ s => s

/-- Whether a valid role names a die in MBQ.ROLE_CFG.DIES. -/
def State.roleNames (s : State) (d : Fin 4) : Bool :=
  (allFin 4).any fun r => s.roleUsed r && nbit (fget rcfgDies (s.mq r).cfgNow) d.1

/-- POWER 2: refused while a named die runs a program, serves a role, or is held by maintenance. -/
def doPowerDieOff (h : Quad) (s : State) : State :=
  s.powerCmd h 2 (fun ds s =>
    if ds.any s.programOn then some dtRunning
    else if ds.any fun d => s.roleNames d || s.dieHeld d then some dtState else none) fun _ s => s

/-- POWER 3: refused while a program runs, an identity is assigned, or AON has fallen back (spec 01 R18). Its final record comes before the
transition. -/
def doPowerWatch (h : Quad) (s : State) : State :=
  s.powerCmd h 3 (fun _ s =>
    if s.anyProgram then some dtRunning
    else if s.job.identity ≠ 0 ∨ fon clkFaultAonFallback s.pwc.clkFault then some dtState else none) fun _ s => s.finalOk h []

/-- PWC_MODE_WRITE: an MCP write, which arms a transition; a reserved TARGET is left out (R308). -/
def doPwcModeWrite (v : Word) (s : State) : State :=
  if !s.boot.inService ∨ 3 < fget modeTarget v then s
  else s.modPwc fun p => { p with mode := fput modeArmed 1 (fput modeDieMask (fget modeDieMask v) (fput modeTarget (fget modeTarget v) 0)) }

/-- The dies that a transition to DIE_OFF takes down: a fenced or excluded die stays as it is. -/
def State.offTargets (s : State) (mask : Nat) : List (Fin 4) := (maskDies mask).filter s.dieServes

/-- A die enters DIE_OFF (R310): its scratchpad, counts and banks are lost. -/
def State.dieOff (s : State) (d : Fin 4) : State :=
  let s := s.quiesceDie d
  let s := s.modDie d fun x => { x.restart with pwr := { x.pwr with off := true, aclkOn := false } }
  let s := s.modFab fun f => { f with dieState := vmod f.dieState d (fun w => fput dieCause 0 (fput dieState dsOff w)) }
  let s := s.modPwc fun p => { p with dvfs := vmod p.dvfs d fun w => fput dvfsCurStep 0 (fput dvfsVoltMv 0 w) }
  (forEach (allFin 4) State.setWidths s).log .pwc lgPower [2, d.1]

/-- A POWER command ends. -/
def State.powerDone (s : State) : State :=
  match s.pwc.cmd with
  | none => s
  | some h =>
    let s := match s.pwc.cmdFail with
      | some x => s.final h x.1 x.2
      | none => s.finalOk h ((allFin 4).filter fun d => s.pwc.cmdDies.getLsbD d.1)
    s.modPwc fun p => { p with cmd := none, cmdFail := none }

/-- ARMED is cleared as the transition starts. -/
def State.disarmMode (s : State) : State := s.modPwc fun p => { p with mode := fput modeArmed 0 p.mode }

/-- POWER_TRANSITION_START (R308): every running core is in WFI while ARMED is 1. With an interrupt pending the WFI returns at once. A
transition waits for the end of a die's drain, of a program, and of the final record that must come first. -/
def doPowerTransitionStart (irq : Bool) (s : State) : State :=
  let mask := fget modeDieMask s.pwc.mode
  if irq ∨ !fon modeArmed s.pwc.mode then s
  else match fget modeTarget s.pwc.mode with
  | 0 =>
    let s := s.disarmMode
    if mask = 0 then (s.modPwc fun p => { p with state := pwActive }).powerDone
    else
      let ds := (maskDies mask).filter fun d => s.dieSt d == dsOff
      let s := s.modPwc fun p => { p with exiting := p.exiting ||| maskOf 4 (ds.map (·.1)) }
      if ds.isEmpty then s.powerDone else s
  | 1 => if s.anyProgram then s else (s.disarmMode.modPwc fun p => { p with state := pwIdle }).powerDone
  | 2 =>
    let ds := s.offTargets mask
    if ds.any fun d => s.dieBusy d || s.programOn d then s
    else (forEach ds State.dieOff s.disarmMode).powerDone
  | _ =>
    let due : Bool := match s.pwc.cmd with
      | some h => (s.cmd? h).isSome
      | none => false
    if due || s.anyProgram then s
    else if fon clkFaultAonFallback s.pwc.clkFault then s.disarmMode.modPwc fun p => { p with cmd := none, refused := p.refused + 1 }
    else s.enterWatch

/-- DIE_OFF_EXIT_COMPLETE (R311): the pads are released, the die restarts, its bundles train and its stacks retrain. -/
def doDieOffExitComplete (d : Fin 4) (bad : List (Nat × Nat)) (lost : List (Fin 8)) (s : State) : State :=
  if !s.pwc.exiting.getLsbD d.1 then s
  else
    let s := (s.modDie d fun x => { x with pwr := { x.pwr with off := false, aclkOn := true, stretched := 0 } }).setAclk d 0
    let s := s.modPwc fun p => { p with padHold := p.padHold &&& ~~~(padBits d), exiting := p.exiting &&& ~~~(BitVec.twoPow 4 d.1) }
    let (s, up) := s.rejoinDie d bad lost
    let fail := if !up then some (stDieLost, partDie d) else
      match (allFin 8).find? fun k => lost.contains k && k.1 / 2 == d.1 with
      | some k => some (stStackLost, partStack k)
      | none => none
    let s := s.modPwc fun p => { p with cmdFail := p.cmdFail.or fail }
    if s.pwc.exiting = 0 then s.powerDone else s

/-! ## Pads (R312) -/

/-- Whether the logic behind a pad-hold bit is ready: a die's hub bundles, a pair's neighbour bundles, an optical engine's lane enables. -/
def State.padReady (s : State) (bit : Nat) : Bool :=
  if bit < 4 then (allFin 4).any fun d => d.1 == bit && s.dieServes d
  else if bit < 6 then (allFin 4).all fun d => d.1 / 2 != bit - 4 || s.dieServes d
  else s.live && !s.pwc.oeDark.getLsbD (bit - 6)

/-- PAD_HOLD_WRITE: each bit written 1 is released if its domain is ready; an ignored release is logged and counted. -/
def doPadHoldWrite (v : Word) (s : State) : State :=
  forEach ((List.range 13).filter v.getLsbD) (fun s i =>
    if s.padReady i then s.modPwc fun p => { p with padHold := p.padHold &&& ~~~(BitVec.twoPow 32 i) }
    else (s.log .pwc lgPadIgnored [i]).modPwc fun p => { p with refused := p.refused + 1 }) s

/-! ## Adaptive clocks (R313, R314) -/

/-- MAX_STEP; values above 28 are treated as 28. -/
def State.maxStep (s : State) (d : Fin 4) : Nat := min 28 (fget dvfsMaxStep (vget s.pwc.dvfs d))

def State.curStep (s : State) (d : Fin 4) : Nat := fget dvfsCurStep (vget s.pwc.dvfs d)

/-- The step that a loop goes to: down to the target at once, up by one while every ceiling is above the present step. -/
def nextStep (cur target : Nat) : Nat := if target < cur then target else if cur < target then cur + 1 else cur

/-- LIMIT: the ceiling that holds the die down, THERMAL before DROOP before CAP before MAX_STEP; 0 while the die is below every ceiling. -/
def limitCode (cur thermal droop cap top : Nat) : Nat :=
  let t := min thermal (min droop (min cap top))
  if cur < t then 0 else if thermal = t then 2 else if droop = t then 3 else if cap = t then 1 else 4

/-- More than 64 cycles stretched in a period: the droop ceiling falls to one step below the present step (R314). -/
def DiePower.droop (p : DiePower) (cur : Nat) : DiePower :=
  if 64 < p.stretched then { p with droopCeil := cur - 1, droopFree := 0, stretched := 0 }
  else { p with droopFree := p.droopFree + 1, stretched := 0 }

/-- One loop period of a die. -/
def State.loopDie (s : State) (d : Fin 4) : State :=
  let cur := s.curStep d
  let s := s.modDie d fun x => { x with pwr := x.pwr.droop cur }
  let p := (s.die d).pwr
  let top := s.maxStep d
  let new := nextStep cur (min p.thermCeil (min p.droopCeil (min p.capCeil top)))
  (s.setAclk d new).modPwc fun q => { q with dvfs := vmod q.dvfs d (fput dvfsLimit (limitCode new p.thermCeil p.droopCeil p.capCeil top)) }

/-- Whether the adaptive loop of a die runs. -/
def State.loopRuns (s : State) (d : Fin 4) : Bool := s.boot.inService && s.dieServes d && (s.die d).pwr.aclkOn

/-- DVFS_LOOP_TICK, every 10 µs. -/
def doDvfsLoopTick (s : State) : State := forEach ((allFin 4).filter s.loopRuns) State.loopDie s

/-- DROOP_CEILING_RECOVERY: after 1 ms, that is 100 loop periods, without a heavy one. -/
def doDroopCeilingRecovery (d : Fin 4) (s : State) : State :=
  if !s.loopRuns d ∨ (s.die d).pwr.droopFree < 100 then s
  else s.modDie d fun x => { x with pwr := { x.pwr with droopCeil := min 28 (x.pwr.droopCeil + 1), droopFree := 0 } }

/-- DROOP_SENSOR_TRIP: one ACLK cycle is stretched. -/
def doDroopSensorTrip (d : Fin 4) (s : State) : State :=
  if !s.loopRuns d then s else s.modDie d fun x => { x with pwr := { x.pwr with stretched := x.pwr.stretched + 1 } }

/-! ## The power cap (R315) -/

/-- Samples of 10 µs in 1 s and in 1 ms. -/
def samplesPerS : Nat := 100000
def samplesPerMs : Nat := 100

/-- The mean of the measurements there are, in W. -/
def meanOf (l : List Nat) : Nat := if l.isEmpty then 0 else l.sum / l.length

/-- Whether array issue is gated on some die (PWC.THERM_STATUS.THROTTLING bit 12). -/
def State.syncGate (s : State) : State :=
  let on := s.pwc.guard != 0 || (allFin 4).any fun d => (s.die d).pwr.gateEighth != 0
  s.modPwc fun p => { p with thermStatus := fflag (12, 12) on p.thermStatus }

/-- The fast guard's next value: it acts above 2,850 W and lets go below 2,800 W. -/
def nextGuard (guard avg : Nat) : Nat := if 2850 < avg then min 8 (guard + 1) else if avg < 2800 then guard - 1 else guard

/-- POWER_MEASURE_TICK, every 10 µs: VIN in mV and the input current in mA. -/
def doPowerMeasureTick (vinMv currentMa : Nat) (s : State) : State :=
  if !s.live then s
  else
    let w := vinMv * currentMa / 1000000
    let l := (w :: s.pwc.samples).take samplesPerS
    let ms := meanOf (l.take samplesPerMs)
    let s := s.modPwc fun p => { p with
      samples := l, guard := nextGuard p.guard ms
      power := fput powerAvg1s (min 65535 (meanOf l)) (fput powerAvg1ms (min 65535 ms)
        (fput powerPeak1ms (max (fget powerPeak1ms p.power) (min 65535 ms)) p.power)) }
    s.syncGate

/-- The lowest-numbered of the dies at the highest, or at the lowest, step. -/
def State.extremeDie (s : State) (high : Bool) : Option (Fin 4) :=
  let ds := (allFin 4).filter s.loopRuns
  ds.find? fun d => ds.all fun e => if high then decide (s.curStep e ≤ s.curStep d) else decide (s.curStep d ≤ s.curStep e)

/-- CAP_LOOP_TICK, every 1 ms. -/
def doCapLoopTick (s : State) : State :=
  let cap := fget powerCap s.pwc.power
  let avg := fget powerAvg1s s.pwc.power
  let move := fun (d : Option (Fin 4)) (f : Nat → Nat) => match d with
    | none => s
    | some d => s.modDie d fun x => { x with pwr := { x.pwr with capCeil := f x.pwr.capCeil } }
  if cap < avg then move (s.extremeDie true) fun n => n - 1
  else if 100 * avg < 98 * cap then move (s.extremeDie false) fun n => min 28 (n + 1)
  else s

/-! ## Thermal control (R316, R317) -/

def dieThrottle (w : Word) : Nat := fget thermCfgDieThrottle w
def stackThrottle (w : Word) : Nat := fget thermCfgStackThrottle w

/-- The zones that act on a die's thermal ceiling, with their thresholds: the die, its stacks and the hub. -/
def zonesOf (t : Temps) (cfg : Word) (d : Fin 4) : List (Nat × Nat) :=
  [(t.dieZones.getD d.1 0, dieThrottle cfg), (t.hubZone, dieThrottle cfg), (t.stackZones.getD (2 * d.1) 0, stackThrottle cfg),
   (t.stackZones.getD (2 * d.1 + 1) 0, stackThrottle cfg)]

/-- A die's thermal ceiling after 1 ms: one step down while a zone is at or above its threshold, and at step 0 one more eighth of array issue
gated; one step up per 10 ms, and one eighth less per 1 ms, once every zone is 5 °C below. -/
def DiePower.heat (p : DiePower) (zones : List (Nat × Nat)) : DiePower :=
  if zones.any fun z => decide (z.2 ≤ z.1) then
    if p.thermCeil = 0 then { p with gateEighth := min 8 (p.gateEighth + 1), thermMs := 0 } else { p with thermCeil := p.thermCeil - 1, thermMs := 0 }
  else if zones.all fun z => decide (z.1 + 5 ≤ z.2) then
    let p := { p with gateEighth := p.gateEighth - 1 }
    if 9 ≤ p.thermMs then { p with thermCeil := min 28 (p.thermCeil + 1), thermMs := 0 } else { p with thermMs := p.thermMs + 1 }
  else p

/-- The hottest zone and its kind, dies before the hub before stacks before engines. -/
def hottestZone (t : Temps) : Nat × Nat :=
  let top := fun (l : List Nat) => l.foldl max 0
  let l := [(top t.dieZones, 0), (t.hubZone, 1), (top t.stackZones, 2), (top t.oeZones, 3)]
  l.foldl (fun (a : Nat × Nat) b => if a.1 < b.1 then b else a) (top t.dieZones, 0)

/-- THERMAL_LOOP_TICK, every 1 ms. -/
def doThermalLoopTick (t : Temps) (s : State) : State :=
  if !s.live then s
  else
    let s := forEach (allFin 4) (fun s d => s.modDie d fun x => { x with pwr := x.pwr.heat (zonesOf t s.pwc.thermCfg d) }) s
    let hot := maskOf 7 ((List.range 7).filter fun k => decide (80 ≤ t.oeZones.getD k 0))
    let held := maskOf 4 ((allFin 4).filterMap fun d =>
      let c := (s.die d).pwr.thermCeil
      if c < 28 ∧ c ≤ s.curStep d then some d.1 else none)
    let (top, zone) := hottestZone t
    let s := s.modPwc fun p => { p with
      thermStatus := fput thermHottest (min 255 top) (fput thermZone zone (fput thermOeHot hot.toNat (fput (11, 8) held.toNat p.thermStatus))) }
    s.syncGate

/-! ## Trips, rails and brown-out (R318) -/

/-- Whether a tamper event's wipe is under way: the device halts rather than restart (spec 18 R329). -/
def State.tampering (s : State) : Bool := match s.sec.wipe with
  | some x => x.2 == 0
  | none => false

/-- A stop in the course of a tamper event halts the device. -/
def State.stopOr (s : State) (cause : Nat) (how : StopEnd) (mp : Bool) : State :=
  if s.tampering then (s.stop cause .halt mp).modBoot fun b => { b with tamperHalt := true } else s.stop cause how mp

/-- THERMAL_TRIP. -/
def doThermalTrip (s : State) : State :=
  if !s.live then s
  else
    let s := s.modPwc fun p => { p with thermStatus := fsat thermTrips 1 p.thermStatus }
    s.stopOr stopThermal .trip true

/-- Whether every zone lies 20 °C below its trip. -/
def zonesCool (t : Temps) : Bool :=
  (t.dieZones.all fun x => x ≤ 95) && t.hubZone ≤ 95 && (t.stackZones.all fun x => x ≤ 85) && t.oeZones.all fun x => x ≤ 70

/-- THERMAL_TRIP_RESTART. -/
def doThermalTripRestart (t : Temps) (s : State) : State :=
  if !s.pwc.tripped ∨ !zonesCool t then s else (s.modPwc fun p => { p with tripped := false }).restartNow

/-- The Terti ports of an optical engine; OE6 has none. -/
def enginePorts (k : Fin 7) : List (Fin 24) := (allFin 24).filter fun p => p.1 / 4 == k.1

/-- OE_OVERTEMP: the lasers go off, the ports are LOST; at OE6 the host link and MP go down. -/
def doOeOvertemp (k : Fin 7) (s : State) : State :=
  if !s.live ∨ s.pwc.oeDark.getLsbD k.1 then s
  else
    let s := (s.modPwc fun p => { p with oeDark := p.oeDark ||| BitVec.twoPow 7 k.1 }).log .pwc lgPower [3, k.1]
    let s := forEach (enginePorts k) (fun s p => (s.modPhy p fun y => { y with light := false }).portLose p 1) s
    if k.1 = 6 then (doHostLinkDown s).modBoot fun b => { b with mpUp := false } else s

/-- OE_COOLED: the ports re-acquire; MP comes back if BS-07 had brought it up. -/
def doOeCooled (k : Fin 7) (s : State) : State :=
  if !s.pwc.oeDark.getLsbD k.1 then s
  else
    let s := s.modPwc fun p => { p with oeDark := p.oeDark &&& ~~~(BitVec.twoPow 7 k.1) }
    if !s.live then s
    else if k.1 = 6 then s.modBoot fun b => { b with mpUp := b.mpRate != 0 }
    else forEach (enginePorts k) (fun s p =>
      if s.portState p = pstLost ∧ s.portOn p then (s.modPhy p fun y => { y with reacqAt := s.aon + reacquireTicks }).trainPort p else s) s

/-- DIE_RAIL_FAULT. -/
def doDieRailFault (d : Fin 4) (s : State) : State :=
  if !(s.die d).pwr.aclkOn then s else (s.gateDie d).log .pwc lgPower [4, d.1]

/-- STACK_RAIL_FAULT. -/
def doStackRailFault (k : Fin 8) (s : State) : State :=
  if !s.live ∨ fon stkLost (s.stk k).status then s else (s.loseStack k 3).log .pwc lgPower [5, k.1]

/-- BROWNOUT: by a rail or VIN too low, or by VIN too high (spec 22 R356). In the tick of a trip the brown-out is what is recorded. -/
def doBrownout (high : Bool) (s : State) : State :=
  if s.live ∨ s.pwc.state = pwWatch then s.stopOr stopBrownout (.brown high) false
  else if s.pwc.tripped ∧ s.pwc.tripAt = s.aon then
    (s.modBoot fun b => { b with retained := stopBrownout }).modPwc fun p => { p with brown := true, overVolt := high }
  else s

/-- BROWNOUT_RESTART: VIN, in mV, is at or above 40 V, and not above 60 V after an over-voltage. -/
def doBrownoutRestart (vinMv : Nat) (s : State) : State :=
  if !s.pwc.brown ∨ vinMv < 40000 ∨ (s.pwc.overVolt ∧ 60000 < vinMv) then s
  else (s.modPwc fun p => { p with brown := false }).restartNow

/-! ## WATCH (R319, spec 22 R361) -/

/-- The WATCH period in AON ticks: 1 to 1,000 ms. -/
def State.watchPeriod (s : State) : Nat := ticksPerMs * max 1 (min 1000 (fget watchCfgPeriodMs s.pwc.watchCfg))

/-- Wake sources (Table 17-12). -/
def wakeLight : Nat := 0
def wakeThermal : Nat := 1
def wakeSupply : Nat := 2
def wakeTimer : Nat := 3

/-- Whether any zone is at or above WATCH_WAKE. -/
def zoneAtLeast (t : Temps) (x : Nat) : Bool :=
  (t.dieZones.any fun y => x ≤ y) || x ≤ t.hubZone || (t.stackZones.any fun y => x ≤ y) || t.oeZones.any fun y => x ≤ y

/-- WATCH_SAMPLE: the samples of Table 17-5 in order; the first that holds is acted on. -/
def doWatchSample (overrun : Bool) (t : Temps) (vinMv : Nat) (mgtInRange : Bool) (s : State) : State :=
  if s.pwc.state ≠ pwWatch ∨ s.aon < s.pwc.watchAt + s.watchPeriod then s
  else
    let n := s.pwc.watchTaken + 1
    let s := s.modPwc fun p => { p with watchAt := p.watchAt + s.watchPeriod, watchTaken := n }
    let latched := match s.boot.wakeLatch with
      | some x => decide (x < s.aon)
      | none => false
    let timer := fget watchCfgTimerSamples s.pwc.watchCfg
    if overrun then s.stopOr stopBrownout (.brown false) false
    else if latched then (s.modBoot fun b => { b with wakeLatch := none }).wake wakeLight
    else if zoneAtLeast t (fget thermCfgWatchWake s.pwc.thermCfg) then s.wake wakeThermal
    else if vinMv < 40000 ∨ 60000 < vinMv ∨ !mgtInRange then s.wake wakeSupply
    else if timer ≠ 0 ∧ timer ≤ n then s.wake wakeTimer
    else s

/-- Whether the device is halted in a way that a wake-light pattern ends (R305). -/
def State.haltedForWake (s : State) : Bool := fon ldgStartHalted s.boot.ldgStart && !s.boot.tamperHalt && s.boot.pwrOk && s.boot.rstN

/-- WAKE_LIGHT_FRAME: a valid frame for this SLOT, or for all, sets the latch; it starts a halted device. -/
def doWakeLightFrame (preambleOk : Bool) (slot : BitVec 12) (code : BitVec 4) (crcOk : Bool) (s : State) : State :=
  let mine := slot.toNat = fget strapSlot s.boot.straps ∨ slot = 0xFFF
  if !preambleOk ∨ !crcOk ∨ code ≠ 5 ∨ !mine ∨ !s.boot.pwrOk then s
  else if s.haltedForWake then s.beginStart true
  else s.modBoot fun b => { b with wakeLatch := b.wakeLatch.or (some s.aon) }

/-! ## A tick of the always-on clock -/

/-- ACLK cycles of an AON tick at a step: 1,200 MHz and 25 MHz per step, over 25 MHz (R313). -/
def cyclesPerTick (n : Nat) : Nat := 48 + n

/-- Whether a running activity holds a bank group or an accumulator bank of a die (spec 06 Table 6-7, row 2). -/
def State.mxaHeld (s : State) (d : Fin 4) : Bool :=
  s.marb.running.any fun a => a.resources.any fun r => r.1 == codeUnit d.1 8 || r.1 == codeUnit d.1 6 || r.1 == codeUnit d.1 7

/-- The idle cause of a semaphore that the MXA queue's head, or dispatch before an empty MXA queue, waits on (Table 6-7, rows 5 and 6). -/
def State.semCause (s : State) (d : Fin 4) : Option Nat :=
  let q := (s.die d).seq
  match q.prog, q.wait with
  | some p, some w =>
    if !w.mxa ∧ !q.mxaQ.isEmpty then none
    else
      let b := byteAt p.semattr w.sem
      let withheld : Bool := match fin? 4 (b / 64) with
        | some r => decide ((s.mq r).fOwed ≠ 0)
        | none => false
      some (if b % 16 == 1 && withheld then 6 else b % 16)
  | _, _ => none

/-- The cause to which a die's idle cycles go, in the order of Table 6-7. Row 4 never holds: a matrix instruction is fed within its
command. -/
def State.idleCause (s : State) (d : Fin 4) : Nat :=
  if s.dieFenced d || (vget s.fab.resets d).isSome then 9
  else if s.mxaHeld d then 8
  else match s.semCause d with
  | some c => c
  | none => if (s.die d).seq.prog.isNone then 5 else 0

/-- The eighths of array issue that the fast guard or the thermal response gates on a die (Table 6-7, row 3). -/
def State.gated (s : State) (d : Fin 4) : Nat := max s.pwc.guard (s.die d).pwr.gateEighth

/-- Add cycles to SEQ.IDLE of a cause. -/
def DieRegs.addIdle (g : DieRegs) (cause n : Nat) : DieRegs :=
  match fin? 10 cause with
  | some i => { g with idle := vmod g.idle i fun v => v + BitVec.ofNat 64 n }
  | none => g

/-- The cycles of a tick are counted once each while the die's ACLK runs (spec 06 R129): those that are gated as THROTTLE, unless an
earlier row holds, and the rest under their cause. -/
def State.countCycles (s : State) (d : Fin 4) : State :=
  if !(s.die d).pwr.aclkOn then s
  else
    let n := cyclesPerTick (s.curStep d)
    let c := s.idleCause d
    let thr := if 8 ≤ c then 0 else n * s.gated d / 8
    s.modRegs d fun g => (g.addIdle 7 thr).addIdle c (n - thr)

/-- What an AON tick does by itself: TIME.AON advances in every power state (spec 20 R338), the cycle counters of R129 advance, and while a
thermal trip holds the device stopped the PWC sends a notice every 2^20 ticks (Table 17-4). -/
def tick (s : State) : State :=
  let s := forEach (allFin 4) State.countCycles { s with aon := s.aon + 1 }
  if s.pwc.tripped && s.boot.mpUp && (s.aon - s.pwc.tripAt) % 2 ^ 20 == 0 then s.emit (.report rpTrip []) else s

end Sys2Proof.Machine
end

