-- ==== Sys2Proof/Machine/ExecBoot.lean ====
section
/-!
DEFINITION. Power, reset and boot commands, and the losses of clocks (spec 16, spec 01): one meaning for each command, over the operations that the families share.
-/
namespace Sys2Proof.Machine

/-- PWR_OK_RISE (spec 16 R293). -/
def execPwrOkRise (s : State) : Host.Outcome State Fault Refusal :=
  ranStill (doPwrOkRise) s

/-- PWR_OK_FALL (spec 16 R293). -/
def execPwrOkFall (s : State) : Host.Outcome State Fault Refusal :=
  ranStill (doPwrOkFall) s

/-- RST_N_ASSERT (spec 16 R293). -/
def execRstNAssert (ticks : Nat) (s : State) : Host.Outcome State Fault Refusal :=
  ranStill (doRstNAssert ticks) s

/-- RST_N_RELEASE (spec 16 R293). -/
def execRstNRelease (s0 s1 s2 : Word) (s : State) : Host.Outcome State Fault Refusal :=
  ranStill (doRstNRelease s0 s1 s2) s

/-- BS_01_SUPPLY (spec 16 R296). -/
def execBs01Supply (r : List (List Attempt)) (s : State) : Host.Outcome State Fault Refusal :=
  ranStill (doBs01 r) s

/-- BS_02_CLOCKS (spec 01 R11). -/
def execBs02Clocks (r : List (List Attempt)) (s : State) : Host.Outcome State Fault Refusal :=
  ranStill (doBs02 r) s

/-- BS_03_SECURITY (spec 18 R320). -/
def execBs03Security (r : List (List Attempt)) (s : State) : Host.Outcome State Fault Refusal :=
  ranStill (doBs03 r) s

/-- BS_04_HUB_SRAM (spec 07 R143). -/
def execBs04HubSram (r : List (List Attempt)) (s : State) : Host.Outcome State Fault Refusal :=
  ranStill (doBs04 r) s

/-- BS_05_IMAGE (spec 16 R302). -/
def execBs05Image (r : List (List Attempt)) (s : State) : Host.Outcome State Fault Refusal :=
  ranStill (doBs05 r) s

/-- BS_06_FIRMWARE (spec 16 R296). -/
def execBs06Firmware (r : List (List Attempt)) (s : State) : Host.Outcome State Fault Refusal :=
  ranStill (doBs06 r) s

/-- BS_07_MGMT (spec 16 R296). -/
def execBs07Mgmt (r : List (List Attempt)) (s : State) : Host.Outcome State Fault Refusal :=
  ranStill (doBs07 r) s

/-- BS_08_DIE_POWER (spec 16 R296). -/
def execBs08DiePower (r : List (List Attempt)) (s : State) : Host.Outcome State Fault Refusal :=
  ranStill (doBs08 r) s

/-- BS_09_SCRATCHPAD (spec 07 R143). -/
def execBs09Scratchpad (r : List (List Attempt)) (s : State) : Host.Outcome State Fault Refusal :=
  ranStill (doBs09 r) s

/-- BS_10_BUNDLES (spec 09 R165). -/
def execBs10Bundles (r : List (List Attempt)) (s : State) : Host.Outcome State Fault Refusal :=
  ranStill (doBs10 r) s

/-- BS_11_STACKS (spec 08 R149). -/
def execBs11Stacks (r : List (List Attempt)) (s : State) : Host.Outcome State Fault Refusal :=
  ranStill (doBs11 r) s

/-- BS_12_STACK_REPAIR (spec 16 R296). -/
def execBs12StackRepair (r : List (List Attempt)) (s : State) : Host.Outcome State Fault Refusal :=
  ranStill (doBs12 r) s

/-- BS_13_PORTS (spec 16 R296). -/
def execBs13Ports (r : List (List Attempt)) (s : State) : Host.Outcome State Fault Refusal :=
  ranStill (doBs13 r) s

/-- BS_14_SERVICE (spec 16 R304). -/
def execBs14Service (r : List (List Attempt)) (s : State) : Host.Outcome State Fault Refusal :=
  ranStill (doBs14 r) s

/-- BOOT_STEP_TIMEOUT (spec 16 R296). -/
def execBootStepTimeout (s : State) : Host.Outcome State Fault Refusal :=
  ranStill (doBootStepTimeout) s

/-- BOOT_RESTART (spec 16 R298). -/
def execBootRestart (s : State) : Host.Outcome State Fault Refusal :=
  ranStill (doBootRestart) s

/-- LDG_CTRL_CLEAR (spec 16 R300). -/
def execLdgCtrlClear (v : Word) (s : State) : Host.Outcome State Fault Refusal :=
  ranStill (doLdgCtrlClear v) s

/-- REF_OSC_LOST (spec 01 R18). -/
def execRefOscLost (s : State) : Host.Outcome State Fault Refusal :=
  ranStill (doRefOscLost) s

/-- FCLK_LOCK_LOST (spec 01 R18). -/
def execFclkLockLost (s : State) : Host.Outcome State Fault Refusal :=
  ranStill (doFclkLockLost) s

/-- GCLK_LOCK_LOST (spec 01 R18). -/
def execGclkLockLost (s : State) : Host.Outcome State Fault Refusal :=
  ranStill (doGclkLockLost) s

/-- AON_OSC_STOPPED (spec 01 R18). -/
def execAonOscStopped (s : State) : Host.Outcome State Fault Refusal :=
  ranStill (doAonOscStopped) s

/-- ACLK_LOCK_LOST (spec 01 R18). -/
def execAclkLockLost (d : Fin 4) (s : State) : Host.Outcome State Fault Refusal :=
  ran (doAclkLockLost d) s

/-- MCLK_LOCK_LOST (spec 01 R18). -/
def execMclkLockLost (k : Fin 8) (s : State) : Host.Outcome State Fault Refusal :=
  ran (doMclkLockLost k) s

/-- CLK_FAULT_WRITE (spec 01 R19). -/
def execClkFaultWrite (v : Word) (s : State) : Host.Outcome State Fault Refusal :=
  ranStill (doClkFaultWrite v) s

/-- BOOT_IMAGE_ARRIVAL (spec 16 R302). -/
def execBootImageArrival (src : BootPath) (image : List Byte) (s : State) : Host.Outcome State Fault Refusal :=
  ranStill (doBootImageArrival src image) s

/-- AON_OSCILLATOR_RETURN (spec 01 R19). -/
def execAonOscillatorReturn (s : State) : Host.Outcome State Fault Refusal :=
  ranStill (doAonOscillatorReturn) s

end Sys2Proof.Machine
end

