-- ==== Sys2Proof/Machine/ExecCopy.lean ====
section
/-!
DEFINITION. Copies, fills, promotion and re-shards (spec 14): one meaning for each command, over the operations that the families share.
-/
namespace Sys2Proof.Machine

/-- PAIR (spec 14 R262). -/
def execPair (p : Fin 24) (s : State) : Host.Outcome State Fault Refusal :=
  ran (doPair p) s

/-- PAIR_ACK (spec 14 R262). -/
def execPairAck (p : Fin 24) (s : State) : Host.Outcome State Fault Refusal :=
  ran (doPairAck p) s

/-- COPY_DATA (spec 14 R263). -/
def execCopyData (p : Fin 24) (s : State) : Host.Outcome State Fault Refusal :=
  ran (doCopyData p) s

/-- COPY_DONE (spec 14 R263). -/
def execCopyDone (p : Fin 24) (s : State) : Host.Outcome State Fault Refusal :=
  ran (doCopyDone p) s

/-- FILL_REQ (spec 14 R271). -/
def execFillReq (p : Fin 24) (s : State) : Host.Outcome State Fault Refusal :=
  ran (doFillReq p) s

/-- FILL_DATA (spec 14 R271). -/
def execFillData (p : Fin 24) (s : State) : Host.Outcome State Fault Refusal :=
  ran (doFillData p) s

/-- FILL_FAIL (spec 14 R271). -/
def execFillFail (p : Fin 24) (s : State) : Host.Outcome State Fault Refusal :=
  ran (doFillFail p) s

/-- FILL_LIMIT_EXPIRY (spec 14 R271). -/
def execFillLimitExpiry (s : State) : Host.Outcome State Fault Refusal :=
  ran (doFillLimitExpiry) s

/-- DIGEST_REQ (spec 14 R272). -/
def execDigestReq (p : Fin 24) (s : State) : Host.Outcome State Fault Refusal :=
  ran (doDigestReq p) s

/-- DIGEST_DATA (spec 14 R270). -/
def execDigestData (p : Fin 24) (s : State) : Host.Outcome State Fault Refusal :=
  ran (doDigestData p) s

/-- PROMOTE_LOCATE (spec 14 R270). -/
def execPromoteLocate (s : State) : Host.Outcome State Fault Refusal :=
  ran (doPromoteLocate) s

/-- PROMOTE_RECORD (spec 14 R270). -/
def execPromoteRecord (s : State) : Host.Outcome State Fault Refusal :=
  ran (doPromoteRecord) s

/-- PROMOTE_FILL (spec 14 R270). -/
def execPromoteFill (s : State) : Host.Outcome State Fault Refusal :=
  ran (doPromoteFill) s

/-- PROMOTE_VERIFY (spec 14 R273). -/
def execPromoteVerify (s : State) : Host.Outcome State Fault Refusal :=
  ran (doPromoteVerify) s

/-- PROMOTE_REJOIN (spec 14 R270). -/
def execPromoteRejoin (s : State) : Host.Outcome State Fault Refusal :=
  ran (doPromoteRejoin) s

/-- RESHARD_CUTOVER (spec 13 R256). -/
def execReshardCutover (s : State) : Host.Outcome State Fault Refusal :=
  ran (doReshardCutover) s

end Sys2Proof.Machine
end

