-- ==== Sys2Proof/Machine/ExecDie.lean ====
section
/-!
DEFINITION. The sequencer and the engines of a compute die (spec 03 to 06): one meaning for each command, over the operations that the families share.
-/
namespace Sys2Proof.Machine

/-- SEQ_DISPATCH (spec 06 R114). -/
def execSeqDispatch (d : Fin 4) (u : List Upset) (s : State) : Host.Outcome State Fault Refusal :=
  ran (doDispatch d u) s

/-- MMUL (spec 03 R46). -/
def execMmul (d : Fin 4) (u : List Upset) (s : State) : Host.Outcome State Fault Refusal :=
  ran (startMmul d u) s

/-- MMUL_COMPLETE (spec 03 R64). -/
def execMmulComplete (d : Fin 4) (bank : Fin 2) (u : List Upset) (s : State) : Host.Outcome State Fault Refusal :=
  ran (finishMmul d bank.1 u) s

/-- VEW (spec 05 R96). -/
def execVew (d : Fin 4) (u : List Upset) (s : State) : Host.Outcome State Fault Refusal :=
  ran (startVew d u) s

/-- VCVT (spec 05 R98). -/
def execVcvt (d : Fin 4) (u : List Upset) (s : State) : Host.Outcome State Fault Refusal :=
  ran (startVcvt d u) s

/-- VTADD (spec 05 R99). -/
def execVtadd (d : Fin 4) (u : List Upset) (s : State) : Host.Outcome State Fault Refusal :=
  ran (startVtadd d u) s

/-- VRED (spec 05 R101). -/
def execVred (d : Fin 4) (u : List Upset) (s : State) : Host.Outcome State Fault Refusal :=
  ran (startVred d u) s

/-- VPERM_PERM (spec 05 R103). -/
def execVpermPerm (d : Fin 4) (u : List Upset) (s : State) : Host.Outcome State Fault Refusal :=
  ran (startPerm d u) s

/-- VPERM_GATHER (spec 05 R104). -/
def execVpermGather (d : Fin 4) (u : List Upset) (s : State) : Host.Outcome State Fault Refusal :=
  ran (startGather d u) s

/-- VOPT_SGD_MOM (spec 05 R106). -/
def execVoptSgdMom (d : Fin 4) (u : List Upset) (s : State) : Host.Outcome State Fault Refusal :=
  ran (startSgd d u) s

/-- VOPT_ADAMW (spec 05 R106). -/
def execVoptAdamw (d : Fin 4) (u : List Upset) (s : State) : Host.Outcome State Fault Refusal :=
  ran (startAdamw d u) s

/-- MOV_COPY (spec 06 R121). -/
def execMovCopy (d : Fin 4) (u : List Upset) (s : State) : Host.Outcome State Fault Refusal :=
  ran (startCopy d u) s

/-- MOV_FILL (spec 06 R121). -/
def execMovFill (d : Fin 4) (u : List Upset) (s : State) : Host.Outcome State Fault Refusal :=
  ran (startFill d u) s

/-- MOV_HUBOP (spec 06 R121). -/
def execMovHubop (d : Fin 4) (u : List Upset) (s : State) : Host.Outcome State Fault Refusal :=
  ran (startHubop d u) s

/-- TRN_TRANSPOSE (spec 06 R121). -/
def execTrnTranspose (d : Fin 4) (u : List Upset) (s : State) : Host.Outcome State Fault Refusal :=
  ran (startTranspose d u) s

/-- TRN_PANEL (spec 06 R121). -/
def execTrnPanel (d : Fin 4) (u : List Upset) (s : State) : Host.Outcome State Fault Refusal :=
  ran (startPanel d u) s

/-- TRN_UNPANEL (spec 06 R121). -/
def execTrnUnpanel (d : Fin 4) (u : List Upset) (s : State) : Host.Outcome State Fault Refusal :=
  ran (startUnpanel d u) s

/-- RNG_UNIFORM (spec 06 R122). -/
def execRngUniform (d : Fin 4) (u : List Upset) (s : State) : Host.Outcome State Fault Refusal :=
  ran (startUniform d u) s

/-- RNG_BERNOULLI (spec 06 R122). -/
def execRngBernoulli (d : Fin 4) (u : List Upset) (s : State) : Host.Outcome State Fault Refusal :=
  ran (startBernoulli d u) s

/-- RNG_NORMAL (spec 06 R122). -/
def execRngNormal (d : Fin 4) (u : List Upset) (s : State) : Host.Outcome State Fault Refusal :=
  ran (startNormal d u) s

/-- ENGINE_INSTRUCTION_COMPLETE (spec 06 R117). -/
def execEngineInstructionComplete (d : Fin 4) (e : Engine) (s : State) : Host.Outcome State Fault Refusal :=
  ran (finishEngine d e) s

/-- WAIT_TIMEOUT (spec 06 R130). -/
def execWaitTimeout (d : Fin 4) (s : State) : Host.Outcome State Fault Refusal :=
  ran (doWaitTimeout d) s

/-- SEMAPHORE_ADD_PORT_B (spec 06 R119). -/
def execSemaphoreAddPortB (d : Fin 4) (sem : Fin 128) (v : Word) (s : State) : Host.Outcome State Fault Refusal :=
  ran (doSemAddPortB d sem v) s

end Sys2Proof.Machine
end

