-- ==== Sys2Proof/Machine/ExecFabric.lean ====
section
/-!
DEFINITION. The die fabric (spec 09): one meaning for each command, over the operations that the families share.
-/
namespace Sys2Proof.Machine

/-- BUNDLE_ENTRY_RECEIVE (spec 09 R162). -/
def execBundleEntryReceive (b : Fin 80) (tag : Nat) (crcOk : Bool) (s : State) : Host.Outcome State Fault Refusal :=
  ran (doBundleEntryReceive b tag crcOk) s

/-- EYE_MEASUREMENT (spec 09 R166). -/
def execEyeMeasurement (b : Fin 80) (widths : List Nat) (s : State) : Host.Outcome State Fault Refusal :=
  ran (doEyeMeasurement b widths) s

/-- CRC_WINDOW_END (spec 09 R166). -/
def execCrcWindowEnd (b : Fin 80) (s : State) : Host.Outcome State Fault Refusal :=
  ran (doCrcWindowEnd b) s

/-- CASTLING (spec 09 R167). -/
def execCastling (b : Fin 80) (s : State) : Host.Outcome State Fault Refusal :=
  ran (doCastling b) s

/-- CASTLING_SWITCH (spec 09 R167). -/
def execCastlingSwitch (b : Fin 80) (s : State) : Host.Outcome State Fault Refusal :=
  ran (doCastlingSwitch b) s

/-- CASTLING_COMPLETE (spec 09 R168). -/
def execCastlingComplete (b : Fin 80) (pass : Bool) (s : State) : Host.Outcome State Fault Refusal :=
  ran (doCastlingComplete b pass) s

/-- BUNDLE_RETRAIN (spec 09 R166). -/
def execBundleRetrain (b : Fin 80) (s : State) : Host.Outcome State Fault Refusal :=
  ran (doBundleRetrain b) s

/-- BUNDLE_RETRAIN_COMPLETE (spec 09 R166). -/
def execBundleRetrainComplete (b : Fin 80) (bad : List Nat) (s : State) : Host.Outcome State Fault Refusal :=
  ran (doBundleRetrainComplete b bad) s

/-- LCLK_MISSING (spec 09 R175). -/
def execLclkMissing (d : Fin 4) (bs : List (Fin 80)) (s : State) : Host.Outcome State Fault Refusal :=
  ran (doLclkMissing d bs) s

/-- DIE_HUB_CLOCK_LOSS (spec 09 R175). -/
def execDieHubClockLoss (d : Fin 4) (s : State) : Host.Outcome State Fault Refusal :=
  ran (doDieHubClockLoss d) s

/-- DIE_FENCE_RESET_HOLD (spec 09 R176). -/
def execDieFenceResetHold (d : Fin 4) (s : State) : Host.Outcome State Fault Refusal :=
  ran (doDieFenceResetHold d) s

/-- DIE_FENCE_COMPLETE (spec 09 R176). -/
def execDieFenceComplete (d : Fin 4) (s : State) : Host.Outcome State Fault Refusal :=
  ran (doDieFenceComplete d) s

end Sys2Proof.Machine
end

