-- ==== Sys2Proof/Machine/Security.lean ====
section
/-!
DEFINITION. The security block (spec 18): quotes, life-cycle transitions, tamper events and the vault wipe (spec 07 R142).
-/
namespace Sys2Proof.Machine

def lgWipe : Nat := 20
def lgTamper : Nat := 21

/-! ## ATTEST (R327) -/

/-- A digest's 48 bytes (log entry 8). -/
def digestBytes (d : BitVec 384) : List Byte := natLe 48 d.toNat

/-- The fuse banks 0 to 5 in bank order (Table 18-3). -/
def Fuses.allBanks (f : Fuses) : List Byte := ((List.range 6).map fun i => Config.fuseBytes i (f.bank i)).flatten

/-- FLAGS of the quote: debug honoured, tamper recorded since VDD_AON rose, AON fallback. -/
def State.quoteFlags (s : State) : Nat :=
  b2n (fon secDbgActive s.sec.status) + 2 * b2n s.sec.tampered + 4 * b2n (fon clkFaultAonFallback s.pwc.clkFault)

/-- KEYS of the quote: the slots fused and the slots revoked. -/
def Fuses.keyBits (f : Fuses) : Nat :=
  ((allFin 4).map fun i => b2n (vget f.keys i).fused * 2 ^ i.1 + b2n (vget f.keys i).revoked * 2 ^ (4 + i.1)).sum

/-- The quote's body (Table 18-4). -/
def State.quoteBody (s : State) (nonce : Nat) : List Byte :=
  let f := s.sec.fuses
  let (digest, method) := match s.boot.manifest with
    | some m => (m.digest, m.method)
    | none => (0, 0)
  natLe 4 0x54515753 ++ natLe 4 1 ++ natLe 16 nonce ++ natLe 1 (fget secLifecycle s.sec.status) ++ natLe 1 (fget strapFeedId s.boot.straps) ++
  natLe 1 s.quoteFlags ++ natLe 1 f.rmaCount ++ natLe 4 s.boot.straps.toNat ++ natLe 1 f.svn ++ natLe 1 f.keyBits ++ natLe 1 method ++
  natLe 1 0 ++ natLe 4 s.job.identity.toNat ++ natLe 4 (fget ldgStartStarts s.boot.ldgStart) ++ natLe 4 0 ++ digestBytes digest ++
  digestBytes (Config.sha384 f.allBanks) ++ digestBytes s.sec.measure ++ natLe 16 f.serial.toNat ++ natLe 48 0

/-- The quote: body and both signatures, 16,864 bytes. -/
def State.quote (s : State) (nonce : Nat) : List Byte :=
  let b := s.quoteBody nonce
  b ++ padTo 384 (Config.rsaSigns b) ++ padTo 16224 (Config.slhSigns b)

/-- ATTEST. -/
def doAttest (h : Quad) (s : State) : State :=
  s.start h 0x51 fun c s =>
    let (t, bad) := s.sink (c.arg 24 8) (s.quote (c.arg 8 16))
    match bad with
    | some x => t.final h x.1 x.2
    | none => t.finalOk h []

/-! ## LIFECYCLE (R321 to R323) -/

/-- The signing slots of a transition (Table 18-2); none where there is no such transition. -/
def lifeSigners (f t : Nat) : Option (List Nat) :=
  if t = 5 then (if f = 5 then none else some [0, 1, 2, 3])
  else if f = 1 ∧ t = 2 then some [0, 1]
  else if f = 2 ∧ t = 3 then some [2, 3]
  else if f = 3 ∧ t = 4 then some [2, 3]
  else if f = 4 ∧ t = 3 then some [0, 1]
  else none

/-- The form of an authorisation body (R322): magic, the slot it names, reserved bytes. -/
def authFormat (b : List Byte) : Bool :=
  let a := slice b 0xD00 256
  leAt a 0 4 == 0x48545541 && byteAt a 6 == byteAt b 7 && allZero (slice a 24 40) &&
    ((byteAt a 4 == 1 && byteAt a 5 == 2) || allZero (slice a 64 192))

/-- The first failing check of an authorisation (R322). Any fused slot that is not revoked may sign for SCRAPPED. -/
def State.authFault (s : State) (b : List Byte) (target : Nat) : Option Nat :=
  if !(manifestFormat b 2 0 && authFormat b) then some 1
  else if !s.keyHash b (target == 5) then some 2
  else if !rsaOk b then some 3
  else if !slhOk b then some 4
  else none

/-- Whether an authorisation fits the device's present values and the transition asked for. -/
def State.authFits (s : State) (b : List Byte) (target : Nat) (signers : List Nat) : Bool :=
  let a := slice b 0xD00 256
  let f := s.sec.fuses
  byteAt a 4 == f.lifeState && byteAt a 5 == target && byteAt a 7 == f.rmaCount && leAt a 8 16 == f.serial.toNat && signers.contains (byteAt a 6)

/-- Begin a wipe of the vault: `why` is 0 for a tamper event and 1 for a life-cycle change. -/
def State.startWipe (s : State) (why : Nat) : State := s.modSec fun x => { x with wipe := some (1, why) }

/-- LIFECYCLE: an authorised transition starts with the wipe of the vault. -/
def doLifecycle (h : Quad) (src : HostData) (s : State) : State :=
  if s.sec.wipe.isSome then s
  else s.start h 0x52 fun c s =>
    let t := c.arg 8 1
    let f := s.sec.fuses
    match lifeSigners f.lifeState t with
    | none => s.denied h dtLifeCycle
    | some signers =>
      if s.anyProgram ∨ (f.lifeState = 4 ∧ t = 3 ∧ 3 ≤ f.rmaCount) then s.denied h dtLifeCycle
      else s.withSource h (c.arg 16 8) manifestBytes src fun b s =>
        match s.authFault b t with
        | some x => s.bad h (0x100#16 + BitVec.ofNat 16 x)
        | none =>
          if !s.authFits b t signers then s.denied h dtLifeCycle
          else (s.modSec fun x => { x with lifecycle := some (h, t, slice b 0xD00 256) }).startWipe 1

/-- The fuses after an authorised transition (R323 steps 2 and 3): key slots 2 and 3, or an RMA count fuse, then the state word. -/
def Fuses.transition (f : Fuses) (t : Nat) (body : List Byte) : Fuses :=
  let f := if f.lifeState = 1 ∧ t = 2 then
      let slot := fun (o : Nat) => (KeySlot.mk (digestOf (slice body o 48)) (digestOf (slice body (o + 48) 48)) true false)
      { f with keys := vset (vset f.keys 2 (slot 64)) 3 (slot 160) }
    else if f.lifeState = 3 ∧ t = 4 then { f with rmaCount := min 3 (f.rmaCount + 1) }
    else f
  { f with lifeWords := f.lifeWords ++ [t] }

/-- The vault, empty. -/
def HubMem.wipeVault (h : HubMem) : HubMem :=
  { h with sram := ⟨h.sram.bytes.filter fun c => decide (c.1 < vaultBase), h.sram.marks.filter fun m => decide (8 * m.1 < vaultBase)⟩ }

/-! ## Tamper and wipe (R329, spec 07 R142) -/

/-- The lowest-coded sensor that tripped; the light sensor is masked in MANUFACTURE and RMA. -/
def State.tamperSensor (s : State) (light voltage clock : Bool) : Option Nat :=
  let st := s.sec.fuses.lifeState
  if light ∧ st ≠ 1 ∧ st ≠ 4 then some 1 else if voltage then some 2 else if clock then some 3 else none

/-- Record a tamper event in SEC.TAMPER (Table 18-6): SOURCE is that of the first. -/
def State.recordTamper (s : State) (source : Nat) : State :=
  let up := fun (w : Word) => fsat tamperCount 1 (if fon tamperValid w then w else fput tamperValid 1 (fput tamperSource source w))
  (s.modSec fun x => { x with tamper := up x.tamper, tampered := true }).log .sec lgTamper [source]

/-- Halt without restart, until PWR_OK rises or RST_N is released. -/
def State.tamperStop (s : State) : State :=
  if s.live then (s.stop stopPowerOn .halt true).modBoot fun b => { b with tamperHalt := true }
  else
    let s := s.modPwc fun p => { p with tripped := false, brown := false, state := pwStopped }
    s.modBoot fun b => { b with restartAt := none, tamperHalt := true, ldgStart := fput ldgStartHalted 1 b.ldgStart }

/-- TAMPER_EVENT: the vault is wiped, afresh if a wipe is under way, and any LIFECYCLE is abandoned; the device halts when the wipe has
ended. A device in WATCH or stopped, whose vault is empty, only halts; one without PWR_OK only records. -/
def doTamperEvent (light voltage clock : Bool) (s : State) : State :=
  match s.tamperSensor light voltage clock with
  | none => s
  | some x =>
    let s := (s.recordTamper x).modSec fun x => { x with lifecycle := none, fuseHeld := false }
    if !s.boot.pwrOk then s else if s.live then s.startWipe 0 else s.tamperStop

/-- The end of a LIFECYCLE whose wipe has ended (R323). -/
def State.lifeDone (s : State) (ok : Bool) : State :=
  match s.sec.lifecycle with
  | none => s
  | some (h, t, body) =>
    let s := s.modSec fun x => { x with lifecycle := none, fuses := if ok then x.fuses.transition t body else x.fuses }
    if ok then s.finalOk h [] else s.final h stInternal 0

/-- VAULT_WIPE_COMPLETE: `bad` is a word that the verify pass found not zero. Up to three passes; a wipe that still fails keeps the vault
held until the next start. Fuses are blown once no readback holds their array. -/
def doVaultWipeComplete (bad : Option Nat) (s : State) : State :=
  match s.sec.wipe with
  | none => s
  | some (pass, why) =>
    let reading := s.marb.running.any fun a => a.resources.contains (codeSec, 0)
    if why = 1 ∧ bad.isNone ∧ reading then s
    else
      let s := s.modHub HubMem.wipeVault
      match bad with
      | some w =>
        if pass < 3 then s.modSec fun x => { x with wipe := some (pass + 1, why) }
        else
          let s := s.modSec fun x => { x with wipe := none, vaultHeld := true, status := fput secWipeFail 1 x.status }
          let s := s.log .sec lgWipe [0, w]
          if why = 0 then s.tamperStop else s.lifeDone false
      | none =>
        let s := (s.modSec fun x => { x with wipe := none }).log .sec lgWipe [1]
        if why = 0 then s.tamperStop else s.lifeDone true

end Sys2Proof.Machine
end

