-- ==== Sys2Proof/Machine/ExecHost.lean ====
section
/-!
DEFINITION. Host rings and host commands (spec 15): one meaning for each command, over the operations that the families share.
-/
namespace Sys2Proof.Machine

/-- DESCRIPTOR_FETCH (spec 15 R283). -/
def execDescriptorFetch (q : Fin 32) (batch : List HostData) (s : State) : Host.Outcome State Fault Refusal :=
  ranStill (doDescriptorFetch q batch) s

/-- SQ_TAIL (spec 15 R283). -/
def execSqTail (q : Fin 32) (v : Half) (s : State) : Host.Outcome State Fault Refusal :=
  ranStill (doSqTail q v) s

/-- CQ_HEAD (spec 15 R291). -/
def execCqHead (q : Fin 32) (v : Half) (s : State) : Host.Outcome State Fault Refusal :=
  ranStill (doCqHead q v) s

/-- SQ_ENABLE (spec 15 R281). -/
def execSqEnable (q : Fin 32) (v : Word) (s : State) : Host.Outcome State Fault Refusal :=
  ranStill (doSqEnable q v) s

/-- CQ_ENABLE (spec 15 R281). -/
def execCqEnable (q : Fin 32) (v : Word) (s : State) : Host.Outcome State Fault Refusal :=
  ranStill (doCqEnable q v) s

/-- COMPLETION_RECORD_WRITE (spec 15 R285). -/
def execCompletionRecordWrite (q : Fin 32) (s : State) : Host.Outcome State Fault Refusal :=
  ranStill (doCompletionRecordWrite q) s

/-- CQ_INTERRUPT_TIMER (spec 15 R291). -/
def execCqInterruptTimer (q : Fin 32) (s : State) : Host.Outcome State Fault Refusal :=
  ranStill (doCqInterruptTimer q) s

/-- PROGRESS_RECORD_TIMER (spec 15 R290). -/
def execProgressRecordTimer (h : Quad) (s : State) : Host.Outcome State Fault Refusal :=
  ranStill (doProgressRecordTimer h) s

/-- HOST_LINK_DOWN (spec 15 R292). -/
def execHostLinkDown (s : State) : Host.Outcome State Fault Refusal :=
  ran (doHostLinkDown) s

/-- CMD_NOP (spec 15 R286). -/
def execCmdNop (h : Quad) (s : State) : Host.Outcome State Fault Refusal :=
  ranStill (doNop h) s

/-- CANCEL (spec 15 R288). -/
def execCancel (h : Quad) (s : State) : Host.Outcome State Fault Refusal :=
  ran (doCancel h) s

/-- PORT_RELEASE (spec 10 R203). -/
def execPortRelease (h : Quad) (s : State) : Host.Outcome State Fault Refusal :=
  ran (doPortRelease h) s

/-- LOAD_PROGRAM (spec 06 R125). -/
def execLoadProgram (h : Quad) (src : HostData) (s : State) : Host.Outcome State Fault Refusal :=
  ran (doLoadProgram h src) s

/-- RUN_PROGRAM (spec 06 R126). -/
def execRunProgram (h : Quad) (s : State) : Host.Outcome State Fault Refusal :=
  ran (doRunProgram h) s

/-- SET_IDENTITY (spec 11 R206). -/
def execSetIdentity (h : Quad) (s : State) : Host.Outcome State Fault Refusal :=
  ran (doSetIdentity h) s

/-- ROLE_INSTALL (spec 12 R215). -/
def execRoleInstall (h : Quad) (src : HostData) (s : State) : Host.Outcome State Fault Refusal :=
  ran (doRoleInstall h src) s

/-- ROLE_REMOVE (spec 12 R236). -/
def execRoleRemove (h : Quad) (src : HostData) (s : State) : Host.Outcome State Fault Refusal :=
  ran (doRoleRemove h src) s

/-- WVT_INSTALL (spec 12 R236). -/
def execWvtInstall (h : Quad) (src : HostData) (s : State) : Host.Outcome State Fault Refusal :=
  ran (doWvtInstall h src) s

/-- GROUP_INSTALL (spec 11 R209). -/
def execGroupInstall (h : Quad) (src : HostData) (s : State) : Host.Outcome State Fault Refusal :=
  ran (doGroupInstall h src) s

/-- GROUP_REMOVE (spec 11 R208). -/
def execGroupRemove (h : Quad) (s : State) : Host.Outcome State Fault Refusal :=
  ran (doGroupRemove h) s

/-- GROUP_ADOPT (spec 11 R210). -/
def execGroupAdopt (h : Quad) (s : State) : Host.Outcome State Fault Refusal :=
  ran (doGroupAdopt h) s

/-- BUDDY_PAIR (spec 14 R262). -/
def execBuddyPair (h : Quad) (s : State) : Host.Outcome State Fault Refusal :=
  ran (doBuddyPair h) s

/-- HOLD_COPY (spec 14 R262). -/
def execHoldCopy (h : Quad) (s : State) : Host.Outcome State Fault Refusal :=
  ran (doHoldCopy h) s

/-- PROMOTE (spec 14 R270). -/
def execPromote (h : Quad) (src : HostData) (s : State) : Host.Outcome State Fault Refusal :=
  ran (doPromote h src) s

/-- FILL (spec 14 R270). -/
def execFill (h : Quad) (src : HostData) (s : State) : Host.Outcome State Fault Refusal :=
  ran (doFill h src) s

/-- CHECKPOINT_DRAIN (spec 14 R263). -/
def execCheckpointDrain (h : Quad) (s : State) : Host.Outcome State Fault Refusal :=
  ran (doCheckpointDrain h) s

/-- RESHARD (spec 13 R256). -/
def execReshard (h : Quad) (rearm moves : HostData) (s : State) : Host.Outcome State Fault Refusal :=
  ran (doReshard h rearm moves) s

/-- MARCH (spec 07 R144). -/
def execMarch (h : Quad) (src : HostData) (s : State) : Host.Outcome State Fault Refusal :=
  ran (doMarch h src) s

/-- SCRUB (spec 08 R156). -/
def execScrub (h : Quad) (s : State) : Host.Outcome State Fault Refusal :=
  ran (doScrub h) s

/-- CALIBRATE_BUNDLE_RETRAIN (spec 09 R166). -/
def execCalibrateBundleRetrain (h : Quad) (s : State) : Host.Outcome State Fault Refusal :=
  ran (doCalibrateRetrain h) s

/-- CALIBRATE_CASTLING (spec 09 R167). -/
def execCalibrateCastling (h : Quad) (s : State) : Host.Outcome State Fault Refusal :=
  ran (doCalibrateCastling h) s

/-- CALIBRATE_OPTICAL_REEQ (spec 10 R194). -/
def execCalibrateOpticalReeq (h : Quad) (s : State) : Host.Outcome State Fault Refusal :=
  ran (doCalibrateReeq h) s

/-- CALIBRATE_THERMAL (spec 19 R331). -/
def execCalibrateThermal (h : Quad) (s : State) : Host.Outcome State Fault Refusal :=
  ran (doCalibrateThermal h) s

/-- FUSE_READ (spec 18 R326). -/
def execFuseRead (h : Quad) (s : State) : Host.Outcome State Fault Refusal :=
  ran (doFuseRead h) s

/-- DIE_RESET (spec 09 R178). -/
def execDieReset (h : Quad) (s : State) : Host.Outcome State Fault Refusal :=
  ran (doDieReset h) s

/-- POWER_ACTIVE (spec 17 R309). -/
def execPowerActive (h : Quad) (s : State) : Host.Outcome State Fault Refusal :=
  ranStill (doPowerActive h) s

/-- POWER_IDLE (spec 17 R309). -/
def execPowerIdle (h : Quad) (s : State) : Host.Outcome State Fault Refusal :=
  ranStill (doPowerIdle h) s

/-- POWER_DIE_OFF (spec 17 R310). -/
def execPowerDieOff (h : Quad) (s : State) : Host.Outcome State Fault Refusal :=
  ranStill (doPowerDieOff h) s

/-- POWER_WATCH (spec 17 R319). -/
def execPowerWatch (h : Quad) (s : State) : Host.Outcome State Fault Refusal :=
  ranStill (doPowerWatch h) s

/-- ATTEST (spec 18 R327). -/
def execAttest (h : Quad) (s : State) : Host.Outcome State Fault Refusal :=
  ranStill (doAttest h) s

/-- LIFECYCLE (spec 18 R323). -/
def execLifecycle (h : Quad) (src : HostData) (s : State) : Host.Outcome State Fault Refusal :=
  ranStill (doLifecycle h src) s

/-- HOST_LINK_UP (spec 15 R292). -/
def execHostLinkUp (s : State) : Host.Outcome State Fault Refusal :=
  ranStill (doHostLinkUp) s

end Sys2Proof.Machine
end

