-- ==== Sys2Proof/Machine/ExecMaint.lean ====
section
/-!
DEFINITION. Maintenance (spec 19): one meaning for each command, over the operations that the families share.
-/
namespace Sys2Proof.Machine

/-- MARB_ADMIT (spec 19 R333). -/
def execMarbAdmit (s : State) : Host.Outcome State Fault Refusal :=
  ran (doMarbAdmitAll) s

/-- MARB_STALL_OVERRUN (spec 19 R335). -/
def execMarbStallOverrun (id : Nat) (s : State) : Host.Outcome State Fault Refusal :=
  ran (doStallOverrun id) s

/-- MARCH_COMPLETE (spec 07 R146). -/
def execMarchComplete (id : Nat) (fails : List MarchFail) (s : State) : Host.Outcome State Fault Refusal :=
  ran (doMarchComplete id fails) s

/-- SCRUB_COMPLETE (spec 08 R156). -/
def execScrubComplete (id : Nat) (s : State) : Host.Outcome State Fault Refusal :=
  ran (doScrubComplete id) s

/-- THERMAL_CALIBRATION_COMPLETE (spec 19 R331). -/
def execThermalCalibrationComplete (id : Nat) (s : State) : Host.Outcome State Fault Refusal :=
  ran (doThermalCalibrationComplete id) s

/-- DIE_RESET_DRAIN_END (spec 09 R178). -/
def execDieResetDrainEnd (d : Fin 4) (s : State) : Host.Outcome State Fault Refusal :=
  ran (doDieResetDrainEnd d) s

/-- DIE_RESET_ABANDON (spec 09 R178). -/
def execDieResetAbandon (d : Fin 4) (s : State) : Host.Outcome State Fault Refusal :=
  ran (doDieResetAbandon d) s

/-- DIE_RESET_REJOIN (spec 09 R178). -/
def execDieResetRejoin (d : Fin 4) (bad : List (Nat × Nat)) (lostStacks : List (Fin 8)) (s : State) : Host.Outcome State Fault Refusal :=
  ran (doDieResetRejoin d bad lostStacks) s

/-- FUSE_READ_COMPLETE (spec 19 R331). -/
def execFuseReadComplete (s : State) : Host.Outcome State Fault Refusal :=
  ran (doFuseReadComplete) s

end Sys2Proof.Machine
end

