-- ==== Sys2Proof/Machine/ExecMem.lean ====
section
/-!
DEFINITION. Memories and coherence (spec 07 to 09, spec 15): one meaning for each command, over the operations that the families share.
-/
namespace Sys2Proof.Machine

/-- SPAD_CE_WRITEBACK (spec 07 R134). -/
def execSpadCeWriteback (site : Site) (word : Nat) (s : State) : Host.Outcome State Fault Refusal :=
  ranStill (doSpadCeWriteback site word) s

/-- HOST_MEM_READ (spec 15 R279). -/
def execHostMemRead (addr len busy : Nat) (own : Bool) (u : List Upset) (s : State) : Host.Outcome State Fault Refusal :=
  ran (doHostMemRead addr len busy own u) s

/-- HOST_MEM_WRITE (spec 15 R279). -/
def execHostMemWrite (addr : Nat) (data : List Byte) (busy : Bool) (u : List Upset) (s : State) : Host.Outcome State Fault Refusal :=
  ran (doHostMemWrite addr data busy u) s

/-- BACK_INVALIDATE_RESPONSE (spec 15 R280). -/
def execBackInvalidateResponse (line : Nat) (dirty : HostData) (s : State) : Host.Outcome State Fault Refusal :=
  ran (doBackInvalidateResponse line dirty) s

/-- HOME_FILTER_INVAL_ACK (spec 09 R173). -/
def execHomeFilterInvalAck (line : Nat) (s : State) : Host.Outcome State Fault Refusal :=
  ran (doInvalAck line) s

/-- REMOTE_CACHE_FILL_ARRIVAL (spec 09 R174). -/
def execRemoteCacheFillArrival (d : Fin 4) (line : Nat) (s : State) : Host.Outcome State Fault Refusal :=
  ran (doFillArrival d line) s

/-- REMOTE_CACHE_INVALIDATE (spec 09 R174). -/
def execRemoteCacheInvalidate (d : Fin 4) (line : Nat) (s : State) : Host.Outcome State Fault Refusal :=
  ran (doRemoteInvalidate d line) s

/-- STK_CE_WRITEBACK (spec 08 R154). -/
def execStkCeWriteback (k : Fin 8) (group : Nat) (s : State) : Host.Outcome State Fault Refusal :=
  ranStill (doStkCeWriteback k group) s

/-- PATROL_SCRUB_READ (spec 08 R156). -/
def execPatrolScrubRead (k : Fin 8) (u : List Upset) (s : State) : Host.Outcome State Fault Refusal :=
  ran (doPatrolScrub k u) s

/-- ERASE_WINDOW_END (spec 08 R155). -/
def execEraseWindowEnd (k : Fin 8) (s : State) : Host.Outcome State Fault Refusal :=
  ranStill (doEraseWindowEnd k) s

/-- STACK_NO_RESPONSE (spec 08 R160). -/
def execStackNoResponse (k : Fin 8) (s : State) : Host.Outcome State Fault Refusal :=
  ran (doStackNoResponse k) s

/-- PSEUDO_CHANNEL_RETRAIN_FAIL (spec 08 R160). -/
def execPseudoChannelRetrainFail (k : Fin 8) (s : State) : Host.Outcome State Fault Refusal :=
  ran (doPcRetrainFail k) s

/-- H2D_SNOOP (spec 15 R277). -/
def execH2dSnoop (line : Nat) (s : State) : Host.Outcome State Fault Refusal :=
  ranStill (doSnoop line) s

end Sys2Proof.Machine
end

