-- ==== Sys2Proof/Machine/ExecPort.lean ====
section
/-!
DEFINITION. Terti ports (spec 10): one meaning for each command, over the operations that the families share.
-/
namespace Sys2Proof.Machine

/-- TERTI_FLIT_RECEIVE (spec 10 R189). -/
def execTertiFlitReceive (p : Fin 24) (lam : Fin 8) (fecOk : Bool) (flit : List Byte) (s : State) : Host.Outcome State Fault Refusal :=
  ran (doFlitReceive p lam fecOk flit) s

/-- TERTI_FLIT_TRANSMIT (spec 10 R188). -/
def execTertiFlitTransmit (p : Fin 24) (s : State) : Host.Outcome State Fault Refusal :=
  ran (doFlitTransmit p) s

/-- ACK_TIMEOUT_REPLAY (spec 10 R189). -/
def execAckTimeoutReplay (p : Fin 24) (s : State) : Host.Outcome State Fault Refusal :=
  ran (doAckTimeoutReplay p) s

/-- CTL_PARAM (spec 10 R191). -/
def execCtlParam (p : Fin 24) (s : State) : Host.Outcome State Fault Refusal :=
  ran (doCtlParam p) s

/-- CTL_SYNC (spec 10 R195). -/
def execCtlSync (p : Fin 24) (s : State) : Host.Outcome State Fault Refusal :=
  ran (doCtlSync p) s

/-- CTL_FFE_REQ (spec 10 R192). -/
def execCtlFfeReq (p : Fin 24) (s : State) : Host.Outcome State Fault Refusal :=
  ran (doCtlFfeReq p) s

/-- CTL_LAMBDA_NOTICE (spec 10 R195). -/
def execCtlLambdaNotice (p : Fin 24) (s : State) : Host.Outcome State Fault Refusal :=
  ran (doCtlLambdaNotice p) s

/-- CTL_RTT_PROBE (spec 10 R190). -/
def execCtlRttProbe (p : Fin 24) (s : State) : Host.Outcome State Fault Refusal :=
  ran (doCtlRttProbe p) s

/-- CTL_RTT_ECHO (spec 10 R190). -/
def execCtlRttEcho (p : Fin 24) (rtt : Nat) (s : State) : Host.Outcome State Fault Refusal :=
  ran (doCtlRttEcho p rtt) s

/-- CTL_REPEAT (spec 10 R190). -/
def execCtlRepeat (p : Fin 24) (s : State) : Host.Outcome State Fault Refusal :=
  ran (doCtlRepeat p) s

/-- PORT_ENABLE_WRITE (spec 10 R191). -/
def execPortEnableWrite (p : Fin 24) (v : Word) (s : State) : Host.Outcome State Fault Refusal :=
  ran (doPortEnableWrite p v) s

/-- TERTI_TRAINING_COMPLETE (spec 10 R191). -/
def execTertiTrainingComplete (p : Fin 24) (tx rx : BitVec 8) (s : State) : Host.Outcome State Fault Refusal :=
  ran (doTrainingComplete p tx rx) s

/-- TRAINING_STEP_TIMEOUT (spec 10 R191). -/
def execTrainingStepTimeout (p : Fin 24) (stage : Nat) (rxSide : Bool) (lam : Fin 8) (s : State) : Host.Outcome State Fault Refusal :=
  ran (doTrainingStepTimeout p stage rxSide lam) s

/-- CTLE_ADAPT_TICK (spec 10 R192). -/
def execCtleAdaptTick (p : Fin 24) (s : State) : Host.Outcome State Fault Refusal :=
  ran (doCtleAdaptTick p) s

/-- FFE_REQ_COUNT (spec 10 R192). -/
def execFfeReqCount (p : Fin 24) (lam : Fin 8) (tap : Nat) (delta : Int) (s : State) : Host.Outcome State Fault Refusal :=
  ran (doFfeReqCount p lam tap delta) s

/-- LASER_BIAS_TICK (spec 10 R192). -/
def execLaserBiasTick (p : Fin 24) (low : BitVec 8) (s : State) : Host.Outcome State Fault Refusal :=
  ran (doLaserBiasTick p low) s

/-- WAVELENGTH_FAIL (spec 10 R194). -/
def execWavelengthFail (p : Fin 24) (rxSide : Bool) (lam : Fin 8) (s : State) : Host.Outcome State Fault Refusal :=
  ran (doWavelengthFail p rxSide lam) s

/-- WAVELENGTH_WINDOW_END (spec 10 R192). -/
def execWavelengthWindowEnd (p : Fin 24) (s : State) : Host.Outcome State Fault Refusal :=
  ran (doWavelengthWindowEnd p) s

/-- TERTI_RETRAIN_COMPLETE (spec 10 R195). -/
def execTertiRetrainComplete (p : Fin 24) (ok : Bool) (s : State) : Host.Outcome State Fault Refusal :=
  ran (doRetrainComplete p ok) s

/-- PORT_LOSS_OF_LIGHT (spec 10 R194). -/
def execPortLossOfLight (p : Fin 24) (s : State) : Host.Outcome State Fault Refusal :=
  ran (doPortLossOfLight p) s

/-- PORT_REACQUIRE (spec 10 R196). -/
def execPortReacquire (p : Fin 24) (s : State) : Host.Outcome State Fault Refusal :=
  ran (doPortReacquire p) s

/-- REPLAY_WINDOW_END (spec 10 R194). -/
def execReplayWindowEnd (p : Fin 24) (s : State) : Host.Outcome State Fault Refusal :=
  ran (doReplayWindowEnd p) s

/-- MESSAGE_HOLD_EXPIRY (spec 10 R198). -/
def execMessageHoldExpiry (p : Fin 24) (vc : Fin 8) (s : State) : Host.Outcome State Fault Refusal :=
  ran (doMessageHoldExpiry p vc) s

/-- QUARANTINE_WINDOW_END (spec 10 R203). -/
def execQuarantineWindowEnd (p : Fin 24) (s : State) : Host.Outcome State Fault Refusal :=
  ran (doQuarantineWindowEnd p) s

/-- NACK_SEND (spec 10 R201). -/
def execNackSend (p : Fin 24) (s : State) : Host.Outcome State Fault Refusal :=
  ran (doNackSend p) s

/-- NACK (spec 10 R201). -/
def execNack (p : Fin 24) (s : State) : Host.Outcome State Fault Refusal :=
  ran (doNack p) s

/-- EXPECT_WRITE (spec 11 R210). -/
def execExpectWrite (p : Fin 24) (v : Word) (s : State) : Host.Outcome State Fault Refusal :=
  ran (fun s => s.writeExpect p v) s

/-- MGMT_MESSAGE (spec 10 R185). -/
def execMgmtMessage (p : Fin 24) (s : State) : Host.Outcome State Fault Refusal :=
  ran (doMgmtMessage p) s

/-- LIGHT_RETURN (spec 10 R203). -/
def execLightReturn (p : Fin 24) (s : State) : Host.Outcome State Fault Refusal :=
  ran (doLightReturn p) s

end Sys2Proof.Machine
end

