-- ==== Sys2Proof/Machine/ExecPower.lean ====
section
/-!
DEFINITION. Power and thermal control (spec 17): one meaning for each command, over the operations that the families share.
-/
namespace Sys2Proof.Machine

/-- PWC_MODE_WRITE (spec 17 R308). -/
def execPwcModeWrite (v : Word) (s : State) : Host.Outcome State Fault Refusal :=
  ranStill (doPwcModeWrite v) s

/-- POWER_TRANSITION_START (spec 17 R308). -/
def execPowerTransitionStart (pending : Bool) (s : State) : Host.Outcome State Fault Refusal :=
  ran (doPowerTransitionStart pending) s

/-- DIE_OFF_EXIT_COMPLETE (spec 17 R311). -/
def execDieOffExitComplete (d : Fin 4) (bad : List (Nat × Nat)) (lostStacks : List (Fin 8)) (s : State) : Host.Outcome State Fault Refusal :=
  ran (doDieOffExitComplete d bad lostStacks) s

/-- PAD_HOLD_WRITE (spec 17 R312). -/
def execPadHoldWrite (v : Word) (s : State) : Host.Outcome State Fault Refusal :=
  ranStill (doPadHoldWrite v) s

/-- DVFS_LOOP_TICK (spec 17 R313). -/
def execDvfsLoopTick (s : State) : Host.Outcome State Fault Refusal :=
  ranStill (doDvfsLoopTick) s

/-- DROOP_CEILING_RECOVERY (spec 17 R314). -/
def execDroopCeilingRecovery (d : Fin 4) (s : State) : Host.Outcome State Fault Refusal :=
  ranStill (doDroopCeilingRecovery d) s

/-- POWER_MEASURE_TICK (spec 17 R315). -/
def execPowerMeasureTick (vinMv currentMa : Nat) (s : State) : Host.Outcome State Fault Refusal :=
  ranStill (doPowerMeasureTick vinMv currentMa) s

/-- CAP_LOOP_TICK (spec 17 R315). -/
def execCapLoopTick (s : State) : Host.Outcome State Fault Refusal :=
  ranStill (doCapLoopTick) s

/-- THERMAL_LOOP_TICK (spec 17 R317). -/
def execThermalLoopTick (t : Temps) (s : State) : Host.Outcome State Fault Refusal :=
  ranStill (doThermalLoopTick t) s

/-- THERMAL_TRIP (spec 17 R318). -/
def execThermalTrip (s : State) : Host.Outcome State Fault Refusal :=
  ranStill (doThermalTrip) s

/-- THERMAL_TRIP_RESTART (spec 17 R318). -/
def execThermalTripRestart (t : Temps) (s : State) : Host.Outcome State Fault Refusal :=
  ranStill (doThermalTripRestart t) s

/-- OE_OVERTEMP (spec 17 R318). -/
def execOeOvertemp (k : Fin 7) (s : State) : Host.Outcome State Fault Refusal :=
  ran (doOeOvertemp k) s

/-- OE_COOLED (spec 17 R318). -/
def execOeCooled (k : Fin 7) (s : State) : Host.Outcome State Fault Refusal :=
  ran (doOeCooled k) s

/-- DIE_RAIL_FAULT (spec 17 R318). -/
def execDieRailFault (d : Fin 4) (s : State) : Host.Outcome State Fault Refusal :=
  ran (doDieRailFault d) s

/-- STACK_RAIL_FAULT (spec 17 R318). -/
def execStackRailFault (k : Fin 8) (s : State) : Host.Outcome State Fault Refusal :=
  ran (doStackRailFault k) s

/-- BROWNOUT (spec 17 R318). -/
def execBrownout (overVolt : Bool) (s : State) : Host.Outcome State Fault Refusal :=
  ranStill (doBrownout overVolt) s

/-- BROWNOUT_RESTART (spec 17 R318). -/
def execBrownoutRestart (vinMv : Nat) (s : State) : Host.Outcome State Fault Refusal :=
  ranStill (doBrownoutRestart vinMv) s

/-- WATCH_SAMPLE (spec 17 R319). -/
def execWatchSample (overrun : Bool) (t : Temps) (vinMv : Nat) (mgtInRange : Bool) (s : State) : Host.Outcome State Fault Refusal :=
  ranStill (doWatchSample overrun t vinMv mgtInRange) s

/-- WAKE_LIGHT_FRAME (spec 22 R361). -/
def execWakeLightFrame (preambleOk : Bool) (slot : BitVec 12) (code : BitVec 4) (crcOk : Bool) (s : State) : Host.Outcome State Fault Refusal :=
  ranStill (doWakeLightFrame preambleOk slot code crcOk) s

/-- DROOP_SENSOR_TRIP (spec 17 R314). -/
def execDroopSensorTrip (d : Fin 4) (s : State) : Host.Outcome State Fault Refusal :=
  ranStill (doDroopSensorTrip d) s

end Sys2Proof.Machine
end

