-- ==== Sys2Proof/Machine/Registers.lean ====
section
/-!
DEFINITION. The set-up registers of BAR0 (spec 21): the register map of Tables 21-1 and 21-2, reads with their snapshots and clears
(R341, R345), writes by field (R344 to R347), and the debug protocol of MP (spec 18 R330).
-/
namespace Sys2Proof.Machine

/-- The registers of a die block (Table 21-2). -/
inductive DieReg where
  | descBase | tsw0 | tsw1 | tgrid | mxaExc | vxeStat | vxeExc | fault | seqState | active
  | idle (n : Fin 10)
  | spadEcc | spadUe | repair | collide
deriving DecidableEq, Repr

/-- The registers of Table 21-2; `ldgStep k` is LDG.STEP_STATUS(k + 1), `vcount p c` TERTI.VCOUNT(p, c + 1). -/
inductive Reg where
  | devId | sampled
  | sqBase (q : Fin 32) | cqBase (q : Fin 32) | sqCfg (q : Fin 32) | cqCfg (q : Fin 32) | sqSeq (q : Fin 32)
  | ringErr | memErr
  | clkFault | pwcMode | power | dvfs (d : Fin 4) | thermCfg | thermStatus | watchCfg | lastWake | padHold
  | secStatus | tamper
  | ldgStart | ldgCtrl | ldgStep (k : Fin 14)
  | marbStatus | wdog | dietest
  | timeAon | snapCfg
  | identity | role (r : Fin 4) | grpStatus (g : Fin 64)
  | sleUp (r : Fin 4) | sleDown (r : Fin 4) | spbuf (r : Fin 4)
  | roleCfg (r : Fin 4) | fpay (r : Fin 4) | bpay (r : Fin 4)
  | stashCfg (r : Fin 4) | stashUse (r : Fin 4) | stashMb (r : Fin 4) | stepStat (r : Fin 4)
  | stashArea (d : Fin 4) | mbqBase
  | wvtCfg | roleRange (r : Fin 4)
  | buddy | hold | copy (r : Fin 4) | decision (r : Fin 4) | frCfg
  | tlyCfg | staging | tlyStat | tlyCheck
  | hubEcc | hubUe | hubRepair
  | bundleStatus (b : Fin 80) | laneMap (b : Fin 80) | bundleErr (b : Fin 80) | dieState (d : Fin 4) | castleCfg
  | stkStatus (k : Fin 8) | stkCfg (k : Fin 8) | stkScrub (k : Fin 8) | stkEcc (k : Fin 8) | stkUe (k : Fin 8)
  | regionMode (n : Fin 8)
  | portCfg (p : Fin 24) | portStatus (p : Fin 24) | portPartner (p : Fin 24) | vcWeight (p : Fin 24)
  | vlogStat (p : Fin 24) | linkErr (p : Fin 24) | vcount (p : Fin 24) (c : Fin 15) | vlog (p : Fin 24) (i : Fin 64)
  | die (d : Fin 4) (r : DieReg)
deriving DecidableEq, Repr

/-! ## The map (Tables 21-1, 21-2) -/

/-- Offset of a register within its die block. -/
def DieReg.off : DieReg → Nat
  | .descBase => 0x0000
  | .tsw0 => 0x0008
  | .tsw1 => 0x0010
  | .tgrid => 0x0018
  | .mxaExc => 0x0020
  | .vxeStat => 0x1000
  | .vxeExc => 0x1008
  | .fault => 0x2000
  | .seqState => 0x2008
  | .active => 0x2010
  | .idle n => 0x2018 + 8 * n.1
  | .spadEcc => 0x3000
  | .spadUe => 0x3008
  | .repair => 0x3010
  | .collide => 0x4000

/-- BAR0 offset of a register. -/
def Reg.addr : Reg → Nat
  | .devId => 0x000000
  | .sampled => 0x010000
  | .sqBase q => 0x020000 + 8 * q.1
  | .cqBase q => 0x020100 + 8 * q.1
  | .sqCfg q => 0x020200 + 8 * q.1
  | .cqCfg q => 0x020300 + 8 * q.1
  | .sqSeq q => 0x020400 + 8 * q.1
  | .ringErr => 0x020500
  | .memErr => 0x020508
  | .clkFault => 0x030000
  | .pwcMode => 0x030008
  | .power => 0x030010
  | .dvfs d => 0x030018 + 8 * d.1
  | .thermCfg => 0x030038
  | .thermStatus => 0x030040
  | .watchCfg => 0x030048
  | .lastWake => 0x030050
  | .padHold => 0x030058
  | .secStatus => 0x040000
  | .tamper => 0x040008
  | .ldgStart => 0x050000
  | .ldgCtrl => 0x050008
  | .ldgStep k => 0x050108 + 8 * k.1
  | .marbStatus => 0x060000
  | .wdog => 0x060008
  | .dietest => 0x060010
  | .timeAon => 0x070000
  | .snapCfg => 0x070008
  | .identity => 0x080000
  | .role r => 0x080010 + 8 * r.1
  | .grpStatus g => 0x080100 + 8 * g.1
  | .sleUp r => 0x090000 + 16 * r.1
  | .sleDown r => 0x090040 + 16 * r.1
  | .spbuf r => 0x090080 + 8 * r.1
  | .roleCfg r => 0x0A0000 + 8 * r.1
  | .fpay r => 0x0A0020 + 8 * r.1
  | .bpay r => 0x0A0040 + 8 * r.1
  | .stashCfg r => 0x0A0060 + 8 * r.1
  | .stashUse r => 0x0A0080 + 8 * r.1
  | .stashMb r => 0x0A00A0 + 8 * r.1
  | .stepStat r => 0x0A00C0 + 16 * r.1
  | .stashArea d => 0x0A0100 + 8 * d.1
  | .mbqBase => 0x0A0120
  | .wvtCfg => 0x0B0000
  | .roleRange r => 0x0B0008 + 8 * r.1
  | .buddy => 0x0B0100
  | .hold => 0x0B0108
  | .copy r => 0x0B0110 + 8 * r.1
  | .decision r => 0x0B0130 + 8 * r.1
  | .frCfg => 0x0B0150
  | .tlyCfg => 0x0C0000
  | .staging => 0x0C0008
  | .tlyStat => 0x0C0010
  | .tlyCheck => 0x0C0018
  | .hubEcc => 0x0D0000
  | .hubUe => 0x0D0008
  | .hubRepair => 0x0D0010
  | .bundleStatus b => 0x100000 + 32 * b.1
  | .laneMap b => 0x100008 + 32 * b.1
  | .bundleErr b => 0x100010 + 32 * b.1
  | .dieState d => 0x101000 + 8 * d.1
  | .castleCfg => 0x101020
  | .stkStatus k => 0x200000 + 0x1000 * k.1
  | .stkCfg k => 0x200008 + 0x1000 * k.1
  | .stkScrub k => 0x200010 + 0x1000 * k.1
  | .stkEcc k => 0x200018 + 0x1000 * k.1
  | .stkUe k => 0x200020 + 0x1000 * k.1
  | .regionMode n => 0x208000 + 8 * n.1
  | .portCfg p => 0x400000 + 0x10000 * p.1
  | .portStatus p => 0x400008 + 0x10000 * p.1
  | .portPartner p => 0x400010 + 0x10000 * p.1
  | .vcWeight p => 0x400018 + 0x10000 * p.1
  | .vlogStat p => 0x400020 + 0x10000 * p.1
  | .linkErr p => 0x400028 + 0x10000 * p.1
  | .vcount p c => 0x400088 + 8 * c.1 + 0x10000 * p.1
  | .vlog p i => 0x400800 + 32 * i.1 + 0x10000 * p.1
  | .die d r => 0x1000000 + 0x200000 * d.1 + r.off

/-- The element of an array of `n` registers, `step` bytes apart from `base`, whose slot of `size` bytes holds an offset, and the byte
within the slot. -/
def arrAt (n base step size o : Nat) : Option (Fin n × Nat) :=
  if base ≤ o ∧ (o - base) % step < size then (fin? n ((o - base) / step)).map fun i => (i, (o - base) % step) else none

/-- The single register at `base`. -/
def oneAt {α : Type} (base o : Nat) (r : α) : Option (α × Nat) := if base ≤ o ∧ o < base + 8 then some (r, o - base) else none

/-- An array of registers of one slot each. -/
def arr8 {α : Type} (n base o : Nat) (f : Fin n → α) : Option (α × Nat) := (arrAt n base 8 8 o).map fun x => (f x.1, x.2)

/-- The register of a die block that holds an offset. -/
def dieRegAt (o : Nat) : Option (DieReg × Nat) :=
  (oneAt 0 o .descBase).orElse fun _ => (oneAt 8 o .tsw0).orElse fun _ => (oneAt 0x10 o .tsw1).orElse fun _ =>
  (oneAt 0x18 o .tgrid).orElse fun _ => (oneAt 0x20 o .mxaExc).orElse fun _ => (oneAt 0x1000 o .vxeStat).orElse fun _ =>
  (oneAt 0x1008 o .vxeExc).orElse fun _ => (oneAt 0x2000 o .fault).orElse fun _ => (oneAt 0x2008 o .seqState).orElse fun _ =>
  (oneAt 0x2010 o .active).orElse fun _ => (arr8 10 0x2018 o .idle).orElse fun _ => (oneAt 0x3000 o .spadEcc).orElse fun _ =>
  (oneAt 0x3008 o .spadUe).orElse fun _ => (oneAt 0x3010 o .repair).orElse fun _ => oneAt 0x4000 o .collide

/-- The register of a 64 KiB block of the hub, by the block's number. -/
def hubRegAt (blk o : Nat) : Option (Reg × Nat) :=
  match blk with
  | 0x0 => oneAt 0 o .devId
  | 0x1 => oneAt 0 o .sampled
  | 0x2 => (arr8 32 0 o .sqBase).orElse fun _ => (arr8 32 0x100 o .cqBase).orElse fun _ => (arr8 32 0x200 o .sqCfg).orElse fun _ =>
    (arr8 32 0x300 o .cqCfg).orElse fun _ => (arr8 32 0x400 o .sqSeq).orElse fun _ => (oneAt 0x500 o .ringErr).orElse fun _ =>
    oneAt 0x508 o .memErr
  | 0x3 => (oneAt 0 o .clkFault).orElse fun _ => (oneAt 8 o .pwcMode).orElse fun _ => (oneAt 0x10 o .power).orElse fun _ =>
    (arr8 4 0x18 o .dvfs).orElse fun _ => (oneAt 0x38 o .thermCfg).orElse fun _ => (oneAt 0x40 o .thermStatus).orElse fun _ =>
    (oneAt 0x48 o .watchCfg).orElse fun _ => (oneAt 0x50 o .lastWake).orElse fun _ => oneAt 0x58 o .padHold
  | 0x4 => (oneAt 0 o .secStatus).orElse fun _ => oneAt 8 o .tamper
  | 0x5 => (oneAt 0 o .ldgStart).orElse fun _ => (oneAt 8 o .ldgCtrl).orElse fun _ => arr8 14 0x108 o .ldgStep
  | 0x6 => (oneAt 0 o .marbStatus).orElse fun _ => (oneAt 8 o .wdog).orElse fun _ => oneAt 0x10 o .dietest
  | 0x7 => (oneAt 0 o .timeAon).orElse fun _ => oneAt 8 o .snapCfg
  | 0x8 => (oneAt 0 o .identity).orElse fun _ => (arr8 4 0x10 o .role).orElse fun _ => arr8 64 0x100 o .grpStatus
  | 0x9 => ((arrAt 4 0 16 16 o).map fun x => (Reg.sleUp x.1, x.2)).orElse fun _ =>
    ((arrAt 4 0x40 16 16 o).map fun x => (Reg.sleDown x.1, x.2)).orElse fun _ => arr8 4 0x80 o .spbuf
  | 0xA => (arr8 4 0 o .roleCfg).orElse fun _ => (arr8 4 0x20 o .fpay).orElse fun _ => (arr8 4 0x40 o .bpay).orElse fun _ =>
    (arr8 4 0x60 o .stashCfg).orElse fun _ => (arr8 4 0x80 o .stashUse).orElse fun _ => (arr8 4 0xA0 o .stashMb).orElse fun _ =>
    ((arrAt 4 0xC0 16 16 o).map fun x => (Reg.stepStat x.1, x.2)).orElse fun _ => (arr8 4 0x100 o .stashArea).orElse fun _ =>
    oneAt 0x120 o .mbqBase
  | 0xB => (oneAt 0 o .wvtCfg).orElse fun _ => (arr8 4 8 o .roleRange).orElse fun _ => (oneAt 0x100 o .buddy).orElse fun _ =>
    (oneAt 0x108 o .hold).orElse fun _ => (arr8 4 0x110 o .copy).orElse fun _ => (arr8 4 0x130 o .decision).orElse fun _ =>
    oneAt 0x150 o .frCfg
  | 0xC => (oneAt 0 o .tlyCfg).orElse fun _ => (oneAt 8 o .staging).orElse fun _ => (oneAt 0x10 o .tlyStat).orElse fun _ =>
    oneAt 0x18 o .tlyCheck
  | 0xD => (oneAt 0 o .hubEcc).orElse fun _ => (oneAt 8 o .hubUe).orElse fun _ => oneAt 0x10 o .hubRepair
  | _ => none

/-- The register of the FAB block. -/
def fabRegAt (o : Nat) : Option (Reg × Nat) :=
  if o < 0x1000 then
    (fin? 80 (o / 32)).bind fun b =>
      match o % 32 / 8 with
      | 0 => some (.bundleStatus b, o % 8)
      | 1 => some (.laneMap b, o % 8)
      | 2 => some (.bundleErr b, o % 8)
      | _ => none
  else (arr8 4 0x1000 o .dieState).orElse fun _ => oneAt 0x1020 o .castleCfg

/-- The register of the STK block. -/
def stkRegAt (o : Nat) : Option (Reg × Nat) :=
  match fin? 8 (o / 0x1000) with
  | none => arr8 8 0x8000 o .regionMode
  | some k =>
    let i := o % 0x1000
    (oneAt 0 i (.stkStatus k)).orElse fun _ => (oneAt 8 i (.stkCfg k)).orElse fun _ => (oneAt 0x10 i (.stkScrub k)).orElse fun _ =>
    (oneAt 0x18 i (.stkEcc k)).orElse fun _ => oneAt 0x20 i (.stkUe k)

/-- The register of a port's 64 KiB. -/
def portRegAt (p : Fin 24) (o : Nat) : Option (Reg × Nat) :=
  (oneAt 0 o (.portCfg p)).orElse fun _ => (oneAt 8 o (.portStatus p)).orElse fun _ => (oneAt 0x10 o (.portPartner p)).orElse fun _ =>
  (oneAt 0x18 o (.vcWeight p)).orElse fun _ => (oneAt 0x20 o (.vlogStat p)).orElse fun _ => (oneAt 0x28 o (.linkErr p)).orElse fun _ =>
  (arr8 15 0x88 o (.vcount p)).orElse fun _ => (arrAt 64 0x800 32 32 o).map fun x => (.vlog p x.1, x.2)

/-- The register whose slot holds a BAR0 offset, and the byte within it; none for a reserved offset. -/
def regAt (off : Nat) : Option (Reg × Nat) :=
  if off < 0x100000 then hubRegAt (off / 0x10000) (off % 0x10000)
  else if off < 0x200000 then fabRegAt (off - 0x100000)
  else if off < 0x400000 then stkRegAt (off - 0x200000)
  else if off < 0x1000000 then (fin? 24 ((off - 0x400000) / 0x10000)).bind fun p => portRegAt p (off % 0x10000)
  else if off < 0x1800000 then
    (fin? 4 ((off - 0x1000000) / 0x200000)).bind fun d => (dieRegAt (off % 0x200000)).map fun x => (.die d x.1, x.2)
  else none

/-- BAR0 ends with the CXL component registers, whose layout is that of CXL (R278; log entry 50). -/
def bar0Size : Nat := 0x2000000
def cxlBlock : Nat := 0x1FF0000

/-- The width of a die register in bytes. -/
def DieReg.bytes : DieReg → Nat
  | .descBase | .tsw0 | .tsw1 | .tgrid | .vxeStat | .seqState => 4
  | _ => 8

/-- The width of a register in bytes. -/
def Reg.bytes : Reg → Nat
  | .sampled | .sqCfg _ | .cqCfg _ | .clkFault | .pwcMode | .dvfs _ | .thermCfg | .thermStatus | .watchCfg | .lastWake | .padHold
  | .secStatus | .tamper | .ldgCtrl | .identity | .grpStatus _ | .stashArea _ | .wvtCfg | .roleRange _ | .frCfg | .tlyCfg
  | .bundleStatus _ | .laneMap _ | .dieState _ | .castleCfg | .stkStatus _ | .stkCfg _ | .stkScrub _ | .portCfg _ | .portStatus _
  | .vcWeight _ | .vcount _ _ => 4
  | .sleUp _ | .sleDown _ | .stepStat _ => 16
  | .vlog _ _ => 32
  | .die _ r => r.bytes
  | _ => 8

/-! ## Values -/

def DieReg.value (x : DieRegs) : DieReg → Nat
  | .descBase => x.descBase.toNat
  | .tsw0 => x.tsw0.toNat
  | .tsw1 => x.tsw1.toNat
  | .tgrid => x.tgrid.toNat
  | .mxaExc => x.mxaExc.toNat
  | .vxeStat => x.vxeStat.toNat
  | .vxeExc => x.vxeExc.toNat
  | .fault => x.fault.toNat
  | .seqState => x.seqState.toNat
  | .active => x.active.toNat
  | .idle n => (vget x.idle n).toNat
  | .spadEcc => x.spadEcc.toNat
  | .spadUe => x.spadUe.toNat
  | .repair => x.repair.toNat
  | .collide => x.collide.toNat

/-- Whether a die's block is served from the hub's copy (R347). -/
def State.blockOut (s : State) (d : Fin 4) : Bool := 2 ≤ s.dieSt d || s.dieFenced d

/-- DEV.ID (Table 21-4). -/
def devIdWord : Quad := 0x00000000530008A1#64

/-- The value of a register, as a read of the whole of it gives it. -/
def State.regValue (s : State) : Reg → Nat
  | .devId => devIdWord.toNat
  | .sampled => s.boot.straps.toNat
  | .sqBase q => (s.sq q).base.toNat
  | .cqBase q => (s.cq q).base.toNat
  | .sqCfg q => (s.sq q).cfg.toNat
  | .cqCfg q => (s.cq q).cfg.toNat
  | .sqSeq q => (s.sq q).seq.toNat
  | .ringErr => s.host.ringErr.toNat
  | .memErr => s.host.memErr.toNat
  | .clkFault => s.pwc.clkFault.toNat
  | .pwcMode => s.pwc.mode.toNat
  | .power => s.pwc.power.toNat
  | .dvfs d => (vget s.pwc.dvfs d).toNat
  | .thermCfg => s.pwc.thermCfg.toNat
  | .thermStatus => s.pwc.thermStatus.toNat
  | .watchCfg => s.pwc.watchCfg.toNat
  | .lastWake => s.pwc.lastWake.toNat
  | .padHold => s.pwc.padHold.toNat
  | .secStatus => s.sec.status.toNat
  | .tamper => s.sec.tamper.toNat
  | .ldgStart => s.boot.ldgStart.toNat
  | .ldgCtrl => s.boot.ldgCtrl.toNat
  | .ldgStep k => (vget s.boot.steps k).toNat
  | .marbStatus => s.marb.status.toNat
  | .wdog => s.marb.wdog.toNat
  | .dietest => s.marb.dietest.toNat
  | .timeAon => s.aon % 2 ^ 64
  | .snapCfg => s.snapCfg.toNat
  | .identity => s.job.identity.toNat
  | .role r => (vget s.job.roles r).toNat
  | .grpStatus g => (vget s.job.groups g).status.toNat
  | .sleUp r => (vget s.sle.up r).reg.toNat
  | .sleDown r => (vget s.sle.down r).reg.toNat
  | .spbuf r => (vget s.sle.spbuf r).reg.toNat
  | .roleCfg r => (s.mq r).cfg.toNat
  | .fpay r => (s.mq r).fpay.toNat
  | .bpay r => (s.mq r).bpay.toNat
  | .stashCfg r => (s.mq r).stashCfg.toNat
  | .stashUse r => (s.mq r).stashUse.toNat
  | .stashMb r => (s.mq r).stashMb.toNat
  | .stepStat r => (s.mq r).stepStat.toNat
  | .stashArea d => (vget s.mbq.area d).toNat
  | .mbqBase => s.mbq.base.toNat
  | .wvtCfg => s.wvt.cfg.toNat
  | .roleRange r => (vget s.wvt.ranges r).toNat
  | .buddy => s.fr.buddy.toNat
  | .hold => s.fr.hold.toNat
  | .copy r => (vget s.fr.copy r).toNat
  | .decision r => (vget s.fr.decision r).toNat
  | .frCfg => s.fr.cfg.toNat
  | .tlyCfg => s.tly.cfg.toNat
  | .staging => s.tly.staging.toNat
  | .tlyStat => s.tly.stat.toNat
  | .tlyCheck => s.tly.check.toNat
  | .hubEcc => s.hub.ecc.toNat
  | .hubUe => s.hub.ue.toNat
  | .hubRepair => s.hub.repair.toNat
  | .bundleStatus b => (vget s.fab.bundles b).status.toNat
  | .laneMap b => (vget s.fab.bundles b).laneMap.toNat
  | .bundleErr b => (vget s.fab.bundles b).err.toNat
  | .dieState d => (vget s.fab.dieState d).toNat
  | .castleCfg => s.fab.castleCfg.toNat
  | .stkStatus k => (s.stk k).status.toNat
  | .stkCfg k => (s.stk k).cfg.toNat
  | .stkScrub k => (s.stk k).scrub.toNat
  | .stkEcc k => (s.stk k).ecc.toNat
  | .stkUe k => (s.stk k).ue.toNat
  | .regionMode n => (vget s.regionMode n).toNat
  | .portCfg p => (s.port p).cfg.toNat
  | .portStatus p => (s.port p).status.toNat
  | .portPartner p => (s.port p).partner.toNat
  | .vcWeight p => (s.port p).vcWeight.toNat
  | .vlogStat p => (s.port p).vlogStat.toNat
  | .linkErr p => (s.port p).linkErr.toNat
  | .vcount p c => (vget (s.port p).vcount ⟨c.1 + 1, by omega⟩).toNat
  | .vlog p i => ((sget (s.port p).vlog i.1).getD 0).toNat
  | .die d r => r.value (if s.blockOut d then (s.die d).copy else (s.die d).regsNow)

/-! ## Reads (R341, R344, R345, R347) -/

/-- A 64-bit value with some fields cleared, where `m` is the mask of its RC fields. -/
def rcClear (m : Quad) (v : Quad) : Quad := v &&& ~~~m
def rcClear32 (m : Word) (v : Word) : Word := v &&& ~~~m

/-- Clear the RC fields of a register (R341). The copy of a die out of service is read without effect. -/
def State.regClear (s : State) : Reg → State
  | .memErr => s.modHost fun h => { h with memErr := 0 }
  | .power => s.modPwc fun p => { p with power := fput powerPeak1ms 0 p.power }
  | .secStatus => s.modSec fun x => { x with status := fput secVaultRefused 0 x.status }
  | .marbStatus => s.modMarb fun m => { m with status := rcClear 0xFFFFFFFFFFFF0000#64 m.status }
  | .stashUse r => s.modMq r fun q => { q with stashUse := fput stashUsePeak 0 q.stashUse }
  | .stashMb r => s.modMq r fun q => { q with stashMb := fput stashMbOverrun 0 q.stashMb }
  | .wvtCfg => s.modWvt fun w => { w with cfg := fput wvtFallbacks 0 w.cfg }
  | .tlyStat => s.modTly fun t => { t with stat := 0 }
  | .tlyCheck => s.modTly fun t => { t with check := 0 }
  | .hubEcc => s.modHub fun h => { h with ecc := 0 }
  | .bundleErr b => s.modFab fun f => { f with bundles := vmod f.bundles b fun x => { x with err := 0 } }
  | .stkEcc k => s.modStk k fun x => { x with ecc := 0 }
  | .linkErr p => s.modPort p fun x => { x with linkErr := 0 }
  | .vcount p c => s.modPort p fun x => { x with vcount := vset x.vcount ⟨c.1 + 1, by omega⟩ 0 }
  | .die d .spadEcc => if s.blockOut d then s else s.modRegs d fun r => { r with spadEcc := 0 }
  | .die d .collide => if s.blockOut d then s else s.modRegs d fun r => { r with collide := 0 }
  | _ => s

/-- Whether an agent's accesses arrive: the host's while its link is up (spec 15 R292), the MCP's while device firmware runs. -/
def State.reaches (s : State) : Agent → Bool
  | .host => s.host.linkUp
  | .mcp => s.boot.coresUp != 0

/-- Whether an access is 4 B or 8 B, naturally aligned and within BAR0 (R344). -/
def accessOk (off size : Nat) : Bool := (size == 4 || size == 8) && off % size == 0 && decide (off + size ≤ bar0Size)

def State.snaps (s : State) : Agent → List Snapshot
  | .host => s.snapHost
  | .mcp => s.snapMcp

def State.setSnaps (s : State) (a : Agent) (l : List Snapshot) : State :=
  match a with
  | .host => { s with snapHost := l }
  | .mcp => { s with snapMcp := l }

/-- Keep an agent's snapshot of a wide register, in place of its last one (R345). -/
def State.keepSnap (s : State) (a : Agent) (r : Reg) (v : Nat) : State :=
  if r.bytes = 4 then s
  else s.setSnaps a (⟨r.addr, BitVec.ofNat 256 v⟩ :: (s.snaps a).filter fun x => x.off != r.addr)

/-- A read within a register's slot from byte `i` on: the value from that byte up, and the state after it. A part read before any read of
bit 0 gives a value that the spec does not state (log entry 49). -/
def State.regRead (s : State) (a : Agent) (r : Reg) (i : Nat) : Nat × State :=
  if i = 0 then (s.regValue r, (s.keepSnap a r (s.regValue r)).regClear r)
  else if r.bytes = 4 then (0, s)
  else match (s.snaps a).find? fun x => x.off == r.addr with
    | some x => (x.val.toNat / 2 ^ (8 * i), s)
    | none => s.fresh (2 ^ 64)

/-- A read of BAR0. -/
def State.readBar0 (s : State) (a : Agent) (off size : Nat) : State :=
  if !s.reaches a then s
  else if !accessOk off size then s.emit (.unsupported a)
  else
    let (v, s) := match regAt off with
      | some (r, i) => s.regRead a r i
      | none => if cxlBlock ≤ off then s.fresh (2 ^ 64) else (0, s)
    s.emit (.registerData a (BitVec.ofNat 64 (v % 2 ^ (8 * size))))

/-- RC_REGISTER_READ (R341). -/
def doRcRegisterRead (a : Agent) (off size : Nat) (s : State) : State := s.readBar0 a off size

/-- WIDE_REGISTER_READ (R345). -/
def doWideRegisterRead (a : Agent) (off size : Nat) (s : State) : State := s.readBar0 a off size

/-! ## Writes (R344 to R347) -/

/-- Clamp a field to a range. -/
def clampFld {w : Nat} (f : Fld) (lo hi : Nat) (v : BitVec w) : BitVec w := fput f (min hi (max lo (fget f v))) v

/-- The RW fields of `old` that lie wholly within the written bytes (mask `m`), taken from the write. -/
def mergeRw {w : Nat} (fs : List Fld) (m v old : BitVec w) : BitVec w :=
  fs.foldl (fun x f => if fmask w f &&& m = fmask w f then fput f (fget f v) x else x) old

/-- Whether a write sets a bit, as a W1C or W1S field needs it. -/
def wrote {w : Nat} (f : Fld) (m v : BitVec w) : Bool := fon f (v &&& m)

/-- Write-1-to-clear VALID of a capture register: the whole register clears. -/
def capture {w : Nat} (f : Fld) (m v old : BitVec w) : BitVec w := if wrote f m v then 0 else old

/-- A write to a die register. -/
def DieReg.write (r : DieReg) (m v : Quad) (x : DieRegs) : DieRegs :=
  match r with
  | .descBase => { x with descBase := mergeRw [(27, 12)] (m.setWidth 32) (v.setWidth 32) x.descBase }
  | .mxaExc => { x with mxaExc := capture (63, 63) m v x.mxaExc }
  | .vxeStat => { x with vxeStat := x.vxeStat &&& ~~~(v.setWidth 32 &&& m.setWidth 32 &&& 0xFF#32) }
  | .vxeExc => { x with vxeExc := capture (63, 63) m v x.vxeExc }
  | .fault => { x with fault := capture seqFaultValid m v x.fault }
  | .spadUe => { x with spadUe := capture (63, 63) m v x.spadUe }
  | _ => x

/-- MBQ.ROLE_CFG: the reserved schedule leaves that field as it was. -/
def roleCfgWrite (m v old : Quad) : Quad :=
  mergeRw [rcfgVmode, rcfgFqDepth, rcfgBqDepth, rcfgFsem, rcfgBsem, rcfgDies, rcfgMbPerStep, rcfgWarmup] m v
    (if fget rcfgSched v = 3 then old else mergeRw [rcfgSched] m v old)

/-- TELE.SNAP_CFG: INDEX counts from the write that sets ENABLE (R342, Table 20-2). -/
def snapCfgWrite (m v old : Quad) : Quad :=
  let w := mergeRw [snapBase, snapSize, snapRole, snapEnable] m v old
  if fon snapEnable w && !fon snapEnable old then fput snapIndex 0 w else w

/-- Whether a die's stash holds an extent. -/
def State.stashHeld (s : State) (d : Fin 4) : Bool :=
  (s.mbq.records.map (·.extents)).flatten.any fun a => (devPlace s.regionMode a).die == d

/-- MBQ.STASH_CFG: a write of BUDGET is STASH_BUDGET_WRITE, one of PER_MB_INIT alone is not. -/
def State.writeStashCfg (s : State) (r : Fin 4) (m v : Quad) : State :=
  let w := mergeRw [stashCfgBudget, stashCfgPerMbInit] m v (s.mq r).stashCfg
  if m.getLsbD 63 then doStashBudgetWrite r w s else s.modMq r fun q => { q with stashCfg := w }

/-- A write of the bytes that `m` masks, with the data in place, to a register. Fields not wholly within those bytes, RO and ST fields and
reserved bits stay as they are (R344, R345); a reserved encoding leaves its field as it was. -/
def State.regWrite (s : State) (a : Agent) (r : Reg) (m v : Quad) : State :=
  let m32 : Word := m.setWidth 32
  let v32 : Word := v.setWidth 32
  match r with
  | .sqBase q => if m = BitVec.allOnes 64 then s.writeSqBase q v else s
  | .cqBase q => if m = BitVec.allOnes 64 then s.writeCqBase q v else s
  | .sqCfg q => if m32 = 0 then s else doSqEnable q v32 s
  | .cqCfg q => if m32 = 0 then s else doCqEnable q v32 s
  | .ringErr => s.modHost fun h => { h with ringErr := h.ringErr &&& ~~~(v &&& m &&& 0xFFFFFFFF00000000#64) }
  | .clkFault => doClkFaultWrite (v32 &&& m32) s
  | .pwcMode => if a = .host ∨ m32 = 0 then s else doPwcModeWrite v32 s
  | .power => s.modPwc fun p => { p with power :=
      (if m.getLsbD 63 then clampFld powerCap 1000 2700 (mergeRw [powerCap] m v p.power) else p.power) }
  | .dvfs d => s.modPwc fun p => { p with dvfs := vmod p.dvfs d (mergeRw [dvfsMaxStep] m32 v32) }
  | .thermCfg => s.modPwc fun p => { p with thermCfg := (if m32 = 0 then p.thermCfg else
      clampFld thermCfgDieThrottle 70 105 (clampFld thermCfgStackThrottle 70 95
        (mergeRw [thermCfgDieThrottle, thermCfgStackThrottle, thermCfgWatchWake] m32 v32 p.thermCfg))) }
  | .watchCfg => s.modPwc fun p => { p with watchCfg := mergeRw [watchCfgPeriodMs, watchCfgTimerSamples] m32 v32 p.watchCfg }
  | .padHold => doPadHoldWrite (v32 &&& m32) s
  | .tamper => s.modSec fun x => { x with tamper := capture tamperValid m32 v32 x.tamper }
  | .ldgCtrl => doLdgCtrlClear (v32 &&& m32) s
  | .wdog => s.modMarb fun x => { x with wdog :=
      (let w := mergeRw [wdogHsram, wdogTwin, wdogTport, wdogStk, wdogNlink, wdogHlink] m v x.wdog
       if m.getLsbD 0 then clampFld wdogStk 0 45 w else w) }
  | .dietest => s.modMarb fun x => { x with dietest := mergeRw [dietestLoopMs, dietestEnable] m v x.dietest }
  | .snapCfg => { s with snapCfg := snapCfgWrite m v s.snapCfg }
  | .spbuf k => s.modSle fun x => { x with spbuf := vmod x.spbuf k fun b =>
      { b with reg := mergeRw [spbufHubBase, spbufDies, spbufSem, spbufLimitKib] m v b.reg } }
  | .roleCfg k => s.modMq k fun q => { q with cfg := roleCfgWrite m v q.cfg }
  | .fpay k => s.modMq k fun q => { q with fpay := mergeRw [paySpill, payHubBase, payHubKib, paySeg, payEntryMib] m v q.fpay }
  | .bpay k => s.modMq k fun q => { q with bpay := mergeRw [paySpill, payHubBase, payHubKib, paySeg, payEntryMib] m v q.bpay }
  | .stashCfg k => s.writeStashCfg k m v
  | .stashArea d => if s.stashHeld d then s else s.modMbq fun x => { x with area := vmod x.area d (mergeRw [areaFirst, areaCount] m32 v32) }
  | .mbqBase => s.modMbq fun x => { x with base := mergeRw [mbqBaseIdx, mbqBaseSlot] m v x.base }
  | .wvtCfg => s.modWvt fun x => { x with cfg := mergeRw [wvtGatherLimit] m32 v32 x.cfg }
  | .hold => s.modFr fun x => { x with hold := if wrote holdMismatch m v then fput holdMismatch 0 x.hold else x.hold }
  | .frCfg => s.modFr fun x => { x with cfg := mergeRw [frCfgVoteLimit, frCfgDecideWait, frCfgFillLimit] m32 v32 x.cfg }
  | .tlyCfg => s.modTly fun x => { x with cfg := mergeRw [tlyCfgCheckEn, tlyCfgCheckN] m32 v32 x.cfg }
  | .staging => s.modTly fun x => { x with staging := mergeRw [stagingHubBase, stagingSizeKib] m v x.staging }
  | .hubUe => s.modHub fun x => { x with ue := capture (63, 63) m v x.ue }
  | .castleCfg => s.modFab fun f => 
      { f with castleCfg := (mergeRw [castleAuto, castleCrcLimit, castleConsec, castleMarginMin] m32 v32 f.castleCfg) }
  | .stkCfg k => s.modStk k fun x => 
      { x with cfg := (mergeRw [stkCfgEraseLimit] m32 v32 (if 1 < fget stkCfgDecode v32 then x.cfg else mergeRw [stkCfgDecode] m32 v32 x.cfg)) }
  | .stkScrub k => s.modStk k fun x => { x with scrub := mergeRw [scrubPeriodH] m32 v32 x.scrub }
  | .stkUe k => s.modStk k fun x => { x with ue := capture (63, 63) m v x.ue }
  | .regionMode n => if m = BitVec.allOnes 64 then { s with regionMode := vset s.regionMode n v } else s
  | .portCfg p => if m32 = 0 then s else doPortEnableWrite p v32 s
  | .portPartner p => if m.getLsbD 0 then s.writeExpect p v32 else s
  | .vcWeight p => s.modPort p fun x => 
      { x with vcWeight := (mergeRw [weightFill, weightSp, weightTp, weightDp, weightBwd, weightFwd] m32 v32 x.vcWeight) }
  | .die d k =>
    if s.blockOut d then s.modHost fun h => { h with memErr := fsat memErrRegDropped 1 h.memErr }
    else s.modRegs d (k.write m v)
  | _ => s

/-- The bytes that an access of `size` bytes covers from byte `i` of a slot on, as a mask of the register's low 64 bits. -/
def byteMask (i size : Nat) : Quad := BitVec.ofNat 64 ((2 ^ (8 * size) - 1) * 2 ^ (8 * i))

/-- A write of BAR0. -/
def State.writeBar0 (s : State) (a : Agent) (off size : Nat) (v : Quad) : State :=
  if !s.reaches a then s
  else if !accessOk off size then s.emit (.unsupported a)
  else match regAt off with
    | none => s
    | some (r, i) => s.regWrite a r (byteMask i size) (v <<< (8 * i))

/-- REGISTER_WRITE (R344). -/
def doRegisterWrite (a : Agent) (off size : Nat) (v : Quad) (s : State) : State := s.writeBar0 a off size v

/-! ## The debug protocol over MP (spec 18 R330) -/

/-- Read one byte of a memory; what a poisoned byte, or a die that is out of service, gives is not stated (log entry 51). -/
def State.debugRead (s : State) (m : Site) (a : Nat) : State :=
  let r : State × Rd := match m with
    | .spad d => if s.dieServes d then s.readSpad d [] a 1 else (s, ⟨[none], none⟩)
    | .hub => s.readHub a 1
    | .stack k =>
      if fon stkLost (s.stk k).status then (s, ⟨[none], none⟩)
      else
        let (x, bs) := (s.stk k).read s.eraseWindow (devOf s.regionMode k.1 a) a 1
        (s.modStk k fun _ => x, ⟨bs, none⟩)
  match r.2.bytes with
  | some b :: _ => r.1.emit (.debugData [b.toNat])
  | _ =>
    let (x, s) := r.1.fresh 256
    s.emit (.debugData [x])

/-- Write one byte of a memory. -/
def State.debugWrite (s : State) (m : Site) (a : Nat) (b : Byte) : State :=
  match m with
  | .spad d =>
    if !s.dieServes d then s
    else
      let (x, _, o) := (s.die d).write 0 a [some b]
      let s := s.modDie d fun _ => x
      if o then s.raise d (overflowPortB d x.seq.pc) else s
  | .hub => (s.writeHub a [some b]).1
  | .stack k =>
    if fon stkLost (s.stk k).status then s
    else s.modStk k fun x => x.write s.eraseWindow (devOf s.regionMode k.1 a) a [some b]

/-- Whether a memory has an address (spec 07 Tables 7-3, 7-5, spec 08). -/
def siteHas (m : Site) (a : Nat) : Bool :=
  match m with
  | .spad _ => decide (a < spadSize)
  | .hub => decide (a < hubSize)
  | .stack _ => decide (a < 2 ^ 36)

/-- Whether MP serves the debug protocol: DBG_OPEN was honoured and MP is up. -/
def State.debugOpen (s : State) : Bool := fon secDbgActive s.sec.status && s.boot.mpUp

/-- Fuse banks 3 to 5 as a debugger blows them; the places of the bits in the banks are not given (log entry 6). -/
def Fuses.blow (f : Fuses) (bank addr : Nat) (data : List Byte) : Fuses :=
  if bank = 3 then { f with columns := Config.blowColumns f.columns addr data }
  else if bank = 4 then { f with lanes := Config.blowLanes f.lanes addr data }
  else if bank = 5 then { f with vf := Config.blowVf f.vf addr data }
  else f

/-- What a served debug request does. The MCP cores' contents are no part of the spec, so that stepping one changes nothing here and
inspecting one gives a free value. -/
def State.debugServe (s : State) (r : DebugRequest) : State :=
  match r with
  | .halt c => s.modSec fun x => { x with debugHalt := x.debugHalt ||| BitVec.twoPow 4 c.1 }
  | .stepCore _ => s
  | .inspect _ =>
    let (x, s) := s.fresh (2 ^ 64)
    s.emit (.debugData [x])
  | .readRegister off => match regAt off with
    | some (r, i) =>
      let (v, s) := s.regRead .mcp r i
      s.emit (.debugData [v % 2 ^ 64])
    | none => s.emit (.debugData [0])
  | .writeRegister off v => match regAt off with
    | some (r, 0) => s.regWrite .mcp r (BitVec.allOnes 64) v
    | _ => s
  | .readMemory m a => s.debugRead m a
  | .writeMemory m a b => s.debugWrite m a b
  | .scan _ => s
  | .blowFuses bank addr data => s.modSec fun x => { x with fuses := x.fuses.blow bank addr data }

/-- A debug access to an address that no memory has. -/
def debugAbsent : DebugRequest → Bool
  | .readMemory m a => !siteHas m a
  | .writeMemory m a _ => !siteHas m a
  | _ => false

end Sys2Proof.Machine
end

