-- ==== Sys2Proof/Machine/ExecRegs.lean ====
section
/-!
DEFINITION. Security and the registers (spec 18, spec 20, spec 21): one meaning for each command, over the operations that the families share.
-/
namespace Sys2Proof.Machine

/-- TAMPER_EVENT (spec 18 R329). -/
def execTamperEvent (light voltage clock : Bool) (s : State) : Host.Outcome State Fault Refusal :=
  ranStill (doTamperEvent light voltage clock) s

/-- VAULT_WIPE_COMPLETE (spec 07 R142). -/
def execVaultWipeComplete (bad : Option Nat) (s : State) : Host.Outcome State Fault Refusal :=
  ranStill (doVaultWipeComplete bad) s

/-- RC_REGISTER_READ (spec 20 R341). -/
def execRcRegisterRead (a : Agent) (off : Nat) (size : Nat) (s : State) : Host.Outcome State Fault Refusal :=
  ranStill (doRcRegisterRead a off size) s

/-- WIDE_REGISTER_READ (spec 21 R345). -/
def execWideRegisterRead (a : Agent) (off : Nat) (size : Nat) (s : State) : Host.Outcome State Fault Refusal :=
  ranStill (doWideRegisterRead a off size) s

/-- STASH_BUDGET_WRITE (spec 11 R214). -/
def execStashBudgetWrite (role : Fin 4) (v : Quad) (s : State) : Host.Outcome State Fault Refusal :=
  ran (doStashBudgetWrite role v) s

/-- REGISTER_WRITE (spec 21 R344). -/
def execRegisterWrite (a : Agent) (off : Nat) (size : Nat) (v : Quad) (s : State) : Host.Outcome State Fault Refusal :=
  ran (doRegisterWrite a off size v) s

/-- MP_DEBUG_REQUEST (spec 18 R330). A scan of a die has no effect that the spec gives. -/
def execMpDebugRequest (r : DebugRequest) (s : State) : Host.Outcome State Fault Refusal :=
  if !s.debugOpen then ran id s
  else match r with
    | .scan _ => .refused .scanChain
    | _ => if debugAbsent r then .fault .noSuchAddress else ran (fun s => s.debugServe r) s

end Sys2Proof.Machine
end

