-- ==== Sys2Proof/Machine/ExecStage.lean ====
section
/-!
DEFINITION. Stage links, queues and weight versions (spec 12): one meaning for each command, over the operations that the families share.
-/
namespace Sys2Proof.Machine

/-- FWD_ACT (spec 12 R220). -/
def execFwdAct (p : Fin 24) (s : State) : Host.Outcome State Fault Refusal :=
  ran (doFwdAct p) s

/-- BWD_GRAD (spec 12 R220). -/
def execBwdGrad (p : Fin 24) (s : State) : Host.Outcome State Fault Refusal :=
  ran (doBwdGrad p) s

/-- MB_DROP (spec 12 R234). -/
def execMbDrop (p : Fin 24) (s : State) : Host.Outcome State Fault Refusal :=
  ran (doMbDrop p) s

/-- QCREDIT (spec 12 R218). -/
def execQcredit (p : Fin 24) (s : State) : Host.Outcome State Fault Refusal :=
  ran (doQcredit p) s

/-- QCREDIT_PERIODIC (spec 12 R218). -/
def execQcreditPeriodic (s : State) : Host.Outcome State Fault Refusal :=
  ran (doQcreditPeriodic) s

/-- STAGE_LINK_SEND (spec 12 R216). -/
def execStageLinkSend (role : Fin 4) (dir : Dir) (s : State) : Host.Outcome State Fault Refusal :=
  ran (doStageLinkSend role dir) s

/-- SHARD_REQ (spec 12 R233). -/
def execShardReq (p : Fin 24) (s : State) : Host.Outcome State Fault Refusal :=
  ran (doShardReq p) s

/-- SHARD_DATA (spec 12 R232). -/
def execShardData (p : Fin 24) (s : State) : Host.Outcome State Fault Refusal :=
  ran (doShardData p) s

/-- SHARD_FAIL (spec 12 R232). -/
def execShardFail (p : Fin 24) (s : State) : Host.Outcome State Fault Refusal :=
  ran (doShardFail p) s

/-- GATHER_LIMIT_EXPIRY (spec 12 R232). -/
def execGatherLimitExpiry (d : Fin 4) (s : State) : Host.Outcome State Fault Refusal :=
  ran (doGatherLimitExpiry d) s

/-- SP_BLOCK (spec 12 R237). -/
def execSpBlock (p : Fin 24) (s : State) : Host.Outcome State Fault Refusal :=
  ran (doSpBlock p) s

/-- MBQ_BIND (spec 12 R224). -/
def execMbqBind (s : State) : Host.Outcome State Fault Refusal :=
  ran (doMbqBind) s

/-- TAKE (spec 12 R222). -/
def execTake (d : Fin 4) (s : State) : Host.Outcome State Fault Refusal :=
  ran (doTake d) s

/-- FWD_DONE (spec 12 R222). -/
def execFwdDone (d : Fin 4) (s : State) : Host.Outcome State Fault Refusal :=
  ran (doFwdDone d) s

/-- BWD_DONE (spec 12 R222). -/
def execBwdDone (d : Fin 4) (s : State) : Host.Outcome State Fault Refusal :=
  ran (doBwdDone d) s

/-- STASH_ALLOC (spec 12 R227). -/
def execStashAlloc (d : Fin 4) (s : State) : Host.Outcome State Fault Refusal :=
  ran (doStashAlloc d) s

/-- STASH_MAP (spec 12 R222). -/
def execStashMap (d : Fin 4) (s : State) : Host.Outcome State Fault Refusal :=
  ran (doStashMap d) s

/-- DROP (spec 12 R223). -/
def execDrop (d : Fin 4) (s : State) : Host.Outcome State Fault Refusal :=
  ran (doDrop d) s

/-- INJECT_EVAL (spec 12 R225). -/
def execInjectEval (d : Fin 4) (s : State) : Host.Outcome State Fault Refusal :=
  ran (doInjectEval d) s

/-- SLOT_OUTPUT_ACKED (spec 12 R230). -/
def execSlotOutputAcked (slot : Fin 16) (s : State) : Host.Outcome State Fault Refusal :=
  ran (doSlotOutputAcked slot) s

/-- SLOT_DROPPED_RELEASE (spec 12 R221). -/
def execSlotDroppedRelease (slot : Fin 16) (s : State) : Host.Outcome State Fault Refusal :=
  ran (doSlotDroppedRelease slot) s

/-- LOOKUP (spec 12 R231). -/
def execLookup (d : Fin 4) (s : State) : Host.Outcome State Fault Refusal :=
  ran (doLookup d) s

/-- OPEN_PENDING (spec 12 R231). -/
def execOpenPending (d : Fin 4) (s : State) : Host.Outcome State Fault Refusal :=
  ran (doOpenPending d) s

/-- GATHER (spec 12 R232). -/
def execGather (d : Fin 4) (s : State) : Host.Outcome State Fault Refusal :=
  ran (doGather d) s

end Sys2Proof.Machine
end

