-- ==== Sys2Proof/Machine/ExecTally.lean ====
section
/-!
DEFINITION. Votes and the gradient tally (spec 14, spec 13): one meaning for each command, over the operations that the families share.
-/
namespace Sys2Proof.Machine

/-- VOTE_HUBOP (spec 14 R266). -/
def execVoteHubop (d : Fin 4) (s : State) : Host.Outcome State Fault Refusal :=
  ran (doVoteHubop d) s

/-- VOTE (spec 14 R267). -/
def execVote (p : Fin 24) (s : State) : Host.Outcome State Fault Refusal :=
  ran (doVote p) s

/-- VOTE_LIMIT_EXPIRY (spec 14 R267). -/
def execVoteLimitExpiry (role : Fin 4) (s : State) : Host.Outcome State Fault Refusal :=
  ran (doVoteLimitExpiry role) s

/-- DECISION (spec 14 R268). -/
def execDecision (p : Fin 24) (s : State) : Host.Outcome State Fault Refusal :=
  ran (doDecision p) s

/-- DECIDE_WAIT_EXPIRY (spec 14 R268). -/
def execDecideWaitExpiry (role : Fin 4) (s : State) : Host.Outcome State Fault Refusal :=
  ran (doDecideWaitExpiry role) s

/-- DECISION_REQ (spec 14 R268). -/
def execDecisionReq (p : Fin 24) (s : State) : Host.Outcome State Fault Refusal :=
  ran (doDecisionReq p) s

/-- ARM (spec 13 R238). -/
def execArm (d : Fin 4) (s : State) : Host.Outcome State Fault Refusal :=
  ran (doArm d) s

/-- START (spec 13 R239). -/
def execStart (d : Fin 4) (s : State) : Host.Outcome State Fault Refusal :=
  ran (doStart d) s

/-- DISARM (spec 13 R257). -/
def execDisarm (d : Fin 4) (s : State) : Host.Outcome State Fault Refusal :=
  ran (doDisarm d) s

/-- TALLY (spec 13 R243). -/
def execTally (p : Fin 24) (mismatch : List Nat) (s : State) : Host.Outcome State Fault Refusal :=
  ran (doTally p mismatch) s

/-- TALLY_COPY (spec 13 R241). -/
def execTallyCopy (p : Fin 24) (s : State) : Host.Outcome State Fault Refusal :=
  ran (doTallyCopy p) s

/-- TALLY_DEADLINE_EXPIRY (spec 13 R250). -/
def execTallyDeadlineExpiry (j : Fin 64) (s : State) : Host.Outcome State Fault Refusal :=
  ran (doTallyDeadlineExpiry j) s

end Sys2Proof.Machine
end

