-- ==== Sys2Proof/Machine/Dispatch.lean ====
section
/-!
DEFINITION. The dispatch: one arm for each command of the table.
-/
namespace Sys2Proof.Machine

def exec (i : Instr) (s : State) : Host.Outcome State Fault Refusal :=
  match i with
  | .pwrOkRise => Sys2Proof.Machine.execPwrOkRise s
  | .pwrOkFall => Sys2Proof.Machine.execPwrOkFall s
  | .rstNAssert ticks => Sys2Proof.Machine.execRstNAssert ticks s
  | .rstNRelease s0 s1 s2 => Sys2Proof.Machine.execRstNRelease s0 s1 s2 s
  | .bs01Supply r => Sys2Proof.Machine.execBs01Supply r s
  | .bs02Clocks r => Sys2Proof.Machine.execBs02Clocks r s
  | .bs03Security r => Sys2Proof.Machine.execBs03Security r s
  | .bs04HubSram r => Sys2Proof.Machine.execBs04HubSram r s
  | .bs05Image r => Sys2Proof.Machine.execBs05Image r s
  | .bs06Firmware r => Sys2Proof.Machine.execBs06Firmware r s
  | .bs07Mgmt r => Sys2Proof.Machine.execBs07Mgmt r s
  | .bs08DiePower r => Sys2Proof.Machine.execBs08DiePower r s
  | .bs09Scratchpad r => Sys2Proof.Machine.execBs09Scratchpad r s
  | .bs10Bundles r => Sys2Proof.Machine.execBs10Bundles r s
  | .bs11Stacks r => Sys2Proof.Machine.execBs11Stacks r s
  | .bs12StackRepair r => Sys2Proof.Machine.execBs12StackRepair r s
  | .bs13Ports r => Sys2Proof.Machine.execBs13Ports r s
  | .bs14Service r => Sys2Proof.Machine.execBs14Service r s
  | .bootStepTimeout => Sys2Proof.Machine.execBootStepTimeout s
  | .bootRestart => Sys2Proof.Machine.execBootRestart s
  | .ldgCtrlClear v => Sys2Proof.Machine.execLdgCtrlClear v s
  | .refOscLost => Sys2Proof.Machine.execRefOscLost s
  | .fclkLockLost => Sys2Proof.Machine.execFclkLockLost s
  | .gclkLockLost => Sys2Proof.Machine.execGclkLockLost s
  | .aonOscStopped => Sys2Proof.Machine.execAonOscStopped s
  | .aclkLockLost d => Sys2Proof.Machine.execAclkLockLost d s
  | .mclkLockLost k => Sys2Proof.Machine.execMclkLockLost k s
  | .clkFaultWrite v => Sys2Proof.Machine.execClkFaultWrite v s
  | .seqDispatch d u => Sys2Proof.Machine.execSeqDispatch d u s
  | .mmul d u => Sys2Proof.Machine.execMmul d u s
  | .mmulComplete d bank u => Sys2Proof.Machine.execMmulComplete d bank u s
  | .vew d u => Sys2Proof.Machine.execVew d u s
  | .vcvt d u => Sys2Proof.Machine.execVcvt d u s
  | .vtadd d u => Sys2Proof.Machine.execVtadd d u s
  | .vred d u => Sys2Proof.Machine.execVred d u s
  | .vpermPerm d u => Sys2Proof.Machine.execVpermPerm d u s
  | .vpermGather d u => Sys2Proof.Machine.execVpermGather d u s
  | .voptSgdMom d u => Sys2Proof.Machine.execVoptSgdMom d u s
  | .voptAdamw d u => Sys2Proof.Machine.execVoptAdamw d u s
  | .movCopy d u => Sys2Proof.Machine.execMovCopy d u s
  | .movFill d u => Sys2Proof.Machine.execMovFill d u s
  | .movHubop d u => Sys2Proof.Machine.execMovHubop d u s
  | .trnTranspose d u => Sys2Proof.Machine.execTrnTranspose d u s
  | .trnPanel d u => Sys2Proof.Machine.execTrnPanel d u s
  | .trnUnpanel d u => Sys2Proof.Machine.execTrnUnpanel d u s
  | .rngUniform d u => Sys2Proof.Machine.execRngUniform d u s
  | .rngBernoulli d u => Sys2Proof.Machine.execRngBernoulli d u s
  | .rngNormal d u => Sys2Proof.Machine.execRngNormal d u s
  | .engineInstructionComplete d e => Sys2Proof.Machine.execEngineInstructionComplete d e s
  | .waitTimeout d => Sys2Proof.Machine.execWaitTimeout d s
  | .semaphoreAddPortB d sem v => Sys2Proof.Machine.execSemaphoreAddPortB d sem v s
  | .spadCeWriteback site word => Sys2Proof.Machine.execSpadCeWriteback site word s
  | .hostMemRead addr len busy own u => Sys2Proof.Machine.execHostMemRead addr len busy own u s
  | .hostMemWrite addr data busy u => Sys2Proof.Machine.execHostMemWrite addr data busy u s
  | .backInvalidateResponse line dirty => Sys2Proof.Machine.execBackInvalidateResponse line dirty s
  | .homeFilterInvalAck line => Sys2Proof.Machine.execHomeFilterInvalAck line s
  | .remoteCacheFillArrival d line => Sys2Proof.Machine.execRemoteCacheFillArrival d line s
  | .remoteCacheInvalidate d line => Sys2Proof.Machine.execRemoteCacheInvalidate d line s
  | .stkCeWriteback k group => Sys2Proof.Machine.execStkCeWriteback k group s
  | .patrolScrubRead k u => Sys2Proof.Machine.execPatrolScrubRead k u s
  | .eraseWindowEnd k => Sys2Proof.Machine.execEraseWindowEnd k s
  | .stackNoResponse k => Sys2Proof.Machine.execStackNoResponse k s
  | .pseudoChannelRetrainFail k => Sys2Proof.Machine.execPseudoChannelRetrainFail k s
  | .bundleEntryReceive b tag crcOk => Sys2Proof.Machine.execBundleEntryReceive b tag crcOk s
  | .eyeMeasurement b widths => Sys2Proof.Machine.execEyeMeasurement b widths s
  | .crcWindowEnd b => Sys2Proof.Machine.execCrcWindowEnd b s
  | .castling b => Sys2Proof.Machine.execCastling b s
  | .castlingSwitch b => Sys2Proof.Machine.execCastlingSwitch b s
  | .castlingComplete b pass => Sys2Proof.Machine.execCastlingComplete b pass s
  | .bundleRetrain b => Sys2Proof.Machine.execBundleRetrain b s
  | .bundleRetrainComplete b bad => Sys2Proof.Machine.execBundleRetrainComplete b bad s
  | .lclkMissing d bs => Sys2Proof.Machine.execLclkMissing d bs s
  | .dieHubClockLoss d => Sys2Proof.Machine.execDieHubClockLoss d s
  | .dieFenceResetHold d => Sys2Proof.Machine.execDieFenceResetHold d s
  | .dieFenceComplete d => Sys2Proof.Machine.execDieFenceComplete d s
  | .tertiFlitReceive p lam fecOk flit => Sys2Proof.Machine.execTertiFlitReceive p lam fecOk flit s
  | .tertiFlitTransmit p => Sys2Proof.Machine.execTertiFlitTransmit p s
  | .ackTimeoutReplay p => Sys2Proof.Machine.execAckTimeoutReplay p s
  | .ctlParam p => Sys2Proof.Machine.execCtlParam p s
  | .ctlSync p => Sys2Proof.Machine.execCtlSync p s
  | .ctlFfeReq p => Sys2Proof.Machine.execCtlFfeReq p s
  | .ctlLambdaNotice p => Sys2Proof.Machine.execCtlLambdaNotice p s
  | .ctlRttProbe p => Sys2Proof.Machine.execCtlRttProbe p s
  | .ctlRttEcho p rtt => Sys2Proof.Machine.execCtlRttEcho p rtt s
  | .ctlRepeat p => Sys2Proof.Machine.execCtlRepeat p s
  | .portEnableWrite p v => Sys2Proof.Machine.execPortEnableWrite p v s
  | .tertiTrainingComplete p tx rx => Sys2Proof.Machine.execTertiTrainingComplete p tx rx s
  | .trainingStepTimeout p stage rxSide lam => Sys2Proof.Machine.execTrainingStepTimeout p stage rxSide lam s
  | .ctleAdaptTick p => Sys2Proof.Machine.execCtleAdaptTick p s
  | .ffeReqCount p lam tap delta => Sys2Proof.Machine.execFfeReqCount p lam tap delta s
  | .laserBiasTick p low => Sys2Proof.Machine.execLaserBiasTick p low s
  | .wavelengthFail p rxSide lam => Sys2Proof.Machine.execWavelengthFail p rxSide lam s
  | .wavelengthWindowEnd p => Sys2Proof.Machine.execWavelengthWindowEnd p s
  | .tertiRetrainComplete p ok => Sys2Proof.Machine.execTertiRetrainComplete p ok s
  | .portLossOfLight p => Sys2Proof.Machine.execPortLossOfLight p s
  | .portReacquire p => Sys2Proof.Machine.execPortReacquire p s
  | .replayWindowEnd p => Sys2Proof.Machine.execReplayWindowEnd p s
  | .messageHoldExpiry p vc => Sys2Proof.Machine.execMessageHoldExpiry p vc s
  | .quarantineWindowEnd p => Sys2Proof.Machine.execQuarantineWindowEnd p s
  | .nackSend p => Sys2Proof.Machine.execNackSend p s
  | .nack p => Sys2Proof.Machine.execNack p s
  | .expectWrite p v => Sys2Proof.Machine.execExpectWrite p v s
  | .mgmtMessage p => Sys2Proof.Machine.execMgmtMessage p s
  | .fwdAct p => Sys2Proof.Machine.execFwdAct p s
  | .bwdGrad p => Sys2Proof.Machine.execBwdGrad p s
  | .mbDrop p => Sys2Proof.Machine.execMbDrop p s
  | .qcredit p => Sys2Proof.Machine.execQcredit p s
  | .qcreditPeriodic => Sys2Proof.Machine.execQcreditPeriodic s
  | .stageLinkSend role dir => Sys2Proof.Machine.execStageLinkSend role dir s
  | .shardReq p => Sys2Proof.Machine.execShardReq p s
  | .shardData p => Sys2Proof.Machine.execShardData p s
  | .shardFail p => Sys2Proof.Machine.execShardFail p s
  | .gatherLimitExpiry d => Sys2Proof.Machine.execGatherLimitExpiry d s
  | .spBlock p => Sys2Proof.Machine.execSpBlock p s
  | .mbqBind => Sys2Proof.Machine.execMbqBind s
  | .take d => Sys2Proof.Machine.execTake d s
  | .fwdDone d => Sys2Proof.Machine.execFwdDone d s
  | .bwdDone d => Sys2Proof.Machine.execBwdDone d s
  | .stashAlloc d => Sys2Proof.Machine.execStashAlloc d s
  | .stashMap d => Sys2Proof.Machine.execStashMap d s
  | .drop d => Sys2Proof.Machine.execDrop d s
  | .injectEval d => Sys2Proof.Machine.execInjectEval d s
  | .slotOutputAcked slot => Sys2Proof.Machine.execSlotOutputAcked slot s
  | .slotDroppedRelease slot => Sys2Proof.Machine.execSlotDroppedRelease slot s
  | .lookup d => Sys2Proof.Machine.execLookup d s
  | .openPending d => Sys2Proof.Machine.execOpenPending d s
  | .gather d => Sys2Proof.Machine.execGather d s
  | .voteHubop d => Sys2Proof.Machine.execVoteHubop d s
  | .vote p => Sys2Proof.Machine.execVote p s
  | .voteLimitExpiry role => Sys2Proof.Machine.execVoteLimitExpiry role s
  | .decision p => Sys2Proof.Machine.execDecision p s
  | .decideWaitExpiry role => Sys2Proof.Machine.execDecideWaitExpiry role s
  | .decisionReq p => Sys2Proof.Machine.execDecisionReq p s
  | .arm d => Sys2Proof.Machine.execArm d s
  | .start d => Sys2Proof.Machine.execStart d s
  | .disarm d => Sys2Proof.Machine.execDisarm d s
  | .tally p mismatch => Sys2Proof.Machine.execTally p mismatch s
  | .tallyCopy p => Sys2Proof.Machine.execTallyCopy p s
  | .tallyDeadlineExpiry j => Sys2Proof.Machine.execTallyDeadlineExpiry j s
  | .pair p => Sys2Proof.Machine.execPair p s
  | .pairAck p => Sys2Proof.Machine.execPairAck p s
  | .copyData p => Sys2Proof.Machine.execCopyData p s
  | .copyDone p => Sys2Proof.Machine.execCopyDone p s
  | .fillReq p => Sys2Proof.Machine.execFillReq p s
  | .fillData p => Sys2Proof.Machine.execFillData p s
  | .fillFail p => Sys2Proof.Machine.execFillFail p s
  | .fillLimitExpiry => Sys2Proof.Machine.execFillLimitExpiry s
  | .digestReq p => Sys2Proof.Machine.execDigestReq p s
  | .digestData p => Sys2Proof.Machine.execDigestData p s
  | .promoteLocate => Sys2Proof.Machine.execPromoteLocate s
  | .promoteRecord => Sys2Proof.Machine.execPromoteRecord s
  | .promoteFill => Sys2Proof.Machine.execPromoteFill s
  | .promoteVerify => Sys2Proof.Machine.execPromoteVerify s
  | .promoteRejoin => Sys2Proof.Machine.execPromoteRejoin s
  | .reshardCutover => Sys2Proof.Machine.execReshardCutover s
  | .marbAdmit => Sys2Proof.Machine.execMarbAdmit s
  | .marbStallOverrun id => Sys2Proof.Machine.execMarbStallOverrun id s
  | .marchComplete id fails => Sys2Proof.Machine.execMarchComplete id fails s
  | .scrubComplete id => Sys2Proof.Machine.execScrubComplete id s
  | .thermalCalibrationComplete id => Sys2Proof.Machine.execThermalCalibrationComplete id s
  | .dieResetDrainEnd d => Sys2Proof.Machine.execDieResetDrainEnd d s
  | .dieResetAbandon d => Sys2Proof.Machine.execDieResetAbandon d s
  | .dieResetRejoin d bad lostStacks => Sys2Proof.Machine.execDieResetRejoin d bad lostStacks s
  | .descriptorFetch q batch => Sys2Proof.Machine.execDescriptorFetch q batch s
  | .sqTail q v => Sys2Proof.Machine.execSqTail q v s
  | .cqHead q v => Sys2Proof.Machine.execCqHead q v s
  | .sqEnable q v => Sys2Proof.Machine.execSqEnable q v s
  | .cqEnable q v => Sys2Proof.Machine.execCqEnable q v s
  | .completionRecordWrite q => Sys2Proof.Machine.execCompletionRecordWrite q s
  | .cqInterruptTimer q => Sys2Proof.Machine.execCqInterruptTimer q s
  | .progressRecordTimer h => Sys2Proof.Machine.execProgressRecordTimer h s
  | .hostLinkDown => Sys2Proof.Machine.execHostLinkDown s
  | .cmdNop h => Sys2Proof.Machine.execCmdNop h s
  | .cancel h => Sys2Proof.Machine.execCancel h s
  | .portRelease h => Sys2Proof.Machine.execPortRelease h s
  | .loadProgram h src => Sys2Proof.Machine.execLoadProgram h src s
  | .runProgram h => Sys2Proof.Machine.execRunProgram h s
  | .setIdentity h => Sys2Proof.Machine.execSetIdentity h s
  | .roleInstall h src => Sys2Proof.Machine.execRoleInstall h src s
  | .roleRemove h src => Sys2Proof.Machine.execRoleRemove h src s
  | .wvtInstall h src => Sys2Proof.Machine.execWvtInstall h src s
  | .groupInstall h src => Sys2Proof.Machine.execGroupInstall h src s
  | .groupRemove h => Sys2Proof.Machine.execGroupRemove h s
  | .groupAdopt h => Sys2Proof.Machine.execGroupAdopt h s
  | .buddyPair h => Sys2Proof.Machine.execBuddyPair h s
  | .holdCopy h => Sys2Proof.Machine.execHoldCopy h s
  | .promote h src => Sys2Proof.Machine.execPromote h src s
  | .fill h src => Sys2Proof.Machine.execFill h src s
  | .checkpointDrain h => Sys2Proof.Machine.execCheckpointDrain h s
  | .reshard h rearm moves => Sys2Proof.Machine.execReshard h rearm moves s
  | .march h src => Sys2Proof.Machine.execMarch h src s
  | .scrub h => Sys2Proof.Machine.execScrub h s
  | .calibrateBundleRetrain h => Sys2Proof.Machine.execCalibrateBundleRetrain h s
  | .calibrateCastling h => Sys2Proof.Machine.execCalibrateCastling h s
  | .calibrateOpticalReeq h => Sys2Proof.Machine.execCalibrateOpticalReeq h s
  | .calibrateThermal h => Sys2Proof.Machine.execCalibrateThermal h s
  | .fuseRead h => Sys2Proof.Machine.execFuseRead h s
  | .dieReset h => Sys2Proof.Machine.execDieReset h s
  | .powerActive h => Sys2Proof.Machine.execPowerActive h s
  | .powerIdle h => Sys2Proof.Machine.execPowerIdle h s
  | .powerDieOff h => Sys2Proof.Machine.execPowerDieOff h s
  | .powerWatch h => Sys2Proof.Machine.execPowerWatch h s
  | .attest h => Sys2Proof.Machine.execAttest h s
  | .lifecycle h src => Sys2Proof.Machine.execLifecycle h src s
  | .pwcModeWrite v => Sys2Proof.Machine.execPwcModeWrite v s
  | .powerTransitionStart pending => Sys2Proof.Machine.execPowerTransitionStart pending s
  | .dieOffExitComplete d bad lostStacks => Sys2Proof.Machine.execDieOffExitComplete d bad lostStacks s
  | .padHoldWrite v => Sys2Proof.Machine.execPadHoldWrite v s
  | .dvfsLoopTick => Sys2Proof.Machine.execDvfsLoopTick s
  | .droopCeilingRecovery d => Sys2Proof.Machine.execDroopCeilingRecovery d s
  | .powerMeasureTick vinMv currentMa => Sys2Proof.Machine.execPowerMeasureTick vinMv currentMa s
  | .capLoopTick => Sys2Proof.Machine.execCapLoopTick s
  | .thermalLoopTick t => Sys2Proof.Machine.execThermalLoopTick t s
  | .thermalTrip => Sys2Proof.Machine.execThermalTrip s
  | .thermalTripRestart t => Sys2Proof.Machine.execThermalTripRestart t s
  | .oeOvertemp k => Sys2Proof.Machine.execOeOvertemp k s
  | .oeCooled k => Sys2Proof.Machine.execOeCooled k s
  | .dieRailFault d => Sys2Proof.Machine.execDieRailFault d s
  | .stackRailFault k => Sys2Proof.Machine.execStackRailFault k s
  | .brownout overVolt => Sys2Proof.Machine.execBrownout overVolt s
  | .brownoutRestart vinMv => Sys2Proof.Machine.execBrownoutRestart vinMv s
  | .watchSample overrun t vinMv mgtInRange => Sys2Proof.Machine.execWatchSample overrun t vinMv mgtInRange s
  | .wakeLightFrame preambleOk slot code crcOk => Sys2Proof.Machine.execWakeLightFrame preambleOk slot code crcOk s
  | .tamperEvent light voltage clock => Sys2Proof.Machine.execTamperEvent light voltage clock s
  | .vaultWipeComplete bad => Sys2Proof.Machine.execVaultWipeComplete bad s
  | .mpDebugRequest r => Sys2Proof.Machine.execMpDebugRequest r s
  | .rcRegisterRead a off size => Sys2Proof.Machine.execRcRegisterRead a off size s
  | .wideRegisterRead a off size => Sys2Proof.Machine.execWideRegisterRead a off size s
  | .stashBudgetWrite role v => Sys2Proof.Machine.execStashBudgetWrite role v s
  | .registerWrite a off size v => Sys2Proof.Machine.execRegisterWrite a off size v s
  | .hostLinkUp => Sys2Proof.Machine.execHostLinkUp s
  | .h2dSnoop line => Sys2Proof.Machine.execH2dSnoop line s
  | .fuseReadComplete => Sys2Proof.Machine.execFuseReadComplete s
  | .bootImageArrival src image => Sys2Proof.Machine.execBootImageArrival src image s
  | .aonOscillatorReturn => Sys2Proof.Machine.execAonOscillatorReturn s
  | .droopSensorTrip d => Sys2Proof.Machine.execDroopSensorTrip d s
  | .lightReturn p => Sys2Proof.Machine.execLightReturn p s

end Sys2Proof.Machine
end

