-- ==== Sys2Proof/Safety.lean ====
section
/-!
DEFINITION. What counts as a safe step: it answers a next state. The only stops are a debug access outside every memory and
a debug scan (spec 18 R330). With it, the terms in which statements speak of the state after a command.
-/
namespace Sys2Proof

/-- A step answers a next state. -/
def Safe (s : Machine.State) : Prop := ∃ t, Machine.step s = .next t

namespace Machine

/-- The state after a command on `s` whose own effect is `e`: what the block then does of itself, and the status registers that follow.
The queue and TIME.AON are no command's to change. -/
def State.after (s e : State) : State := { e.settle with pending := s.pending, aon := s.aon }

/-- The state after a command on `s` whose own effect is `e` and which gives the block nothing to do of itself. -/
def State.afterStill (s e : State) : State := { e.derive with pending := s.pending, aon := s.aon }

/-- The status registers show what they follow: GRP.STATUS (spec 11 R213) and MARB.STATUS (spec 19 Table 19-6); and every RUN_PROGRAM under
way has noted a reduced part if it uses one (spec 06 R128). -/
def State.judged (s : State) : Bool :=
  ((allFin 64).all fun i => (s.grp i).status == s.groupStatus i) &&
  s.marb.status == fput marbRunning (s.marb.running.length + b2n s.sec.fuseHeld) (fput marbQueued s.marb.queue.length s.marb.status) &&
  s.host.runs.all s.noted

/-- Nothing is left to do, and the status registers show what they follow. -/
def State.quiet (s : State) : Bool := s.calm && s.judged

/-- A state with its queue and clock set: the frame of a whole state reads `t = e.withClock s`. -/
def State.withClock (e s : State) : State := { e with pending := s.pending, aon := s.aon }

/-- Whether a command is a request of the debug protocol over MP. -/
def isDebug : Instr → Bool
  | .mpDebugRequest _ => true
  | _ => false

end Machine
end Sys2Proof
end

