-- ==== Sys2Proof/Certificates/Slice0/Obligations.lean ====
section
/-!
DEFINITION. The statements about the SW8 block, each with the rules of spec/ that it rests on.
-/
open Sys2Proof Sys2Proof.Machine

/-- A step runs the command at the front of the queue. In every state, a step whose queue begins with a command c is exec of c on the
state with the queue's rest. (95_what_each_step_holds.md) -/
def Obligations.StepRunsFrontCommand : Prop :=
  ∀ (c : Instr) (rest : List Instr) (s : State),
    step { s with pending := c :: rest } = exec c { s with pending := rest }

/-- A step on an empty queue is one tick of TIME.AON. With no command waiting, a step answers a next state in which TIME.AON is one
higher, the queue is still empty, and every part of the block that no clock of the model counts is as it was. That the idle block
ticks is the model's choice (log entry 15). (R338, 20_telemetry_and_windows.md) -/
def Obligations.IdleTickCountsTime : Prop :=
  ∀ s : State, s.pending = [] →
    ∃ t, step s = .next t ∧ t.aon = s.aon + 1 ∧ t.pending = [] ∧ t.stks = s.stks ∧ t.regionMode = s.regionMode ∧ t.hub = s.hub ∧
      t.fab = s.fab ∧ t.ports = s.ports ∧ t.job = s.job ∧ t.sle = s.sle ∧ t.mbq = s.mbq ∧ t.wvt = s.wvt ∧ t.tly = s.tly ∧ t.fr = s.fr ∧
      t.host = s.host ∧ t.boot = s.boot ∧ t.pwc = s.pwc ∧ t.sec = s.sec ∧ t.marb = s.marb ∧ t.logs = s.logs ∧ t.mail = s.mail ∧
      ∀ d : Fin 4, (t.die d).spad = (s.die d).spad ∧ (t.die d).seq = (s.die d).seq ∧ (t.die d).sems = (s.die d).sems ∧
        (t.die d).acc0 = (s.die d).acc0 ∧ (t.die d).acc1 = (s.die d).acc1 ∧ (t.die d).copy = (s.die d).copy ∧
        (t.die d).regs.fault = (s.die d).regs.fault ∧ ((s.die d).pwr.aclkOn = false → t.die d = s.die d)

/-- Every command but a debug request answers a next state and keeps the queue and TIME.AON. exec of any command that is not a request
of the debug protocol answers a next state, in any state; and whenever exec of any command answers a next state, the queue and
TIME.AON are what they were. (R338, 95_what_each_step_holds.md) -/
def Obligations.CommandsKeepQueueAndClock : Prop :=
  (∀ (c : Instr) (s : State), isDebug c = false → ∃ t, exec c s = .next t) ∧
  (∀ (c : Instr) (s t : State), exec c s = .next t → t.pending = s.pending ∧ t.aon = s.aon)

/-- A queue of n commands without a debug request drains in n steps, with TIME.AON unchanged. From every state, as many steps as there
are commands waiting, none of them a debug request, answer a next state with an empty queue and the same TIME.AON; so no command
of the block blocks those behind it. (95_what_each_step_holds.md, R338) -/
def Obligations.QueueDrainsInOrder : Prop :=
  ∀ s : State, (s.pending.all fun c => !isDebug c) = true →
    ∃ t, Host.Core.run Sys2Proof.core s.pending.length s = .next t ∧ t.pending = [] ∧ t.aon = s.aon

/-- Every step keeps GRP.STATUS, MARB.STATUS and the reduced parts noted by programs true to what they show. In every state, if each
GRP.STATUS register equals the status formed from its slot's entries and their ports, and MARB.STATUS.RUNNING and QUEUED equal the
numbers of running and queued activities, and every RUN_PROGRAM with a running die that uses a reduced part has noted one, then
the same holds after any step that answers a next state, whatever command is at the front of the queue. (R213, R128, R171,
11_job_mapping_and_groups.md, 19_maintenance_and_test.md) -/
def Obligations.StatusRegistersFollow : Prop :=
  ∀ s t : State, s.judged = true → step s = .next t → t.judged = true

/-- After reset every register reads what its table gives, the queue is empty and nothing is left to do. After reset every register of
BAR0 holds the reset value of its table: the values listed, and 0 in all others. The straps' own register and the RATE of PORT_CFG
are those of unconnected straps (log entry 5). The queue is empty, TIME.AON is 0, and the state meets the invariant of
StatusRegistersFollow and is calm. (Table 21-2, Table 9-8, Table 9-5, Table 10-13, Table 12-3, Table 15-6, R213, R348,
21_register_and_strap_reference.md) -/
def Obligations.ResetLeavesWhatTheTablesGive : Prop :=
  State.reset.pending = [] ∧ State.reset.aon = 0 ∧ State.reset.judged = true ∧ State.reset.calm = true ∧
  ∀ r : Reg, State.reset.regValue r = match r with
    | .devId => 0x530008A1
    | .sampled => 0x0004F000
    | .sqCfg _ => 0x00040000
    | .cqCfg _ => 0x00040100
    | .power => 0x0A8C * 2 ^ 48
    | .dvfs _ => 0x1C * 2 ^ 19
    | .thermCfg => 0x64555000
    | .watchCfg => 0x02800000
    | .lastWake => 4
    | .padHold => 0x1FFF
    | .wdog => 0x14143C283232
    | .dietest => 0x0A00
    | .sleUp _ | .sleDown _ => 0xFFFFFFFF
    | .roleCfg _ => 0x0420000000000001
    | .fpay _ | .bpay _ => 0x401
    | .wvtCfg => 0x100
    | .buddy | .hold => 0xFF000000
    | .copy _ => 0xFFFFFFFFFFFFFFFF
    | .frCfg => 0x01001040
    | .tlyCfg => 0x40080000
    | .hubRepair | .die _ .repair => 0xFFFF0000
    | .bundleStatus _ => 0x00FF0000
    | .laneMap _ => 0xFFFFFFFF
    | .dieState _ => 4
    | .castleCfg => 0x40404020
    | .stkCfg _ => 0x1000
    | .stkScrub _ => 0x00180000
    | .portCfg _ => 0x2040FF42
    | .portPartner _ => 0xFFFFFFFFFFFFFFFF
    | .vcWeight _ => 0x444444
    | _ => 0

/-- In a quiet state nothing happens of itself, and otherwise only status registers and noted parts follow. If the status registers
and the reduced parts noted by programs show what they follow, bringing them up to date changes nothing; in a calm state what the
block does of itself is that and nothing more; and bringing them up to date changes no part of the state but GRP.STATUS,
MARB.STATUS, the notes of commands under way, the log and the reports. (R213, R127, 11_job_mapping_and_groups.md) -/
def Obligations.QuietStateStaysAsItIs : Prop :=
  (∀ e : State, e.judged = true → e.derive = e) ∧
  (∀ e : State, e.calm = true → e.settle = e.derive) ∧
  (∀ e : State, ∃ js ms rs ls os, e.derive = { e with
      job := { e.job with groups := js }, marb := { e.marb with status := ms }, host := { e.host with runs := rs }, logs := ls, out := os } ∧
    rs.map (·.handle) = e.host.runs.map (·.handle) ∧
    ∀ i : Fin 64, (vget js i).active = (e.grp i).active ∧ (vget js i).staged = (e.grp i).staged)

/-- PWR_OK and RST_N: what each edge does. PWR_OK rising with VIN in range and RST_N low clears AON_FALLBACK, the wake count, the trip
count and the retained stop register, and nothing else; with RST_N high a start begins too. PWR_OK falling, or RST_N low for at
least 4 AON ticks, stops the device with its cause; a shorter RST_N pulse changes nothing. RST_N rising samples the straps by the
majority of three samples, restarts every HOST.SQ_SEQ, and with PWR_OK high begins a start. (R293, R350, R351, R305,
16_startup_and_boot_ledger.md) -/
def Obligations.PinsAndStraps : Prop :=
  (∀ s : State, s.boot.pwrOk = false → s.boot.vinOk = true →
    let e := { s with
      boot := { s.boot with pwrOk := true, retained := 0 }
      pwc := { s.pwc with
        clkFault := (fput clkFaultAonFallback (fget clkFaultAonFallback s.pwc.clkFault) 0)
        lastWake := (fput lastWakeCount 0 s.pwc.lastWake), thermStatus := (fput thermTrips 0 s.pwc.thermStatus) } }
    (s.boot.rstN = false → exec .pwrOkRise s = .next (s.afterStill e)) ∧
    (s.boot.rstN = true → exec .pwrOkRise s = .next (s.afterStill (e.beginStart false)))) ∧
  (∀ s : State, s.boot.pwrOk = true →
    let e := s.stop stopPowerOn .pin false
    exec .pwrOkFall s = .next (s.afterStill { e with
      boot := { e.boot with pwrOk := false, wakeLatch := none, tamperHalt := false }
      pwc := { e.pwc with tripped := false, brown := false } })) ∧
  (∀ (s : State) (n : Nat), s.boot.rstN = true →
    let e := s.stop stopRst .pin false
    (4 ≤ n → exec (.rstNAssert n) s = .next (s.afterStill { e with
      boot := { e.boot with rstN := false }, pwc := { e.pwc with tripped := false, brown := false } })) ∧
    (n < 4 → exec (.rstNAssert n) s = .next (s.afterStill s))) ∧
  (∀ (s : State) (a b c : Word), s.boot.rstN = false →
    let e := { s with
      boot := { s.boot with rstN := true, straps := ((a &&& b) ||| (a &&& c) ||| (b &&& c)) &&& 0xFFFFFFFE#32 }
      host := { s.host with sqs := vmap s.host.sqs fun _ r => { r with seq := 0 } } }
    exec (.rstNRelease a b c) s = .next (s.afterStill (if s.boot.pwrOk then e.beginStart false else e)))

/-- A stop keeps what VDD_AON, the flash and the fuses hold, and nothing else. After a stop that is to be followed by a restart, the
retained stop register holds its cause, dies, stacks, hub memory, fabric, ports, host rings and units are as after reset but for
HOST.SQ_SEQ, the pads are held, TIME.AON, SEC.TAMPER, the fuses, the straps and the flash are kept, and the restart is due 2^16
AON ticks later while FAILED_RUN is below 8; at 8 the device is halted instead. A start stopped before BS-14 counts in FAILED_RUN.
(R295, R298, R306, R348, 16_startup_and_boot_ledger.md) -/
def Obligations.StopKeepsOnlyTheAlwaysOnDomain : Prop :=
  ∀ (s : State) (cause : Nat) (mp : Bool),
    let t := s.stop cause .after mp
    let run := fget ldgStartFailedRun (if 1 ≤ s.boot.step ∧ s.boot.step ≤ 13 then fsat ldgStartFailedRun 1 s.boot.ldgStart else s.boot.ldgStart)
    t.boot.retained = cause ∧ t.boot.step = 0 ∧ t.boot.inService = false ∧ t.dies = State.reset.dies ∧ t.stks = State.reset.stks ∧
    t.hub = State.reset.hub ∧ t.fab = Fabric.reset ∧ t.ports = State.reset.ports ∧ t.job = Job.reset ∧ t.mbq = Mbq.reset ∧ t.wvt = Wvt.reset ∧
    t.tly = Tly.reset ∧ t.fr = Fr.reset ∧ t.sle = Sle.reset ∧ t.marb = Marb.reset ∧ t.host.cmds = [] ∧ t.host.linkUp = false ∧
    (∀ q : Fin 32, (vget t.host.sqs q).seq = (vget s.host.sqs q).seq) ∧ t.pwc.padHold = 0x1FFF#32 ∧ t.pwc.state = pwStopped ∧
    t.aon = s.aon ∧ t.sec.tamper = s.sec.tamper ∧ t.sec.fuses = s.sec.fuses ∧ t.sec.wipe = none ∧ t.boot.straps = s.boot.straps ∧
    t.boot.flashA = s.boot.flashA ∧ t.boot.flashB = s.boot.flashB ∧ t.boot.bank0 = s.boot.bank0 ∧ t.boot.bank1 = s.boot.bank1 ∧
    (run < 8 → t.boot.restartAt = some (s.aon + 2 ^ 16)) ∧
    (8 ≤ run → t.boot.restartAt = none ∧ fget ldgStartHalted t.boot.ldgStart = 1)

/-- What the beginning of a start resets and what it leaves. When a start begins, the device is at BS-01 with its ledger not yet read,
every register but those held on VDD_AON and the ledger's own is at its reset value, PORT_CFG.RATE of every port is the strap's
rate with 3 taken as 2, PWC.CLK_FAULT and TRIPS keep their values, LAST_WAKE.SOURCE is RESET, and TIME.AON, SEC.TAMPER, the fuses,
HOST.SQ_SEQ, the retained stop register and the straps are kept. (R348, R304, R294, R296, 21_register_and_strap_reference.md) -/
def Obligations.StartResetsRegisters : Prop :=
  ∀ (s : State) (restart : Bool),
    let t := s.beginStart restart
    t.boot.step = 1 ∧ t.boot.stepBegin = s.aon ∧ t.boot.stepOpen = false ∧ t.boot.inService = false ∧ t.boot.steps = Boot.reset.steps ∧
    t.boot.retained = s.boot.retained ∧ t.boot.straps = s.boot.straps ∧ t.boot.bank0 = s.boot.bank0 ∧ t.boot.bank1 = s.boot.bank1 ∧
    fget ldgStartHalted t.boot.ldgStart = 0 ∧ t.dies = State.reset.dies ∧ t.stks = State.reset.stks ∧ t.fab = Fabric.reset ∧ t.job = Job.reset ∧
    (∀ p : Fin 24, t.port p = { Port.reset with cfg := fput portRate (min 2 (fget strapTportRate s.boot.straps)) Port.reset.cfg }) ∧
    t.pwc.clkFault = s.pwc.clkFault ∧ fget thermTrips t.pwc.thermStatus = fget thermTrips s.pwc.thermStatus ∧
    fget lastWakeSource t.pwc.lastWake = 4 ∧ t.pwc.power = Pwc.reset.power ∧ t.pwc.dvfs = Pwc.reset.dvfs ∧ t.aon = s.aon ∧
    t.sec.tamper = s.sec.tamper ∧ t.sec.fuses = s.sec.fuses ∧ t.sec.measure = 0 ∧
    (∀ q : Fin 32, (vget t.host.sqs q).seq = (vget s.host.sqs q).seq)

/-- Each boot step whose instances pass opens the next step. With the ledger's counts of failures at 0 and no physical failure
reported, each boot step is recorded as passed by its primary method at the first attempt, has its effect, and opens the next
step. BS-05 does so when the source in use passes every check. (R296, R297, R298, R302, R303, R304, 16_startup_and_boot_ledger.md) -/
def Obligations.BootStepsPassInOrder : Prop :=
  (∀ s : State, s.boot.step = 1 → s.boot.stepOpen = true → s.failsOf 1 0 = 0 →
    exec (.bs01Supply []) s = .next (s.afterStill ((s.endStep 1 [⟨0, 0, stOk, 1, 0, []⟩]).openStep 2))) ∧
  (∀ s : State, s.boot.step = 2 → s.failsOf 2 0 = 0 →
    exec (.bs02Clocks []) s = .next (s.afterStill
      ((({ s with pwc := { s.pwc with trimmed := true } } : State).endStep 2 [⟨0, 0, stOk, 1, 0, []⟩]).openStep 3))) ∧
  (∀ s : State, s.boot.step = 3 → s.failsOf 3 0 = 0 → s.sec.fuses.lifeState ≠ 5 →
    let e := s.loadSecStatus
    let e := { e with pwc := { e.pwc with vf := vmap e.pwc.vf fun d _ => s.sec.fuses.vf.getD d.1 [] }, sec := { e.sec with vaultHeld := false } }
    exec (.bs03Security []) s = .next (s.afterStill ((e.endStep 3 [⟨0, 0, stOk, 1, 0, []⟩]).openStep 4))) ∧
  (∀ s : State, s.boot.step = 4 → s.failsOf 4 0 = 0 → s.sec.fuses.columnsOf 4 = [] →
    let e := { s with hub := { s.hub with badCols := [], spares := [], repair := 0x00000000FFFF0000#64 } }
    exec (.bs04HubSram []) s = .next (s.afterStill ((e.endStep 4 [⟨0, 0, stOk, 1, 0, []⟩]).openStep 5))) ∧
  (∀ (s : State) (b : List Byte) (room : Nat) (body : Nat → Nat → List Byte), s.boot.step = 5 → s.failsOf 5 0 = 0 → s.boot.imageSrc = 0 →
    s.imageBytes s.imageSource = some (b, room, body) → s.imageFault b room body = none →
    exec (.bs05Image []) s = .next (s.afterStill
      (((s.loadImage b body 0).endStep 5 [⟨0, 0, stOk, 1, 0, s.imageData s.imageSource⟩]).openStep 6))) ∧
  (∀ s : State, s.boot.step = 6 → s.failsOf 6 0 = 0 →
    let e := { s with boot := { s.boot with coresUp := 0xF#4 } }
    exec (.bs06Firmware []) s = .next (s.afterStill ((e.endStep 6 [⟨0, 0, stOk, 1, 0, []⟩]).openStep 7))) ∧
  (∀ s : State, s.boot.step = 7 → s.failsOf 7 0 = 0 → s.pwc.trimmed = true → s.boot.retained ≠ stopBrownout → fon tamperValid s.sec.tamper = false →
    let e := { s with boot := { s.boot with mpUp := true, mpRate := 100 } }
    exec (.bs07Mgmt []) s = .next (s.afterStill ((e.endStep 7 [⟨0, 0, stOk, 1, 0, []⟩]).openStep 8))) ∧
  (∀ s : State, s.boot.step = 8 → fget strapDieEn s.boot.straps ≠ 0 → s.instances 8 ≠ [] → (∀ i, s.failsOf 8 i = 0) →
    ∃ t, exec (.bs08DiePower []) s = .next t ∧ t.boot.step = 9 ∧ ∀ d : Fin 4, d.1 ∈ s.instances 8 → (t.die d).pwr.off = false ∧ (t.die d).pwr.aclkOn = true) ∧
  (∀ s : State, s.boot.step = 9 → s.instances 9 ≠ [] → (∀ i, s.failsOf 9 i = 0) → s.sec.fuses.columns = [] →
    ∃ t, exec (.bs09Scratchpad []) s = .next t ∧ t.boot.step = 10 ∧
      ∀ d : Fin 4, d.1 ∈ s.instances 9 → (t.die d).badCols = [] ∧ (t.die d).spares = []) ∧
  (∀ s : State, s.boot.step = 10 → s.instances 10 ≠ [] → (∀ i, s.failsOf 10 i = 0) → (∀ b, s.fusedBad b = []) →
    ∃ t, exec (.bs10Bundles []) s = .next t ∧ t.boot.step = 11 ∧ ∀ b : Fin 80, b.1 ∈ s.instances 10 → (t.bun b).st = bsActive) ∧
  (∀ s : State, s.boot.step = 11 → (∀ i, s.failsOf 11 i = 0) →
    ∃ t, exec (.bs11Stacks []) s = .next t ∧ t.boot.step = 12 ∧ ∀ k : Fin 8, k.1 ∈ s.instances 11 → fget stkRate (t.stk k).status = 0) ∧
  (∀ s : State, s.boot.step = 12 → (∀ i, s.failsOf 12 i = 0) →
    ∃ t, exec (.bs12StackRepair []) s = .next t ∧ t.boot.step = 13 ∧ ∀ k : Fin 8, k.1 ∈ s.instances 12 → t.boot.erasedStacks.getLsbD k.1 = false) ∧
  (∀ s : State, s.boot.step = 13 → s.xMandatory = false → (∀ p, s.portState p ≠ pstTraining) → (∀ i, s.failsOf 13 i = 0) →
    fon strapCxlEn s.boot.straps = true → ∃ t, exec (.bs13Ports []) s = .next t ∧ t.boot.step = 14 ∧ t.boot.xUp = true) ∧
  (∀ s : State, s.boot.step = 14 → s.failsOf 14 0 = 0 → s.isSpare = false →
    let e := s.endStep 14 [⟨0, 0, stOk, 1, 0, []⟩]
    let e := { e with boot := { e.boot with ldgStart := fput ldgStartFailedRun 0 e.boot.ldgStart } }
    exec (.bs14Service []) s = .next (s.afterStill (e.blowManifest.enterService pwActive)))

/-- The limits of boot steps, restarts, the arrival of an image, and the clearing of ledger counts. A boot step other than one that
waits for an image, past its limit, closes its running instances as INTERNAL and stops the start with cause WATCHDOG. A restart
begins when it is due and both pins are high. An image that BS-05 waits for from its path is written into the boot window of hub
SRAM, which lies at offset 0 by the model's choice (log entry 47). LDG.CTRL.CLEAR writes a CLEAR record for each instance of each
named step. (R298, R300, R302, Table 16-1, 16_startup_and_boot_ledger.md) -/
def Obligations.LedgerLimitsRestartsAndClear : Prop :=
  (∀ s : State, s.boot.step ≠ 0 → s.boot.step ≠ 5 → s.boot.stepOpen = true → s.boot.stepBegin + s.stepLimit s.boot.step ≤ s.aon →
    let k := s.boot.step
    let l := (s.instances k).filterMap fun i =>
      if s.methodOf k i = 0 ∨ s.methodOf k i = 1 then some (⟨i, s.methodOf k i, stInternal, 1, instPart k i, []⟩ : InstOut) else none
    exec .bootStepTimeout s = .next (s.afterStill ((s.endStep k l).stop stopWatchdog .after true))) ∧
  (∀ (s : State) (t : Nat), s.boot.restartAt = some t → t ≤ s.aon → s.boot.pwrOk = true → s.boot.rstN = true →
    exec .bootRestart s = .next (s.afterStill (s.beginStart true))) ∧
  (∀ (s : State) (p : BootPath) (image : List Byte), s.boot.step = 5 → s.imageSource = .port p → image.length ≤ 64 * 2 ^ 20 →
    exec (.bootImageArrival p image) s = .next (s.afterStill
      ((s.putHub 0 image).modBoot fun b => { b with window := some (p, image) }))) ∧
  (∀ (s : State) (v : Word), s.boot.inService = true →
    exec (.ldgCtrlClear v) s = .next (s.afterStill (forEach ((List.range 14).filter fun k => v.getLsbD (k + 1)) (fun s k =>
      forEach (List.range (stepInstances (k + 1))) (fun s i => s.journal (k + 1) i recClear 0 0 0 0 0 []) s) s)))

/-- The loss of each clock domain, and the clearing of PWC.CLK_FAULT. The loss of the reference, fabric or management clock in a
device that is up records the clock and stops the device with cause CLOCK. A stopped AON oscillator records itself and sets
AON_FALLBACK; its return clears AON_FALLBACK and nothing else. The loss of a die's ACLK records the die and fences it; that of a
stack's MCLK loses the stack. FIRST_DOMAIN takes the domain only while no fault bit is set. A write clears exactly the fault bits
and dies written 1. (R18, R19, 01_package_dies_and_clock_domains.md) -/
def Obligations.ClockLosses : Prop :=
  (∀ s : State, s.boot.inService = true →
    let lost := fun (bit : Fld) (dom : Nat) => ({ s with pwc := { s.pwc with clkFault := (fput bit 1
      (if fget (6, 1) s.pwc.clkFault = 0 then fput clkFaultFirstDomain dom s.pwc.clkFault else s.pwc.clkFault)) } } : State)
    exec .refOscLost s = .next (s.afterStill ((lost clkFaultRefLost 7).stop stopClock .after false)) ∧
    exec .fclkLockLost s = .next (s.afterStill ((lost clkFaultFclkLost 4).stop stopClock .after false)) ∧
    exec .gclkLockLost s = .next (s.afterStill ((lost clkFaultGclkLost 5).stop stopClock .after false)) ∧
    (fon clkFaultAonFallback s.pwc.clkFault = false →
      let e := lost clkFaultAonLost 6
      exec .aonOscStopped s = .next (s.afterStill
        (({ e with pwc := { e.pwc with clkFault := fput clkFaultAonFallback 1 e.pwc.clkFault } } : State).emit (.report rpClock [6])))) ∧
    (∀ k : Fin 8, (vget s.stks k).selfRefresh = false → fon stkLost (s.stk k).status = false →
      let e := lost clkFaultMclkLost (0x10 + k.1)
      exec (.mclkLockLost k) s = .next (s.after
        (({ e with pwc := { e.pwc with mclkLost := e.pwc.mclkLost ||| BitVec.twoPow 8 k.1 } } : State).loseStack k 1))) ∧
    (∀ d : Fin 4, (s.die d).pwr.aclkOn = true → s.dieServes d = true →
      let e := lost clkFaultAclkLost d.1
      let e := { e with pwc := { e.pwc with clkFault := fput (8 + d.1, 8 + d.1) 1 e.pwc.clkFault }
                        dies := vmod e.dies d fun x => { x with pwr := { x.pwr with aclkOn := false } } }
      exec (.aclkLockLost d) s = .next (s.after (State.startFence e d 1)))) ∧
  (∀ s : State, exec .aonOscillatorReturn s = .next (s.afterStill { s with pwc := { s.pwc with clkFault := fput clkFaultAonFallback 0 s.pwc.clkFault } })) ∧
  (∀ (s : State) (v : Word), exec (.clkFaultWrite v) s =
    .next (s.afterStill { s with pwc := { s.pwc with clkFault := s.pwc.clkFault &&& ~~~(v &&& 0x00000F7E#32) } }))

/-- The adaptive clock loop: each period, each recovery and each droop trip. In a loop period of a device in service, every die that
is up goes down at once to the lowest of its ceilings and MAX_STEP, or up by one step, with the fused voltage of the step, and
LIMIT names the ceiling; more than 64 stretched cycles in the period lower the droop ceiling to one below the present step, which
rises by one after 100 periods without. A droop sensor trip stretches one cycle. Nothing else changes. (R313, R314,
17_power_and_thermal.md) -/
def Obligations.AdaptiveClockLoop : Prop :=
  (∀ s : State, s.boot.inService = true → (∀ d : Fin 4, s.dieServes d = true ∧ (s.die d).pwr.aclkOn = true) →
    let pwr := fun (d : Fin 4) => (s.die d).pwr.droop (s.curStep d)
    let new := fun (d : Fin 4) => nextStep (s.curStep d) (min (pwr d).thermCeil (min (pwr d).droopCeil (min (pwr d).capCeil (s.maxStep d))))
    let e := { s with
      dies := (vmap s.dies fun d x => { x with pwr := pwr d })
      pwc := { s.pwc with dvfs := (vmap s.pwc.dvfs fun d w =>
        fput dvfsLimit (limitCode (new d) (pwr d).thermCeil (pwr d).droopCeil (pwr d).capCeil (s.maxStep d))
          (fput dvfsCurStep (new d) (fput dvfsVoltMv (min 1023 (s.voltOf d (new d))) w))) } }
    exec .dvfsLoopTick s = .next (s.afterStill e)) ∧
  (∀ (s : State) (d : Fin 4), s.boot.inService = true → s.dieServes d = true → (s.die d).pwr.aclkOn = true →
    (100 ≤ (s.die d).pwr.droopFree → exec (.droopCeilingRecovery d) s = .next (s.afterStill (s.modDie d fun x =>
      { x with pwr := { x.pwr with droopCeil := min 28 (x.pwr.droopCeil + 1), droopFree := 0 } }))) ∧
    ((s.die d).pwr.droopFree < 100 → exec (.droopCeilingRecovery d) s = .next (s.afterStill s)) ∧
    exec (.droopSensorTrip d) s = .next (s.afterStill (s.modDie d fun x => { x with pwr := { x.pwr with stretched := x.pwr.stretched + 1 } }))) ∧
  (∀ cur target : Nat, (target < cur → nextStep cur target = target) ∧ (cur < target → nextStep cur target = cur + 1) ∧ nextStep cur cur = cur) ∧
  (∀ (p : DiePower) (cur : Nat), (64 < p.stretched → (p.droop cur).droopCeil = cur - 1 ∧ (p.droop cur).stretched = 0) ∧
    (p.stretched ≤ 64 → (p.droop cur).droopCeil = p.droopCeil ∧ (p.droop cur).droopFree = p.droopFree + 1 ∧ (p.droop cur).stretched = 0))

/-- The power measurement, the fast guard and the cap loop. A measurement of a live device adds its power to the samples, of which 1 s
is kept, forms both averages and the peak, and moves the fast guard by one eighth: up above 2,850 W and down below 2,800 W. Each
millisecond the cap loop lowers by one step the cap ceiling of the lowest-numbered die at the highest step while the average of 1
s is above the cap, and raises that of the lowest-numbered die at the lowest step while it is below 98 % of the cap. (R315,
17_power_and_thermal.md) -/
def Obligations.PowerMeasurementAndCap : Prop :=
  (∀ (s : State) (v i : Nat), s.boot.inService = true →
    let l := ((v * i / 1000000) :: s.pwc.samples).take 100000
    let ms := meanOf (l.take 100)
    let e := { s with pwc := { s.pwc with
      samples := l, guard := (nextGuard s.pwc.guard ms)
      power := (fput powerAvg1s (min 65535 (meanOf l)) (fput powerAvg1ms (min 65535 ms)
        (fput powerPeak1ms (max (fget powerPeak1ms s.pwc.power) (min 65535 ms)) s.pwc.power))) } }
    exec (.powerMeasureTick v i) s = .next (s.afterStill (State.syncGate e))) ∧
  (∀ s : State,
    let cap := fget powerCap s.pwc.power
    let avg := fget powerAvg1s s.pwc.power
    (cap < avg → ∀ d, s.extremeDie true = some d → exec .capLoopTick s = .next (s.afterStill (s.modDie d fun x =>
      { x with pwr := { x.pwr with capCeil := x.pwr.capCeil - 1 } }))) ∧
    (100 * avg < 98 * cap → ∀ d, s.extremeDie false = some d → exec .capLoopTick s = .next (s.afterStill (s.modDie d fun x =>
      { x with pwr := { x.pwr with capCeil := min 28 (x.pwr.capCeil + 1) } }))) ∧
    (avg ≤ cap → 98 * cap ≤ 100 * avg → exec .capLoopTick s = .next (s.afterStill s))) ∧
  (∀ g w : Nat, (2850 < w → nextGuard g w = min 8 (g + 1)) ∧ (w < 2800 → nextGuard g w = g - 1) ∧
    (2800 ≤ w → w ≤ 2850 → nextGuard g w = g))

/-- Thermal control, trips, rail faults, over-temperature of optics and brown-outs, with their restarts. The thermal loop moves every
die's ceiling by its zones and shows the hottest zone and the held dies. A thermal trip counts in TRIPS and stops the device with
cause THERMAL until every zone is 20 °C below its trip, when it restarts. A hot optical engine goes dark and its ports are lost;
cooled, its lost ports are acquired again. A die's rail fault fences the die and a stack's loses the stack. A brown-out or over-
voltage stops the device with cause BROWNOUT until VIN is back. Stated for a device in which no tamper event's wipe is under way.
(R315, R316, R317, R318, R356, Table 17-4, 17_power_and_thermal.md) -/
def Obligations.ThermalAndSupplyStops : Prop :=
  (∀ (s : State) (t : Temps), s.boot.inService = true →
    let e := { s with dies := (vmap s.dies fun d x => { x with pwr := x.pwr.heat (zonesOf t s.pwc.thermCfg d) }) }
    let hot := maskOf 7 ((List.range 7).filter fun k => decide (80 ≤ t.oeZones.getD k 0))
    let held := maskOf 4 ((allFin 4).filterMap fun d =>
      if (State.die e d).pwr.thermCeil < 28 ∧ (State.die e d).pwr.thermCeil ≤ s.curStep d then some d.1 else none)
    exec (.thermalLoopTick t) s = .next (s.afterStill (State.syncGate { e with pwc := { e.pwc with thermStatus :=
      (fput thermHottest (min 255 (hottestZone t).1) (fput thermZone (hottestZone t).2 (fput thermOeHot hot.toNat
        (fput (11, 8) held.toNat e.pwc.thermStatus)))) } }))) ∧
  (∀ s : State, s.boot.inService = true → s.tampering = false →
    exec .thermalTrip s = .next (s.afterStill
      (State.stop { s with pwc := { s.pwc with thermStatus := fsat thermTrips 1 s.pwc.thermStatus } } stopThermal .trip true)) ∧
    (∀ o : Bool, exec (.brownout o) s = .next (s.afterStill (s.stop stopBrownout (.brown o) false)))) ∧
  (∀ (s : State) (t : Temps), s.pwc.tripped = true → s.pwc.brown = false → zonesCool t = true →
    exec (.thermalTripRestart t) s = .next (s.afterStill (State.beginStart { s with pwc := { s.pwc with tripped := false } } true))) ∧
  (∀ (s : State) (v : Nat), s.pwc.brown = true → s.pwc.tripped = false → 40000 ≤ v → (s.pwc.overVolt = true → v ≤ 60000) →
    exec (.brownoutRestart v) s = .next (s.afterStill (State.beginStart { s with pwc := { s.pwc with brown := false } } true))) ∧
  (∀ (s : State) (k : Fin 7), s.boot.inService = true → k.1 ≠ 6 →
    (s.pwc.oeDark.getLsbD k.1 = false →
      let e : State := { s with pwc := { s.pwc with oeDark := s.pwc.oeDark ||| BitVec.twoPow 7 k.1 } }
      exec (.oeOvertemp k) s = .next (s.after (forEach (enginePorts k)
        (fun s p => (s.modPhy p fun y => { y with light := false }).portLose p 1) (e.log .pwc lgPower [3, k.1])))) ∧
    (s.pwc.oeDark.getLsbD k.1 = true →
      let e : State := { s with pwc := { s.pwc with oeDark := s.pwc.oeDark &&& ~~~(BitVec.twoPow 7 k.1) } }
      exec (.oeCooled k) s = .next (s.after (forEach (enginePorts k) (fun s p =>
        if s.portState p = pstLost ∧ s.portOn p then (s.modPhy p fun y => { y with reacqAt := s.aon + reacquireTicks }).trainPort p else s) e)))) ∧
  (∀ (s : State) (d : Fin 4), (s.die d).pwr.aclkOn = true → s.dieServes d = true →
    exec (.dieRailFault d) s = .next (s.after
      (((s.modDie d fun x => { x with pwr := { x.pwr with aclkOn := false } }).startFence d 1).log .pwc lgPower [4, d.1]))) ∧
  (∀ (s : State) (k : Fin 8), s.boot.inService = true → fon stkLost (s.stk k).status = false →
    exec (.stackRailFault k) s = .next (s.after ((s.loseStack k 3).log .pwc lgPower [5, k.1])))

/-- Arming a transition, each transition, the end of DIE_OFF, pads. An armed mode is taken as written. With every core in WFI and no
interrupt pending, an armed transition to ACTIVE or IDLE changes the power state, DIE_OFF takes the named dies down, and WATCH is
entered when nothing runs and nothing is owed; with an interrupt pending nothing changes. The end of an exit from DIE_OFF brings
the die back. Each pad-hold bit written 1 is released if its domain is ready, and otherwise the ignored release is logged and
counted. (R308, R309, R310, R311, R312, Table 17-2, 17_power_and_thermal.md) -/
def Obligations.PowerTransitionsAndPads : Prop :=
  (∀ (s : State) (v : Word), s.boot.inService = true → exec (.pwcModeWrite v) s = .next (s.afterStill (
    if fget modeTarget v ≤ 3 then { s with pwc := { s.pwc with mode :=
      (fput modeArmed 1 (fput modeDieMask (fget modeDieMask v) (fput modeTarget (fget modeTarget v) 0))) } } else s))) ∧
  (∀ s : State, exec (.powerTransitionStart true) s = .next (s.after s)) ∧
  (∀ s : State, fon modeArmed s.pwc.mode = true →
    let mask := fget modeDieMask s.pwc.mode
    let e := { s with pwc := { s.pwc with mode := fput modeArmed 0 s.pwc.mode } }
    (fget modeTarget s.pwc.mode = 0 → mask = 0 →
      exec (.powerTransitionStart false) s = .next (s.after (State.powerDone { e with pwc := { e.pwc with state := pwActive } }))) ∧
    (fget modeTarget s.pwc.mode = 1 → s.anyProgram = false →
      exec (.powerTransitionStart false) s = .next (s.after (State.powerDone { e with pwc := { e.pwc with state := pwIdle } }))) ∧
    (fget modeTarget s.pwc.mode = 2 → (∀ d ∈ s.offTargets mask, s.dieBusy d = false ∧ s.programOn d = false) →
      exec (.powerTransitionStart false) s = .next (s.after (forEach (s.offTargets mask) State.dieOff e).powerDone)) ∧
    (fget modeTarget s.pwc.mode = 3 → s.pwc.cmd = none → s.anyProgram = false → fon clkFaultAonFallback s.pwc.clkFault = false →
      exec (.powerTransitionStart false) s = .next (s.after s.enterWatch))) ∧
  (∀ (s : State) (d : Fin 4) (bad : List (Nat × Nat)), s.pwc.exiting = BitVec.twoPow 4 d.1 →
    let e := (s.modDie d fun x => { x with pwr := { x.pwr with off := false, aclkOn := true, stretched := 0 } }).setAclk d 0
    let e := ({ e with pwc := { e.pwc with padHold := e.pwc.padHold &&& ~~~(padBits d), exiting := e.pwc.exiting &&& ~~~(BitVec.twoPow 4 d.1) } } : State).rejoinDie d bad []
    e.2 = true → e.1.pwc.exiting = 0 →
    exec (.dieOffExitComplete d bad []) s = .next (s.after e.1.powerDone)) ∧
  (∀ (s : State) (v : Word), exec (.padHoldWrite v) s = .next (s.afterStill (forEach ((List.range 13).filter v.getLsbD) (fun s i =>
    if s.padReady i then { s with pwc := { s.pwc with padHold := s.pwc.padHold &&& ~~~(BitVec.twoPow 32 i) } }
    else let e := s.log .pwc lgPadIgnored [i]; { e with pwc := { e.pwc with refused := e.pwc.refused + 1 } }) s)))

/-- A WATCH sample acts on the first condition that holds, and a wake-light frame is latched. At the end of each WATCH period the
sample is counted, and the first of these is acted on: an overrun, a latched wake-light pattern of an earlier tick, a zone at
WATCH_WAKE, a supply out of range, the sample timer; with none the device stays in WATCH. A valid wake-light frame for this slot
or for all slots sets the latch at the present tick if it is clear; it starts a halted device; any other frame changes nothing.
(R319, R361, R305, Table 17-5, 17_power_and_thermal.md) -/
def Obligations.WatchSamplesAndWake : Prop :=
  (∀ (s : State) (t : Temps) (v : Nat) (ok : Bool), s.pwc.state = pwWatch → s.pwc.watchAt + s.watchPeriod ≤ s.aon → s.boot.wakeLatch = none →
    let hot := zoneAtLeast t (fget thermCfgWatchWake s.pwc.thermCfg)
    let supply := decide (v < 40000 ∨ 60000 < v) || !ok
    let timer := fget watchCfgTimerSamples s.pwc.watchCfg
    let e := { s with pwc := { s.pwc with watchAt := s.pwc.watchAt + s.watchPeriod, watchTaken := s.pwc.watchTaken + 1 } }
    (s.tampering = false → exec (.watchSample true t v ok) s = .next (s.afterStill (State.stop e stopBrownout (.brown false) false))) ∧
    (hot = true → exec (.watchSample false t v ok) s = .next (s.afterStill (State.wake e wakeThermal))) ∧
    (hot = false → supply = true → exec (.watchSample false t v ok) s = .next (s.afterStill (State.wake e wakeSupply))) ∧
    (hot = false → supply = false → timer ≠ 0 → timer ≤ s.pwc.watchTaken + 1 →
      exec (.watchSample false t v ok) s = .next (s.afterStill (State.wake e wakeTimer))) ∧
    (hot = false → supply = false → timer = 0 → exec (.watchSample false t v ok) s = .next (s.afterStill e))) ∧
  (∀ (s : State) (slot : BitVec 12), s.boot.pwrOk = true → slot.toNat = fget strapSlot s.boot.straps ∨ slot = 0xFFF#12 →
    (s.haltedForWake = false → exec (.wakeLightFrame true slot 5#4 true) s = .next (s.afterStill
      { s with boot := { s.boot with wakeLatch := s.boot.wakeLatch.or (some s.aon) } })) ∧
    (s.haltedForWake = true → exec (.wakeLightFrame true slot 5#4 true) s = .next (s.afterStill (s.beginStart true)))) ∧
  (∀ (s : State) (pre crc : Bool) (slot : BitVec 12) (code : BitVec 4), pre = false ∨ crc = false ∨ code ≠ 5#4 →
    exec (.wakeLightFrame pre slot code crc) s = .next (s.afterStill s))

/-- Dispatch fetches at PC and queues the instruction, or executes it if it is a control instruction. On a die that serves and whose
program runs, with PC in the image and the word readable: an instruction for an engine whose queue has room is appended to that
queue with its PC and issue number, and PC advances; one whose queue is full waits; a reserved opcode is an ILLEGAL fault. A
control instruction without a wait or a post has its effect of Table 6-3: NOP advances PC, END stops dispatch and is noted, JUMP
sets PC, LOOP counts down and jumps or falls through, LOOPSET loads a counter, SEMSET sets a semaphore, and BARRIER passes once
the die is quiet. A PC outside the image is a FETCH fault. (R114, R115, R116, R119, R120, R124, R127, Table 6-3,
06_sequencer_and_programs.md) -/
def Obligations.DispatchQueuesOrControls : Prop :=
  ∀ (s : State) (d : Fin 4) (u : List Upset) (p : DieProgram), (s.die d).seq.prog = some p → s.dieServes d = true →
    (s.die d).hubClkLost = false → (s.die d).seq.stopped = false →
    (inImage p (s.die d).seq.pc = false → exec (.seqDispatch d u) s =
      .next (s.after (s.seqFault d 2 ⟨0, (s.die d).seq.pc, (s.die d).seq.issued⟩ stBadDescriptor (partUnit d unitSeq)))) ∧
    ∀ r : Rd, inImage p (s.die d).seq.pc = true →
      ((s.upset u).readSpad d (collided d u) (16 * (s.die d).seq.pc.toNat) 16).2 = r → r.bad = false →
      let t := ((s.upset u).readSpad d (collided d u) (16 * (s.die d).seq.pc.toNat) 16).1
      let q : QInstr := ⟨BitVec.ofNat 128 (leNat r.data), (s.die d).seq.pc, (s.die d).seq.issued⟩
      (opClass q.opc = .matrix → (t.die d).seq.mxaQ.length < 4 → exec (.seqDispatch d u) s = .next (s.after (t.modSeq d fun x =>
        { x with pc := x.pc + 1, issued := x.issued + 1, mxaQ := x.mxaQ ++ [q] }))) ∧
      (opClass q.opc = .matrix → 4 ≤ (t.die d).seq.mxaQ.length → exec (.seqDispatch d u) s = .next (s.after t)) ∧
      (∀ (e : Engine) (k : Nat), opClass q.opc = .engine e k → ((t.die d).seq.queue e).length < k →
        exec (.seqDispatch d u) s = .next (s.after (t.modSeq d fun x =>
          ({ x with pc := x.pc + 1, issued := x.issued + 1 } : Seq).setQueue e (x.queue e ++ [q])))) ∧
      (∀ (e : Engine) (k : Nat), opClass q.opc = .engine e k → k ≤ ((t.die d).seq.queue e).length →
        exec (.seqDispatch d u) s = .next (s.after t)) ∧
      (opClass q.opc = .reserved → exec (.seqDispatch d u) s = .next (s.after (t.seqFault d 1 q stBadDescriptor (partUnit d unitSeq)))) ∧
      (opClass q.opc = .control → ctlBad q.n = false → q.wen = false → q.pen = false →
        (q.opc = 0 → exec (.seqDispatch d u) s = .next (s.after (t.modSeq d fun x => { x with pc := x.pc + 1, wait := none }))) ∧
        (q.opc = 1 → exec (.seqDispatch d u) s = .next (s.after
          ((t.modSeq d fun x => { x with pc := x.pc + 1, stopped := true, wait := none }).noteEnd d))) ∧
        (q.opc = 2 → exec (.seqDispatch d u) s = .next (s.after (t.modSeq d fun x => { x with pc := BitVec.ofNat 24 q.n, wait := none }))) ∧
        (q.opc = 3 → exec (.seqDispatch d u) s = .next (s.after (t.modSeq d fun x =>
          if vget x.loops (loopIdx q.n) = 0 then { x with pc := x.pc + 1, wait := none }
          else { x with pc := BitVec.ofNat 24 q.n, loops := vset x.loops (loopIdx q.n) (vget x.loops (loopIdx q.n) - 1), wait := none }))) ∧
        (q.opc = 4 → exec (.seqDispatch d u) s = .next (s.after (t.modSeq d fun x =>
          { x with pc := x.pc + 1, loops := vset x.loops (loopIdx q.n) (BitVec.ofNat 32 (nbits q.n 63 32)), wait := none }))) ∧
        (q.opc = 5 → (t.die d).quiet = true →
          exec (.seqDispatch d u) s = .next (s.after (t.modSeq d fun x => { x with pc := x.pc + 1, wait := none }))) ∧
        (q.opc = 5 → (t.die d).quiet = false → exec (.seqDispatch d u) s = .next (s.after t)) ∧
        (q.opc = 6 → exec (.seqDispatch d u) s = .next (s.after ((t.modSeq d fun x =>
          { x with pc := x.pc + 1, wait := none }).modDie d fun x => x.semSet (semIdx (nbits q.n 38 32)) (nbits q.n 31 0)))))

/-- Each engine starts the instruction at the head of its queue when its wait is met. For each of the seventeen engine instructions:
when it heads its queue on a die that serves and its wait is met, it leaves the queue and takes its count of the semaphore; if its
operands can be used it runs, and is in flight until its completion; if it is illegal an ILLEGAL fault is raised; if a parameter
it needs is poisoned, a POISONED_PARAM fault. (R116, R117, R96, R98, R99, R100, R103, R105, R121, R122, 05_vector_engine.md,
06_sequencer_and_programs.md) -/
def Obligations.EnginesStartTheirInstructions : Prop :=
  let starts := fun (c : Fin 4 → List Upset → Instr) (e : Engine) (pick : QInstr → Bool) (body : Fin 4 → QInstr → List Nat → State → Start) =>
    ∀ (s : State) (d : Fin 4) (u : List Upset) (q : QInstr) (rest : List QInstr),
      (s.die d).seq.queue e = q :: rest → pick q = true → s.dieServes d = true → (s.die d).waitMet q = true →
      let t := (s.upset u).modDie d fun x => { x.takeWait q with seq := (x.takeWait q).seq.setQueue e rest }
      (∀ (r : State) (f : Flight), body d q (collided d u) t = .run r f →
        exec (c d u) s = .next (s.after (r.modDie d fun x => x.setFly e (x.fly e ++ [f])))) ∧
      (∀ r : State, body d q (collided d u) t = .illegal r → exec (c d u) s = .next (s.after
        (r.raise d ⟨1, q.opc, q.fn, engineUnit e, q.pc, stBadDescriptor, partUnit d (engineUnit e)⟩))) ∧
      (∀ r : State, body d q (collided d u) t = .poisoned r → exec (c d u) s = .next (s.after
        (r.raise d ⟨4, q.opc, q.fn, engineUnit e, q.pc, stPoisoned, partUnit d (engineUnit e)⟩)))
  starts .vew .vxe (fun q => q.opc == 0x40) vewBody ∧ starts .vcvt .vxe (fun q => q.opc == 0x41) vcvtBody ∧
  starts .vtadd .vxe (fun q => q.opc == 0x42) vtaddBody ∧ starts .vred .vxe (fun q => q.opc == 0x43) vredBody ∧
  starts .vpermPerm .vxe (fun q => q.opc == 0x44 && q.fn == 0) vpermBody ∧
  starts .vpermGather .vxe (fun q => q.opc == 0x44 && q.fn == 1) vpermBody ∧
  starts .voptSgdMom .vxe (fun q => q.opc == 0x45 && q.fn == 0) voptBody ∧
  starts .voptAdamw .vxe (fun q => q.opc == 0x45 && q.fn == 1) voptBody ∧
  starts .movCopy .mov (fun q => q.fn == 0) copyBody ∧ starts .movFill .mov (fun q => q.fn == 1) fillBody ∧
  starts .movHubop .mov (fun q => q.fn == 2) hubopBody ∧ starts .trnTranspose .trn (fun q => q.fn == 0) trnBody ∧
  starts .trnPanel .trn (fun q => q.fn == 1) trnBody ∧ starts .trnUnpanel .trn (fun q => q.fn == 2) trnBody ∧
  starts .rngUniform .rng (fun q => q.fn == 0) rngBody ∧ starts .rngBernoulli .rng (fun q => q.fn == 1) rngBody ∧
  starts .rngNormal .rng (fun q => q.fn == 2) rngBody

/-- A matrix instruction starts at the head of the MXA queue, and completes on its bank. MMUL at the head of the queue of a die that
serves, with no conflicting instruction in flight, its wait met, its word legal and its descriptors readable and consistent, and
no line of its operands held by the host, leaves the queue and runs. An illegal word or descriptor raises an ILLEGAL fault. An
instruction in flight on a bank whose epilogue has run and of which no write is outstanding completes. (R54, R55, R59, R62, R63,
R66, R116, R117, R119, 03_matrix_array.md) -/
def Obligations.MatrixInstructionsRunAndComplete : Prop :=
  (∀ (s : State) (d : Fin 4) (u : List Upset) (q : QInstr) (rest : List QInstr), (s.die d).seq.mxaQ = q :: rest → s.dieServes d = true →
    mmulWaits (s.die d) (mmulOp q) = false → (s.die d).waitMet q = true →
    let o := mmulOp q
    let go := fun (s : State) => s.modDie d fun x => { x.takeWait q with seq := { (x.takeWait q).seq with mxaQ := rest, wait := none } }
    (mmulBad o = true → exec (.mmul d u) s = .next (s.after ((go (s.upset u)).illegal d unitMxa q))) ∧
    (mmulBad o = false → ∀ (t : State) (ds : List (List Byte)), (s.upset u).readDescs d (collided d u) (mmulDescs o) = (t, some (some ds)) →
      (t.mmulCheck d o ds = none → exec (.mmul d u) s = .next (s.after ((go t).illegal d unitMxa q))) ∧
      (∀ a b x w, t.mmulCheck d o ds = some (a, b, x, w) →
        t.rangesWait (operandRanges o.afmt o.k a ++ operandRanges o.bfmt o.k b) = false →
        exec (.mmul d u) s = .next (s.after ((go t).mmulRun d (collided d u) q o a b x (ds.getD 3 [])))))) ∧
  (∀ (s : State) (d : Fin 4) (bank : Fin 2) (u : List Upset) (f : MxaFlight) (e : EpiOut),
    (s.die d).mxaFly.find? (fun f => (mmulBanks (mmulOp f.instr)).head? == some bank.1) = some f →
    (s.die d).mxaFly.find? (fun g => g.instr.issue == f.instr.issue) = some f → f.epi = some e →
    (s.fab.pendingWrites.any fun w => w.writer == .mxa d) = false →
    exec (.mmulComplete d bank u) s = .next (s.after (s.retireMmul d f e)))

/-- An engine's oldest instruction completes; a wait times out; a semaphore is added to through port B. The oldest instruction in
flight on an engine, its writes and its reply done, completes: it leaves the flight list, a vector instruction's flags go to
VXE.STAT and its first invalid operation to VXE.EXC, its summary goes to its command, a refused write or a trap is raised, and its
post is made. A wait that has lasted WAIT_LIMIT raises a WAIT_LIMIT fault for the instruction that waits. An add through port B to
a semaphore of a serving die adds to it; one past 2^32 - 1 saturates. (R117, R118, R119, R127, R130, R109, R110,
06_sequencer_and_programs.md) -/
def Obligations.CompletionsWaitsAndSemaphores : Prop :=
  (∀ (s : State) (d : Fin 4) (e : Engine) (f : Flight) (rest : List Flight), (s.die d).fly e = f :: rest → f.replyDue = false →
    (s.fab.pendingWrites.any fun w => w.writer == .engine d e f.instr.issue) = false → f.lost = none → f.stat &&& flSkipped = 0#8 →
    let t := s.modDie d fun x =>
      let x := x.setFly e rest
      if e = .vxe then { x with regs := { x.regs with
        vxeStat := (vxeStatAdd f.stat x.regs.vxeStat), vxeExc := (vxeExcAdd f.invalid f.instr x.regs.vxeExc) } } else x
    let t := t.addSummary d (summaryOf f.stat)
    (f.reject = none → trapped (vecOp f.instr).trap f.stat = 0#8 →
      exec (.engineInstructionComplete d e) s = .next (s.after (t.postOwn d (engineUnit e) f.instr))) ∧
    (f.reject = none → trapped (vecOp f.instr).trap f.stat ≠ 0#8 →
      exec (.engineInstructionComplete d e) s = .next (s.after ((t.raise d ⟨5, f.instr.opc, f.instr.fn, engineUnit e, f.instr.pc,
        trapStatus (trapped (vecOp f.instr).trap f.stat), partUnit d (engineUnit e)⟩).postOwn d (engineUnit e) f.instr))) ∧
    (∀ x, f.reject = some x → exec (.engineInstructionComplete d e) s =
      .next (s.after ((t.writeRejected d (engineUnit e) f.instr x).postOwn d (engineUnit e) f.instr)))) ∧
  (∀ (s : State) (d : Fin 4) (p : DieProgram) (w : SemWait) (q : QInstr), (s.die d).seq.prog = some p → (s.die d).seq.wait = some w →
    (s.die d).seq.stopped = false → p.waitLimit ≠ 0 → w.since + p.waitLimit ≤ s.aon → w.mxa = true → (s.die d).seq.mxaQ.head? = some q →
    exec (.waitTimeout d) s = .next (s.after (s.raise d ⟨7, q.opc, q.fn, unitMxa, q.pc, stCancelled, partDie d⟩))) ∧
  (∀ (s : State) (d : Fin 4) (i : Fin 128) (v : Word), s.twinStatus d = none → (s.die d).semPoisoned i = false → v ≠ 0#32 →
    let c := (vget (s.die d).sems i).toNat + v.toNat
    (c < 2 ^ 32 → exec (.semaphoreAddPortB d i v) s =
      .next (s.after (s.modDie d fun x => { x with sems := vset x.sems i (BitVec.ofNat 32 c) }))) ∧
    (2 ^ 32 ≤ c → exec (.semaphoreAddPortB d i v) s =
      .next (s.after ((s.modDie d fun x => { x with sems := vset x.sems i 0xFFFFFFFF#32 }).raise d (overflowPortB d (s.die d).seq.pc)))))

/-- Write-backs of corrected words, patrol scrub, the erasure window, and the loss of a stack. A word of a scratchpad or of the hub
SRAM that a read has corrected is written back, which clears its single-bit error and nothing else; a word without one stays as it
is. A stack's group is written back by codeword. The patrol scrub of a stack in use reads the group at its position, moves on, and
at the last group begins again and counts a pass. The end of the erasure window clears the counts of that window. A stack that
does not respond is lost with cause 3, one whose pseudo-channel fails to retrain with cause 2. (R134, R150, R153, R154, R155,
R160, 07_on_die_memories.md, 08_stack_memory.md) -/
def Obligations.MemoryUpkeep : Prop :=
  (∀ (s : State) (d : Fin 4) (w : Nat), (s.die d).spad.mark w = some (.ce true) →
    exec (.spadCeWriteback (.spad d) w) s = .next (s.afterStill (s.modDie d fun x => { x with spad := x.spad.setMark w none }))) ∧
  (∀ (s : State) (w : Nat), s.hub.sram.mark w = some (.ce true) →
    exec (.spadCeWriteback .hub w) s = .next (s.afterStill { s with hub := { s.hub with sram := s.hub.sram.setMark w none } })) ∧
  (∀ (s : State) (w : Nat), s.hub.sram.mark w ≠ some (.ce true) → exec (.spadCeWriteback .hub w) s = .next (s.afterStill s)) ∧
  (∀ (s : State) (k : Fin 8) (g : Nat), exec (.stkCeWriteback k g) s =
    .next (s.afterStill (s.modStk k fun x => (groupCws g).foldl (fun y cw => y.writeBack cw) x))) ∧
  (∀ (s : State) (k : Fin 8), fget scrubPeriodH (s.stk k).scrub ≠ 0 → fon stkLost (s.stk k).status = false → s.dieServes (dieIdx (k.1 / 2)) = true →
    let g := (s.stk k).scrubPos
    (g + 1 < stackGroups → exec (.patrolScrubRead k []) s = .next (s.after (s.useStk k fun y =>
      { y.scrubGroup s.eraseWindow (s.groupDev k g) g with scrubPos := g + 1 }))) ∧
    (stackGroups ≤ g + 1 → exec (.patrolScrubRead k []) s = .next (s.after (s.useStk k fun y =>
      let y := y.scrubGroup s.eraseWindow (s.groupDev k g) g
      { y with scrubPos := 0, scrub := fsat scrubPasses 1 y.scrub })))) ∧
  (∀ (s : State) (k : Fin 8),
    ((s.stk k).eraseWin < s.eraseWindow → exec (.eraseWindowEnd k) s =
      .next (s.afterStill (s.modStk k fun x => { x with eraseWin := s.eraseWindow, erase := [] }))) ∧
    (s.eraseWindow ≤ (s.stk k).eraseWin → exec (.eraseWindowEnd k) s = .next (s.afterStill s))) ∧
  (∀ (s : State) (k : Fin 8), exec (.stackNoResponse k) s = .next (s.after (s.loseStack k 3)) ∧
    exec (.pseudoChannelRetrainFail k) s = .next (s.after (s.loseStack k 2)))

/-- The host's reads and writes of memory, the answers to its snoops, and its snoops of the device. With the host link up, a read of a
hole in the HDM window returns zeros and a write of it is dropped; a read of stack memory with no write outstanding on its lines
and room in the host filter returns the bytes and enters the lines in the filter, or returns poison without entering them; a write
of stack memory or of a die's twin region is done and acknowledged. A clean answer to a snoop removes the line from the host
filter and releases the writes that waited for it. A snoop of the device is answered. (R279, R280, R137, R141, Table 15-4,
15_host_interface.md) -/
def Obligations.HostMemoryAccesses : Prop :=
  (∀ (s : State) (a n busy : Nat) (own : Bool) (u : List Upset), s.host.linkUp = true →
    (hdmOf a = .nothing → exec (.hostMemRead a n busy own u) s = .next (s.after (s.hostReturn a (List.replicate n 0) false))) ∧
    (hdmOf a = .dev → (s.fab.pendingWrites.any fun w => lineOf a ≤ w.line && w.line ≤ lineOf (a + n - 1)) = false →
      s.fab.hostFilter.length < hostFilterSize →
      let r := (s.upset u).readDev a n
      (r.2.bad = false → r.2.fail = none →
        exec (.hostMemRead a n busy own u) s = .next (s.after ((r.1.grantHost a n own).hostReturn a r.2.data false))) ∧
      (r.2.bad = true → exec (.hostMemRead a n busy own u) s = .next (s.after (r.1.hostReturn a r.2.data true)))) ∧
    (∀ d sel off, hdmOf a = .twin d sel off →
      exec (.hostMemRead a n busy own u) s = .next (s.after ((s.upset u).hostTwinRead a d sel off n busy)))) ∧
  (∀ (s : State) (a : Nat) (bs : List Byte) (busy : Bool) (u : List Upset), s.host.linkUp = true →
    (hdmOf a = .nothing → exec (.hostMemWrite a bs busy u) s = .next (s.after (s.hostWrote a false))) ∧
    (hdmOf a = .dev → let r := (s.upset u).writeDev .host a (bs.map some)
      exec (.hostMemWrite a bs busy u) s = .next (s.after (r.1.hostWrote a r.2.isNone))) ∧
    (∀ d sel off, hdmOf a = .twin d sel off → s.twinStatus d = none → twinBase + 2048 ≤ off → busy = false →
      let t := s.upset u
      let w := (t.die d).write sel off (bs.map some)
      w.2.2 = false → exec (.hostMemWrite a bs busy u) s = .next (s.after ((t.modDie d fun _ => w.1).hostWrote a true)))) ∧
  (∀ (s : State) (h : Nat), (s.fab.hostFilter.any fun x => x.line == h) = true →
    let t := { s with fab := { s.fab with hostFilter := s.fab.hostFilter.filter fun x => x.line != h } }
    let clear := (State.hostLines t (h / 2)).isEmpty
    exec (.backInvalidateResponse h none) s = .next (s.after (State.release { t with fab := { t.fab with
      pendingWrites := (updateWhere (fun w => w.line == h / 2) (fun w => { w with needBi := w.needBi && !clear }) t.fab.pendingWrites) } } (h / 2)))) ∧
  (∀ (s : State) (l : Nat), s.host.linkUp = true → exec (.h2dSnoop l) s = .next (s.afterStill (s.emit (.snoopResponse l))))

/-- Remote caches: a line arrives, is invalidated, and the home learns of it. A line on its way to a die's cache with room enters it,
unless an invalidation of it came first. An invalidation whose line is not on its way removes the line and the die's presence bit
at the home. Once no die owes an invalidation of a line, the home drops entries of it without presence and releases the writes
that waited. (R172, R173, R174, 09_die_fabric.md) -/
def Obligations.RemoteCachesFollowHomes : Prop :=
  (∀ (s : State) (d : Fin 4) (l : Nat) (c : CacheLine), (s.die d).fills.find? (fun c => c.line == l) = some c →
    let gone := s.modDie d fun y => { y with fills := dropFirst (fun c => c.line == l) y.fills }
    ((s.die d).invals.contains l = true → exec (.remoteCacheFillArrival d l) s = .next (s.after gone)) ∧
    ((s.die d).invals.contains l = false → (s.die d).cache.length < cacheLines →
      exec (.remoteCacheFillArrival d l) s = .next (s.after (gone.modDie d fun y => { y with cache := y.cache ++ [c] })))) ∧
  (∀ (s : State) (d : Fin 4) (l : Nat), (s.die d).invals.contains l = true → ((s.die d).fills.any fun c => c.line == l) = false →
    exec (.remoteCacheInvalidate d l) s = .next (s.after { s with
      dies := (vmod s.dies d fun y => { y with invals := y.invals.filter fun m => m != l, cache := y.cache.filter fun c => c.line != l })
      fab := { s.fab with filters := (updateWhere (fun e => e.line == l)
        (fun e => { e with presence := e.presence &&& ~~~(BitVec.twoPow 4 d.1) }) s.fab.filters) } })) ∧
  (∀ (s : State) (l : Nat), (∀ d : Fin 4, (s.die d).invals.contains l = false) →
    exec (.homeFilterInvalAck l) s = .next (s.after (State.release { s with fab := { s.fab with
      filters := (s.fab.filters.filter fun e => e.line != l || e.presence != 0)
      pendingWrites := (updateWhere (fun w => w.line == l) (fun w => { w with needInv := false }) s.fab.pendingWrites) } } l)))

/-- A memory in canonical form stays so under writes, and reads what was last written. For every memory whose bytes are listed by
rising address without a zero and whose marks rise: writing bytes keeps that form, every byte outside those written reads as
before, and each byte written reads as written. Reset memories have the form. That unlisted bytes read zero is the model's choice
(log entry 4). (R131, R134, R148, 07_on_die_memories.md) -/
def Obligations.MemoryReadsAfterWrites : Prop :=
  (∀ (r : Ram) (a : Nat) (l : List Byte), r.wf = true →
    (r.wrs a l).wf = true ∧ (∀ c, c < a ∨ a + l.length ≤ c → (r.wrs a l).rd c = r.rd c) ∧
    ∀ i : Fin l.length, (r.wrs a l).rd (a + i.1) = l[i.1]) ∧
  (∀ (r : Ram) (u : Nat) (m : Option Mark), r.wf = true → (r.setMark u m).wf = true ∧ (r.setMark u m).mark u = m) ∧
  (∀ d : Fin 4, (State.reset.die d).spad.wf = true) ∧ State.reset.hub.sram.wf = true ∧ (∀ k : Fin 8, (State.reset.stk k).mem.wf = true)

/-- Entries, CRC windows and margin measurements of a bundle. On a bundle that carries traffic, a good entry with the expected tag is
taken and ends a run of failures, a good entry with another tag changes nothing; a failed entry counts in CRC_ERR and in the
window, and if it is the expected one in REPLAYS and the run, whose 17th disables the bundle. The end of a window clears its
count. A margin measurement counts, per logical lane, successive measurements below MARGIN_MIN, and with AUTO off calls for
nothing. (R163, R164, R166, Table 9-7, Table 9-9, 09_die_fabric.md) -/
def Obligations.BundleEntriesAndMargins : Prop :=
  (∀ (s : State) (b : Fin 80) (tag : Nat), (s.bun b).carries = true →
    (tag = (s.bun b).rxNext → exec (.bundleEntryReceive b tag true) s =
      .next (s.after (s.modBun b fun x => { x with rxNext := tag + 1, failing := 0 }))) ∧
    (tag ≠ (s.bun b).rxNext → exec (.bundleEntryReceive b tag true) s = .next (s.after (s.modBun b fun x => x))) ∧
    let n := if (s.bun b).crc.win = s.crcWin then (s.bun b).crc.n + 1 else 1
    (tag ≠ (s.bun b).rxNext → exec (.bundleEntryReceive b tag false) s = .next (s.after ((s.modBun b fun x =>
      { x with crc := ⟨s.crcWin, n⟩, err := fsat bunErrCrcErr 1 x.err }).crcCall b))) ∧
    (tag = (s.bun b).rxNext →
      let t := s.modBun b fun x => { x with crc := ⟨s.crcWin, n⟩, failing := x.failing + 1, err := fsat bunErrCrcErr 1 (fsat bunErrReplays 1 x.err) }
      ((s.bun b).failing < 16 → exec (.bundleEntryReceive b tag false) s = .next (s.after (t.crcCall b))) ∧
      (16 ≤ (s.bun b).failing → exec (.bundleEntryReceive b tag false) s = .next (s.after (t.disableBundle b))))) ∧
  (∀ (s : State) (b : Fin 80), (s.bun b).crc.win < s.crcWin →
    exec (.crcWindowEnd b) s = .next (s.after (s.modBun b fun x => { x with crc := ⟨s.crcWin, 0⟩ }))) ∧
  (∀ (s : State) (b : Fin 80) (w : List Nat), (s.bun b).carries = true → fon castleAuto s.fab.castleCfg = false →
    exec (.eyeMeasurement b w) s = .next (s.after (s.modBun b fun x => { x with low := ((List.range 66).map fun l =>
      if x.uses l && decide (w.getD (x.physical l) 256 < fget castleMarginMin s.fab.castleCfg) then x.low.getD l 0 + 1 else 0) })))

/-- Castling of a lane and retraining of a bundle, from their start to their end. An admitted castling on a carrying bundle takes its
first good spare and marks the bundle CASTLING; the switch is made once; if the check passes, the spare carries the lane, the
bundle returns to its former state, LAST_LANE and CASTLE_COUNT record it, and the activity ends; if it fails, the spare is bad,
and the next good spare is tried, or without one the ladder applies. An admitted retraining marks the bundle RETRAINING; its
completion trains the bundle on the lanes found bad and ends the activity. (R165, R167, R169, Table 9-2, 09_die_fabric.md) -/
def Obligations.CastlingAndRetraining : Prop :=
  (∀ (s : State) (b : Fin 80) (id lane i : Nat) (h : Option Quad) (rs bs : List (Nat × Nat)),
    s.bundleAct b = some ⟨id, .castle b lane, h, rs, bs⟩ → (s.bun b).cast = none → (s.bun b).carries = true →
    ((s.bun b).nextSpare 0 = some i → exec (.castling b) s = .next (s.after (s.modBun b fun x =>
      { x.setSt bsCastling with former := x.st, cast := some ⟨lane, i, false⟩ }))) ∧
    ((s.bun b).nextSpare 0 = none → exec (.castling b) s = .next (s.after ((s.ladder b lane).endBundleAct b)))) ∧
  (∀ (s : State) (b : Fin 80) (c : Castling), (s.bun b).cast = some c → (s.bun b).st = bsCastling →
    exec (.castlingSwitch b) s = .next (s.after (s.modBun b fun x => { x with cast := some { c with switched := true } }))) ∧
  (∀ (s : State) (b : Fin 80) (c : Castling), (s.bun b).cast = some c → c.switched = true →
    exec (.castlingComplete b true) s = .next (s.after (((s.modBun b fun x =>
      let y := (List.range 4).foldl (fun (y : Bundle) i => if y.spare i == c.lane then y.setSpare i laneBad else y) x
      let y := (y.setSpare c.spare c.lane).setSt x.former
      { y with cast := none, low := (y.low.set c.lane 0)
               status := (fput bunLastLane c.lane (fsat bunCastleCount 1 y.status)) }).log .fabric lgCastling [b.1, c.lane, c.spare]).endBundleAct b)) ∧
    let t := s.modBun b fun x => x.setSpare c.spare laneBad
    (∀ i, (t.bun b).nextSpare c.spare = some i →
      exec (.castlingComplete b false) s = .next (s.after (t.modBun b fun x => { x with cast := some ⟨c.lane, i, false⟩ }))) ∧
    ((t.bun b).nextSpare c.spare = none →
      exec (.castlingComplete b false) s = .next (s.after (((t.modBun b fun x => { x with cast := none }).ladder b c.lane).endBundleAct b)))) ∧
  (∀ (s : State) (b : Fin 80) (id : Nat) (h : Option Quad) (rs bs : List (Nat × Nat)), s.bundleAct b = some ⟨id, .retrain b, h, rs, bs⟩ →
    (s.bun b).st ≠ bsRetrain → (s.bun b).carries = true →
    exec (.bundleRetrain b) s = .next (s.after (s.modBun b fun x => { x.setSt bsRetrain with former := x.st }))) ∧
  (∀ (s : State) (b : Fin 80) (bad : List Nat), (s.bun b).st = bsRetrain →
    exec (.bundleRetrainComplete b bad) s = .next (s.after
      (((s.modBun b fun x => { x.train (s.fusedBad b) bad with rxNext := x.rxNext }).relink).endBundleAct b)))

/-- Forwarded clocks that stop, and the fence of a die from its beginning to its end. A die that serves and whose forwarded clocks on
all its enabled hub bundles stop is fenced with cause CLOCK_LOST; when only some stop, those bundles are disabled, their
activities end, and the links are formed anew. A die that has lost all clocks from the hub stops dispatching and its pads are
held. A fence holds the die in reset, and when it is complete the die is FENCED with its cause, its lines are dropped and it is
reported. (R175, R176, R177, Table 9-3, 09_die_fabric.md) -/
def Obligations.ClockLossAndFencing : Prop :=
  (∀ (s : State) (d : Fin 4) (bs : List (Fin 80)), s.dieServes d = true →
    let enabled := (allFin 80).filter fun b => decide (b.1 / 16 = d.1) && decide ((s.bun b).st ≠ bsOff ∧ (s.bun b).st ≠ bsDisabled ∧ (s.bun b).st ≠ bsFenced)
    (enabled ≠ [] → (∀ b ∈ enabled, b ∈ bs) → exec (.lclkMissing d bs) s = .next (s.after (s.startFence d 1))) ∧
    ((∀ b ∈ enabled, b ∉ bs) → exec (.lclkMissing d bs) s = .next (s.after s))) ∧
  (∀ (s : State) (d : Fin 4), s.dieSt d ≠ dsOff → s.dieSt d ≠ dsExcluded →
    exec (.dieHubClockLoss d) s = .next (s.after { s with
      dies := (vmod s.dies d fun x => { x with hubClkLost := true })
      pwc := { s.pwc with padHold := s.pwc.padHold ||| BitVec.twoPow 32 d.1 } })) ∧
  (∀ (s : State) (d : Fin 4) (f : Fence), vget s.fab.fences d = some f →
    exec (.dieFenceResetHold d) s = .next (s.after { s with fab := { s.fab with fences := vset s.fab.fences d (some { f with held := true }) } }) ∧
    (f.held = true →
      let t := s.dropHomed d
      let t := { t with fab := { t.fab with
        fences := (vset t.fab.fences d none)
        dieState := (vmod t.fab.dieState d fun w => fput dieCause f.cause (fput dieState dsFenced w)) } }
      exec (.dieFenceComplete d) s = .next (s.after (((State.refusePending t).log .hub lgFence [d.1, f.cause]).emit (.report rpDegraded [(partDie d).toNat])))))

/-- What a port does with a flit it receives and with the time for a flit it sends. A flit with a failing codeword or CRC counts in
CRC_ERR and asks for a replay; a good DATA flit with the expected sequence number advances it and is handed to its VC; one with a
number up to 511 ahead asks for a replay; one up to 512 behind is a duplicate and is dropped. A port that sends takes its CTL
flits first, then replayed flits, then new data, and otherwise sends IDLE; while it is OFF or LOST neither happens. (R183, R187,
R188, R189, R193, 10_terti_links.md) -/
def Obligations.FlitsInBothDirections : Prop :=
  (∀ (s : State) (p : Fin 24) (lam : Fin 8) (ok : Bool) (flit : List Byte), s.portState p = pstOff ∨ s.portState p = pstLost →
    exec (.tertiFlitReceive p lam ok flit) s = .next (s.after s) ∧ exec (.tertiFlitTransmit p) s = .next (s.after s)) ∧
  (∀ (s : State) (p : Fin 24) (lam : Fin 8) (flit : List Byte), s.portState p ≠ pstOff → s.portState p ≠ pstLost →
    (flitGood flit = false → exec (.tertiFlitReceive p lam true flit) s =
      .next (s.after ((s.modPort p fun x => { x with linkErr := fsat linkErrCrcErr 1 x.linkErr }).gap p))) ∧
    (flitGood flit = true → s.takesData p = true → (FlitHead.parse flit).nak = false →
      (FlitHead.parse flit).type = ftFirst ∨ (FlitHead.parse flit).type = ftCont →
      let h := FlitHead.parse flit
      let t := s.modRx p fun r => { r with flits := r.flits + 1 }
      let t := t.modTx p fun x => { x with freed := match fin? 8 h.cvc with
        | some c => vset x.freed c h.cfree
        | none => x.freed }
      let t := t.acked p h.ack
      t.takesData p = true →
      let ahead := (h.seq + 65536 - (t.port p).rx.expect) % 65536
      (∀ v, ahead = 0 → fin? 8 h.vc = some v → exec (.tertiFlitReceive p lam true flit) s = .next (s.after
        ((t.modRx p fun r => { r with expect := ((t.port p).rx.expect + 1) % 65536, nakSent := false }).dataFlit p v
          ⟨h.type == ftFirst, h.eom, slice flit 8 244⟩))) ∧
      (1 ≤ ahead → ahead ≤ 511 → exec (.tertiFlitReceive p lam true flit) s = .next (s.after (t.gap p))) ∧
      (65024 ≤ ahead → exec (.tertiFlitReceive p lam true flit) s = .next (s.after t)))) ∧
  (∀ (s : State) (p : Fin 24), s.portState p ≠ pstOff → s.portState p ≠ pstLost → (s.port p).tx.flits % 4096 ≠ 4095 →
    let x := (s.port p).tx
    (∀ b rest, x.ctlOut = b :: rest → exec (.tertiFlitTransmit p) s =
      .next (s.after ((s.modTx p fun t => { t with ctlOut := rest }).sendFlit p 0 0 ftCtl false b))) ∧
    (x.ctlOut = [] → s.carries p = false → s.portState p ≠ pstQuarantined → exec (.tertiFlitTransmit p) s = .next (s.after (s.sendIdle p))) ∧
    (x.ctlOut = [] → s.carries p = true →
      (∀ f rest, x.resend = f :: rest → exec (.tertiFlitTransmit p) s = .next (s.after
        ((s.modTx p fun t => { t with resend := rest }).sendFlit p f.seq f.vc (if f.first then ftFirst else ftCont) f.eom f.body))) ∧
      (x.resend = [] → replayEntries ≤ x.replay.length → exec (.tertiFlitTransmit p) s = .next (s.after (s.sendIdle p))) ∧
      (x.resend = [] → x.replay.length < replayEntries → s.portState p ≠ pstQuarantined →
        (∀ v t, (s.port p).choose false = some (v, t) → exec (.tertiFlitTransmit p) s = .next (s.after (s.sendData p v t))) ∧
        ((s.port p).choose false = none → exec (.tertiFlitTransmit p) s = .next (s.after (s.sendIdle p))))))

/-- Each control flit is taken once and has its effect. A PARAM flit gives the partner's parameters; a SYNC flit resends from the
number it names; an FFE_REQ adds its step to one tap of one wavelength; a LAMBDA_NOTICE on a port that carries takes the
wavelengths it no longer names from those in use; an RTT_PROBE is echoed; an RTT_ECHO gives the round-trip time; and a flit that
was not answered is sent again. A flit that the model has no room to act on is not there: each clause names the first waiting flit
of its subtype. (R189, R190, R195, Table 10-6, 10_terti_links.md) -/
def Obligations.ControlFlitsActOnce : Prop :=
  (∀ (s t : State) (p : Fin 24) (b : List Byte), s.takeCtl p ctlSubParam = some (b, t) → t.portState p ≠ pstRetrain →
    exec (.ctlParam p) s = .next (s.after ((t.modPhy p fun y => { y with partner :=
      (some ⟨bytesWord b 4, b.getD 8 0, byteAt b 9, byteAt b 10, b.getD 11 0, (List.range 8).map fun i => byteAt b (12 + i)⟩) }).ctlAnswered p ctlSubParam))) ∧
  (∀ (s t : State) (p : Fin 24) (b : List Byte) (l : List HeldFlit), s.takeCtl p ctlSubSync = some (b, t) → t.carries p = true →
    (t.port p).tx.heldFrom (leAt b 2 2) = some l →
    exec (.ctlSync p) s = .next (s.after ((t.acked p (leAt b 2 2)).modTx p fun x => { x with resend := l, ackTick := (t.acked p (leAt b 2 2)).aon }))) ∧
  (∀ (s t : State) (p : Fin 24) (b : List Byte), s.takeCtl p ctlSubFfe = some (b, t) → byteAt b 1 ≤ 7 → byteAt b 2 ≤ 4 →
    exec (.ctlFfeReq p) s = .next (s.after (t.modPhy p fun y => { y with ffe :=
      (((List.range 40).map fun k => y.ffe.getD k 0).set (5 * byteAt b 1 + byteAt b 2)
        (((List.range 40).map fun k => y.ffe.getD k 0).getD (5 * byteAt b 1 + byteAt b 2) 0 + sInt 8 (byteAt b 3))) }))) ∧
  (∀ (s t : State) (p : Fin 24) (b : List Byte), s.takeCtl p ctlSubLambda = some (b, t) → t.portState p = pstActive ∨ t.portState p = pstDegraded →
    min 2 (byteAt b 2) ≤ fget pstRateAct (t.port p).status →
    let y := (t.port p).phy
    let e := t.modPhy p fun y => { y with txGood := y.txGood &&& b.getD 1 0 }
    let w := chooseLambdas (State.port e p).phy.txGood
    (w = 0 → exec (.ctlLambdaNotice p) s = .next (s.after (State.portLose e p 2))) ∧
    (w ≠ 0 → w = y.txLambda → exec (.ctlLambdaNotice p) s = .next (s.after e)) ∧
    (w ≠ 0 → w ≠ y.txLambda → exec (.ctlLambdaNotice p) s = .next (s.after (State.enterRetrain e p w y.rxLambda)))) ∧
  (∀ (s t : State) (p : Fin 24) (b : List Byte), s.takeCtl p ctlSubProbe = some (b, t) →
    exec (.ctlRttProbe p) s = .next (s.after (t.sendCtl p (natLe 1 ctlSubEcho ++ [0, 0, 0] ++ slice b 4 4)))) ∧
  (∀ (s t : State) (p : Fin 24) (b : List Byte) (rtt : Nat), s.takeCtl p ctlSubEcho = some (b, t) →
    exec (.ctlRttEcho p rtt) s = .next (s.after ((t.modPhy p fun y => { y with rtt := rtt }).ctlAnswered p ctlSubProbe))) ∧
  (∀ (s : State) (p : Fin 24), exec (.ctlRepeat p) s =
    .next (s.after (forEach (s.port p).phy.ctlWait (fun s n => s.sendCtl p (s.ctlAgain p n)) s)))

/-- Training, its failures, its end, retraining, loss and return of light, and acquiring again. Enabling an OFF port starts its
training and disabling a port that is not OFF takes it out. Training that ends with enough good wavelengths in both directions and
a known partner with the expected position brings the port up with those wavelengths and the smaller limits; with too few it falls
to the next rate. A step that runs out takes its wavelength out. Retraining that succeeds takes up the new wavelengths and resends
what was not acknowledged; one that fails falls to the next rate, and at the last the port is lost. A port that loses light is
lost, and one whose wait has passed trains again. (R191, R192, R193, R194, R195, R196, Table 10-7, Table 10-9, 10_terti_links.md) -/
def Obligations.TrainingAndRetrainingOfPorts : Prop :=
  (∀ (s : State) (p : Fin 24) (v : Word), fon portEnable v = true → fget portMaxMsg v ≤ 8 → fget portRate v ≠ 3 → s.portState p = pstOff →
    exec (.portEnableWrite p v) s = .next (s.after ((s.modPort p fun x => { x with cfg := fput (0, 0) 0 v }).trainPort p))) ∧
  (∀ (s : State) (p : Fin 24) (v : Word), fon portEnable v = false → fget portMaxMsg v ≤ 8 → fget portRate v ≠ 3 → s.portOn p = true →
    s.portState p ≠ pstOff →
    exec (.portEnableWrite p v) s = .next (s.after ((s.modPort p fun x => { x with cfg := fput (0, 0) 0 v }).portFail p pstOff 6))) ∧
  (∀ (s : State) (p : Fin 24) (tx rx : BitVec 8), s.portState p = pstTraining →
    let y := (s.port p).phy
    let t := chooseLambdas (tx &&& y.txGood) y.four
    let r := chooseLambdas (rx &&& y.rxGood) y.four
    (t = 0 ∨ r = 0 → exec (.tertiTrainingComplete p tx rx) s = .next (s.after (s.rateFailed p))) ∧
    (∀ q, t ≠ 0 → r ≠ 0 → y.partner = some q →
      let e := s.modPort p fun x => { x with
        partner := (fput partnerSeen q.pos.toNat x.partner)
        phy := { x.phy with
          txLambda := t, rxLambda := r, light := true, attempts := 0, ctlWait := [], uncorr := []
          vcs := BitVec.ofNat 8 (fget portVcEn x.cfg) &&& q.vcEn, maxMsg := (min (fget portMaxMsg x.cfg) q.maxMsg) } }
      (State.misbound e p = false → exec (.tertiTrainingComplete p tx rx) s = .next (s.after (State.portUp e p))) ∧
      (State.misbound e p = true → exec (.tertiTrainingComplete p tx rx) s = .next (s.after (State.portFail e p pstMisbound 5))))) ∧
  (∀ (s : State) (p : Fin 24) (k : Nat) (lam : Fin 8), s.portState p = pstTraining → 1 ≤ k → k ≤ 4 →
    let e := s.modPhy p fun y => { y with rxGood := y.rxGood &&& ~~~(BitVec.twoPow 8 lam.1) }
    exec (.trainingStepTimeout p k true lam) s = .next (s.after
      (if chooseLambdas (State.port e p).phy.txGood = 0 ∨ chooseLambdas (State.port e p).phy.rxGood = 0 then State.rateFailed e p else e))) ∧
  (∀ (s : State) (p : Fin 24), s.portState p = pstRetrain → (∀ q, (s.port p).phy.partner = some q → q.pos = s.seen p) →
    (let e := s.modPhy p fun y => { y with txLambda := y.retrainTo.1, rxLambda := y.retrainTo.2, ctlWait := [] }
     exec (.tertiRetrainComplete p true) s = .next (s.after ((e.modTx p fun x => { x with resend := x.replay, ackTick := s.aon }).portUp p))) ∧
    (fget pstRateAct (s.port p).status < 2 → exec (.tertiRetrainComplete p false) s = .next (s.after
      ((s.modPort p fun x => { x with status := fput pstRateAct (fget pstRateAct (s.port p).status + 1) x.status }).enterRetrain p 0xFF 0xFF))) ∧
    (2 ≤ fget pstRateAct (s.port p).status → exec (.tertiRetrainComplete p false) s = .next (s.after (s.portLose p 2)))) ∧
  (∀ (s : State) (p : Fin 24), exec (.portLossOfLight p) s = .next (s.after ((s.modPhy p fun y => { y with light := false }).portLose p 1)) ∧
    (s.portState p ≠ pstQuarantined → exec (.lightReturn p) s = .next (s.after (s.modPhy p fun y => { y with light := true })))) ∧
  (∀ (s : State) (p : Fin 24), s.portState p = pstLost → s.portOn p = true → (s.port p).phy.reacqAt ≤ s.aon → s.pwc.oeDark.getLsbD (p.1 / 4) = false →
    exec (.portReacquire p) s = .next (s.after ((s.modPhy p fun y => { y with reacqAt := s.aon + reacquireTicks }).trainPort p)))

/-- The periodic work of a port: adaptation, laser bias, wavelengths, replays, windows, held messages, NACKs, EXPECT and management.
On a port that carries, an adaptation step advances, an FFE request due goes out, the laser bias moves one step per wavelength and
its aging follows. A wavelength that fails is taken out. A link whose oldest flit is not acknowledged in time is replayed. Each
window's end clears what the window counted. A message held past the grace time is refused. The first queued NACK is sent while
its VC has a credit. A NACK for a stage message goes to the stage link engine. A write of EXPECT binds the ports anew. A
management message goes to the MCP. (R189, R191, R195, R197, R201, R203, R204, R210, Table 10-9, 10_terti_links.md) -/
def Obligations.PortWindowsAndHousekeeping : Prop :=
  (∀ (s : State) (p : Fin 24), s.carries p = true →
    exec (.ctleAdaptTick p) s = .next (s.after (s.modPhy p fun y => { y with eqStep := y.eqStep + 1 })) ∧
    (∀ (lam : Fin 8) (tap : Nat) (d : Int), (s.port p).rx.ffeAt + 65536 ≤ (s.port p).rx.flits → tap ≤ 4 → -1 ≤ d → d ≤ 1 →
      exec (.ffeReqCount p lam tap d) s = .next (s.after ((s.modRx p fun x => { x with ffeAt := x.flits }).sendCtl p
        (natLe 1 ctlSubFfe ++ natLe 1 lam.1 ++ natLe 1 tap ++ natLe 1 (d % 256).toNat)))) ∧
    (let old := (List.range 8).map fun i => (s.port p).phy.bias.getD i 50
     let new := (List.range 8).map fun i => old.getD i 50 - 1
     exec (.laserBiasTick p 0#8) s = .next (s.after (s.modPort p fun x => { x with
       status := (fput pstLambdaAging (maskOf 8 ((List.range 8).filter fun i => decide (90 ≤ new.getD i 50))).toNat x.status)
       phy := { x.phy with bias := new } }))) ∧
    ((s.port p).tx.replay ≠ [] → 2 * (s.port p).phy.rtt + 1000 ≤ 40 * (s.aon - (s.port p).tx.ackTick) →
      exec (.ackTimeoutReplay p) s = .next (s.after (s.startReplay p))) ∧
    (∀ (m : Msg) (rest : List Msg), (s.port p).nacks = m :: rest → (s.port p).credit 5 ≠ 0 →
      exec (.nackSend p) s = .next (s.after ((s.modPort p fun y => { y with nacks := rest }).send p m .mcp)))) ∧
  (∀ (s : State) (p : Fin 24) (r : Bool) (lam : Fin 8), exec (.wavelengthFail p r lam) s = .next (s.after (s.lambdaFail p r lam))) ∧
  (∀ (s : State) (p : Fin 24), exec (.wavelengthWindowEnd p) s = .next (s.after (s.modPhy p fun y =>
    { y with uncorr := (y.uncorr.map fun w => if w.win = s.aon / 32768 then w else ⟨s.aon / 32768, 0⟩) }))) ∧
  (∀ (s : State) (p : Fin 24) (t : Nat), (s.port p).phy.replayMark = some t → t + 1048576 ≤ s.aon →
    exec (.replayWindowEnd p) s = .next (s.after (s.modPhy p fun y => { y with replayMark := none }))) ∧
  (∀ (s : State) (p : Fin 24), (s.port p).weight.win ≠ s.weightWin → exec (.quarantineWindowEnd p) s =
    .next (s.after (s.modPort p fun x => { x with weight := ⟨s.weightWin, 0⟩, vlogStat := fput vlogWindowWeight 0 x.vlogStat }))) ∧
  (∀ (s : State) (p : Fin 24) (v : Fin 8) (o : OpenMsg) (t : Nat), vget (s.port p).rx.opened v = some o → o.held = some t → o.full = false →
    s.inGrace p t = false →
    let ec := if o.job then (0, 0) else s.heldEpochs o.hdr
    let e := (s.freeFlits p v o.flits).settleOpen p v { o with held := none, discard := true }
    exec (.messageHoldExpiry p v) s = .next (s.after
      (State.drainVc vcBuffer ((e.reject p o.hdr 0x0B stNotPermitted 0 ec.1 ec.2).quarCheck p) p v))) ∧
  (∀ (s t : State) (p : Fin 24) (m : Msg), s.takeMsg p kNack = some (m, t) → nkKind m.payload = kFwdAct ∨ nkKind m.payload = kBwdGrad →
    exec (.nack p) s = .next (s.after ((t.log (.port p) lgNack [nkKind m.payload, (nkStatus m.payload).toNat]).sleNack m))) ∧
  (∀ (s : State) (p : Fin 24) (v : Word), exec (.expectWrite p v) s =
    .next (s.after (s.modPort p fun x => { x with partner := fput partnerExpect v.toNat x.partner }).rebindPorts)) ∧
  (∀ (s : State) (p : Fin 24) (m : Msg), (s.port p).rx.delivered.find? (fun m => decide (m.hdr.vc = vcMgt)) = some m →
    exec (.mgmtMessage p) s = .next (s.after
      { s.modRx p fun r => { r with delivered := dropFirst (fun m => decide (m.hdr.vc = vcMgt)) r.delivered } with mail := s.mail ++ [(p, m)] }))

/-- Segments of stage messages fill queue entries, and drops and credits arrive. A FWD_ACT or BWD_GRAD segment that passes the epoch
check, of a micro-batch whose entry is open, is stored at its offset and counted; the segment that completes the payload gives the
entry its order of completion. A segment that passes the entry's size drops the micro-batch as OVERSIZE. An MB_DROP returns its
credit and drops the micro-batch as dropped upstream. A QCREDIT is remembered and its grants applied to both sides. Every 2^14
ticks each role sends its credits to its partners. (R199, R216, R219, R220, R223, R235, 12_stage_machinery.md) -/
def Obligations.SegmentsFillQueueEntries : Prop :=
  (let seg := fun (c : Fin 24 → Instr) (d : Dir) (k : Nat) =>
    ∀ (s t : State) (p : Fin 24) (m : Msg) (r : Fin 4) (e : QEntry), s.takeMsg p k = some (m, t) → t.epochCheck m.hdr = .pass →
      t.roleOf m.hdr.stage = some r → t.mbq.dead.contains ⟨r, d, m.hdr.step, m.hdr.mbId⟩ = false →
      let h := m.hdr
      let mine := fun (x : QEntry) => x.order.isNone && x.step == h.step && x.mb == h.mbId && x.eval == h.flags.getLsbD hfEval
      let w := (t.mq r).pay d
      ((t.mq r).queue d).find? mine = some e →
      let got := e.got + m.payload.length
      (h.offset + m.payload.length ≤ fget payEntryMib w * 2 ^ 20 → h.flags.getLsbD hfLast = false → e.total = none →
        exec (c p) s = .next (s.after ((t.storeSegment w e.idx h.offset m.payload).modMq r fun q =>
          q.setQueue d (updateWhere mine (fun x => { x with got := got, total := none, order := none }) (q.queue d))))) ∧
      (h.offset + m.payload.length ≤ fget payEntryMib w * 2 ^ 20 → h.flags.getLsbD hfLast = true → h.offset + m.payload.length = got →
        let u := (t.storeSegment w e.idx h.offset m.payload)
        let u := u.modMq r fun q => q.setQueue d (updateWhere mine (fun x => { x with got := got, total := some got, order := some u.mbq.clock }) (q.queue d))
        let u := u.modMbq fun m => { m with clock := m.clock + 1 }
        0 ≤ epochDiff h.step (u.mq r).step → exec (c p) s = .next (s.after u)) ∧
      (fget payEntryMib w * 2 ^ 20 < h.offset + m.payload.length →
        exec (c p) s = .next (s.after (t.dropMicro r h.step h.mbId h.wver (h.flags.getLsbD hfEval) dcOversize)))
   seg .fwdAct .fwd kFwdAct ∧ seg .bwdGrad .bwd kBwdGrad) ∧
  (∀ (s t : State) (p : Fin 24) (m : Msg) (r : Fin 4), s.takeMsg p kMbDrop = some (m, t) → t.epochCheck m.hdr = .pass →
    t.roleOf m.hdr.stage = some r →
    exec (.mbDrop p) s = .next (s.after ((t.grant r (if m.hdr.vc = vcFwd then .bwd else .fwd) 1).dropMicro r m.hdr.step m.hdr.mbId m.hdr.wver
      (m.hdr.flags.getLsbD hfEval) dcUpstream))) ∧
  (∀ (s t : State) (p : Fin 24) (m : Msg), s.takeMsg p kQcredit = some (m, t) →
    let h := m.hdr
    let e := { t with sle := { t.sle with heard :=
      ((t.sle.heard.filter fun y => !(y.pos == h.srcPos && y.stage == h.stage)) ++ [⟨h.srcPos, h.stage, h.roleEpoch⟩]) } }
    exec (.qcredit p) s = .next (s.after ((State.applyGrant e h (h.stage - 1) .fwd (leAt m.payload 0 2)).applyGrant h (h.stage + 1) .bwd (leAt m.payload 2 2)))) ∧
  (∀ s : State, s.aon % 16384 = 0 → exec .qcreditPeriodic s = .next (s.after (forEach (allFin 4) (fun s r =>
    if s.roleUsed r then forEach (s.partners r) (fun s q => s.sendQcredit r q) s else s) s)))

/-- The micro-batch queue manager answers each HUBOP of Table 12-9. TAKE answers the oldest waiting slot of its role and marks it
running for the die; FWD_DONE of an evaluation, or of a slot with a stash, ends its forward run; BWD_DONE frees the stash and
hands the gradient on; STASH_ALLOC takes extents and writes their addresses; STASH_MAP writes the addresses asked for; DROP drops
a running or waiting micro-batch as PROGRAM; INJECT_EVAL adds evaluation entries at a first stage with room. Every one of them
then answers OK; a reserved byte that is not zero answers BAD_DESCRIPTOR with detail RESERVED. (R221, R222, R224, R225, R226,
R227, R228, Table 12-9, 12_stage_machinery.md) -/
def Obligations.StageUnitsAnswerHubops : Prop :=
  (∀ (s : State) (d : Fin 4) (m : HubMsg) (r : Fin 4) (i : Fin 16) (back : Bool), s.hubOdd? d unitMbq [1, 2, 3, 4, 5, 6, 7] = none →
    s.hubMsg? d unitMbq 1 = some m → fin? 4 (byteAt m.bytes 2) = some r → byteAt m.bytes 3 = b2n back → allZero (m.bytes.drop 4) = true →
    (∀ j, (s.slot j).state = (if back then slBwdWait else slFwdWait) ∧ (s.slot j).role = r ↔ j = i) →
    (∀ j, (s.slot j).state ≠ (if back then slBwdRun else slFwdRun)) →
    let t := s.setSlot i fun x => { x with state := (if back then slBwdRun else slFwdRun), takers := x.takers ||| BitVec.twoPow 4 d.1 }
    exec (.take d) s = .next (s.after (t.answer m stOk 0 (natLe 1 i.1 ++ natLe 1 (t.slot i).flags)))) ∧
  (∀ (s : State) (d : Fin 4) (m : HubMsg), s.hubOdd? d unitMbq [1, 2, 3, 4, 5, 6, 7] = none → s.hubMsg? d unitMbq 1 = some m →
    allZero (m.bytes.drop 4) = false → exec (.take d) s = .next (s.after (s.answerBad m dtReserved))) ∧
  (∀ (s t : State) (d : Fin 4) (m : HubMsg) (i : Fin 16) (fn : Nat) (rd : Rd), s.hubMsg? d unitMbq fn = some m → fin? 16 (byteAt m.bytes 2) = some i →
    (s.slot i).state ≠ slDropped → (s.slot i).cause = 0 → (s.slot i).firsts = [] → s.readHub (s.slotBase + 64 * i.1) 64 = (t, rd) → rd.bad = false →
    let x := s.slot i
    (fn = 2 → t.doneError x .fwd m.bytes = none → x.eval = true ∨ x.stash.isSome = true →
      exec (.fwdDone d) s = .next (s.after ((t.fwdDone i d (parseDone m.bytes)).answer m stOk))) ∧
    (∀ k, fn = 3 → t.doneError x .bwd m.bytes = none → x.stash = some k →
      let u := ((t.freeSlotEntry i).freeRecord k).setSlot i fun y => { y.setFirst 3 d with state := slDone, stash := none, bwdSent := true, acked := false }
      exec (.bwdDone d) s = .next (s.after ((u.output i .bwd d (parseDone m.bytes)).answer m stOk))) ∧
    (∀ idx, fn = 4 → allZero (m.bytes.drop 12) = true → x.state = slFwdRun → x.eval = false → x.stash = some idx → (t.slot i).stash = some idx →
      let k := leAt m.bytes 4 4
      let off := leAt m.bytes 8 4
      byteAt m.bytes 3 = 0 → 1 ≤ k → k ≤ 4096 → 0x800 ≤ off → off % 8 = 0 → off + 8 * k ≤ spadSize - twinBase →
      k ≤ (t.freeExtents d 0).length →
      let size := fun (s : State) => match s.mbq.records.find? fun r => r.idx == idx with
        | some r => r.extents.length
        | none => 0
      let a := t.takeExtents d idx k
      let u := a.1.setRecord (some idx) fun r => { r with bytesT16 := r.bytesT16 + 65536 * k }
      let u := ((u.accountStash x.role (size t) (size u)).writeTwin d off (a.2.map (natLe 8)).flatten).1.setSlot i fun y => y.setFirst 4 d
      exec (.stashAlloc d) s = .next (s.after (u.answer m stOk 0 (natLe 4 (size u))))) ∧
    (∀ r, fn = 5 → byteAt m.bytes 3 = 0 → allZero (m.bytes.drop 16) = true → x.running = true →
      (t.mbq.records.find? fun r => some r.idx == x.stash) = some r →
      let first := leAt m.bytes 4 4
      let n := leAt m.bytes 8 4
      let off := leAt m.bytes 12 4
      1 ≤ n → n ≤ 4096 → 0x800 ≤ off → off % 8 = 0 → off + 8 * n ≤ spadSize - twinBase → first + n ≤ r.extents.length →
      let a := (r.extents.take (first + n)).foldl (fun (y : State × Bool) a =>
        ((y.1.readDev (y.1.linkAddr a) 4).1, y.2 || (y.1.readDev (y.1.linkAddr a) 4).2.bad)) (t, false)
      a.2 = false → exec (.stashMap d) s = .next (s.after
        (((a.1.writeTwin d off ((slice r.extents first n).map (natLe 8)).flatten).1.setSlot i fun y => y.setFirst 5 d).answer m stOk))) ∧
    (fn = 6 → allZero (m.bytes.drop 3) = true → x.running = true ∨ x.waiting = true →
      exec (.drop d) s = .next (s.after (((t.modSlot i fun y => { y.setFirst 6 d with status := none }).dropSlot i dcProgram).answer m stOk)))) ∧
  (∀ (s : State) (d : Fin 4) (m : HubMsg) (r : Fin 4), s.hubMsg? d unitMbq 7 = some m → byteAt m.bytes 3 = 0 → allZero (m.bytes.drop 12) = true →
    fin? 4 (byteAt m.bytes 2) = some r → s.roleUsed r = true → (s.link r .bwd).exists_ = false →
    let n := leAt m.bytes 8 4
    1 ≤ n → n ≤ 16 → n ≤ (s.freeIdx r .fwd).length →
    exec (.injectEval d) s = .next (s.after ((forEach (List.range n) (fun (s : State) k => match s.choose (s.freeIdx r .fwd) with
      | (none, s) => s
      | (some i, s) =>
        let q := s.mq r
        let e : QEntry := ⟨i, q.step, BitVec.ofNat 32 (leAt m.bytes 4 4 + k), q.step, true, true, 0, some 0, some s.mbq.clock, none⟩
        (s.modMq r fun q => { q with fq := q.fq ++ [e] }).modMbq fun m => { m with clock := m.clock + 1 }) s).answer m stOk)))

/-- A stage link sends its oldest output, and shards and sparse blocks are served. A link that is up or partial with a port left sends
every segment its next output still owes, each over the ports in turn, and remembers them as unacknowledged. A SHARD_REQ for this
rank of a live tensor is answered with the bytes of that version; for another member it is relayed to that member's port; with no
usable port it fails PORT_LOST. SHARD_DATA for a die's own gather is written at the destination and, with the last byte, answers
the die OK. A SHARD_FAIL ends that way of the asker. An SP_BLOCK within the limit is stored, and the one that completes the block
posts the semaphores; one beyond it is only logged. (R216, R219, R232, R233, R237, Table 12-4, 12_stage_machinery.md) -/
def Obligations.StageLinksShardsAndSparseBlocks : Prop :=
  (∀ (s : State) (r : Fin 4) (d : Dir) (o : Output), (s.link r d).state = lkUp ∨ (s.link r d).state = lkPartial →
    (s.linkPorts (s.link r d)).isEmpty = false → (s.link r d).nextOutput = some o →
    let u := if o.started then s else s.modLink r d fun x => { x with started := (x.started + 1) % 65536 }
    let rest := (List.range (o.segments - o.next)).map (· + o.next)
    let u := forEach o.again (fun s off => s.sendSegment r d o (off / o.seg) true) u
    let u := forEach rest (fun s i => s.sendSegment r d o i o.resend) u
    exec (.stageLinkSend r d) s = .next (s.after (u.modOutput r d (fun x => x == o) fun x =>
      { x with started := true, next := x.segments, again := [], unacked := x.unacked ++ x.again ++ rest.map (· * x.seg) }))) ∧
  (∀ (s t : State) (p : Fin 24) (m : Msg) (x : WvtEntry) (b : WvtBuf), s.takeMsg p kShardReq = some (m, t) →
    t.shardFor m.hdr.group m.payload = .here → t.liveTensor (bytesWord m.payload 0) m.hdr.wver = some x →
    (x.bufs.find? fun y => y.live m.hdr.wver) = some b →
    let a := t.readDev (b.w + leAt m.payload 8 8) (leAt m.payload 16 4)
    a.2.fail = none → a.2.bad = false →
    exec (.shardReq p) s = .next (s.after (a.1.sendShard p m.hdr.group m.hdr.wver a.2.data))) ∧
  (∀ (s t : State) (p : Fin 24) (m : Msg) (g : GroupEntry), s.takeMsg p kShardReq = some (m, t) →
    t.shardFor m.hdr.group m.payload = .away g →
    (∀ q : Fin 24, t.usablePort (g.portTo (leAt m.payload 4 2)) = some q →
      let u := t.modWvt fun w => { w with
        relays := w.relays ++ [⟨m.hdr.wver, leAt m.payload 16 4, 0, p, m.hdr.group, q, w.orders⟩], orders := w.orders + 1 }
      exec (.shardReq p) s = .next (s.after (u.send q
        ⟨{ u.groupHdr g q kShardReq 32 with wver := m.hdr.wver }, padTo 32 m.payload⟩ (.relay p)))) ∧
    (t.usablePort (g.portTo (leAt m.payload 4 2)) = none →
      exec (.shardReq p) s = .next (s.after (t.sendShardFail p m.hdr.group m.hdr.wver stPortLost)))) ∧
  (∀ (s t u : State) (p : Fin 24) (m : Msg) (d : Fin 4) (g : Gather), s.takeMsg p kShardData = some (m, t) →
    t.asker p m.hdr.wver (some m.hdr.offset) = some (.die d g) →
    t.writeDev .hub (gaDest g.msg + g.got) (m.payload.map some) = (u, none) →
    (g.got + m.payload.length < gaBytes g.msg → exec (.shardData p) s = .next (s.after
      (u.setGather d (some { g with got := g.got + m.payload.length, since := u.aon })))) ∧
    (gaBytes g.msg ≤ g.got + m.payload.length → g.path = 0 → exec (.shardData p) s = .next (s.after
      ((u.setGather d none).answer g.msg stOk 0 (natLe 1 0)))) ∧
    (gaBytes g.msg ≤ g.got + m.payload.length → g.path ≠ 0 → exec (.shardData p) s = .next (s.after
      (((u.setGather d none).modWvt fun w => { w with cfg := fsat wvtFallbacks 1 w.cfg }).answer g.msg stOk 0 (natLe 1 1))))) ∧
  (∀ (s t : State) (p : Fin 24) (m : Msg) (a : Asker), s.takeMsg p kShardFail = some (m, t) → t.asker p m.hdr.wver none = some a →
    exec (.shardFail p) s = .next (s.after (t.askerFailed a (bytesHalf m.payload 0)))) ∧
  (∀ (s t : State) (p : Fin 24) (m : Msg) (x : Fin 64 × GroupEntry) (r : Fin 4), s.takeMsg p kSpBlock = some (m, t) →
    t.activeGroup m.hdr.group = some x → fin? 4 x.2.role = some r →
    let b := vget t.sle.spbuf r
    let n := m.payload.length
    let segs := b.segs ++ [(m.hdr.offset, n)]
    let last := if m.hdr.flags.getLsbD hfLast then some (m.hdr.offset + n) else b.last
    let u := t.putHub (fget spbufHubBase b.reg * 4096 + m.hdr.offset) m.payload
    (m.hdr.offset + n ≤ fget spbufLimitKib b.reg * 1024 → last.any (coversBelow segs) = true → exec (.spBlock p) s = .next (s.after
      ((u.modSle fun y => { y with spbuf := vset y.spbuf r { b with segs := [], last := none } }).postMask (fget spbufDies b.reg) (fget spbufSem b.reg)))) ∧
    (m.hdr.offset + n ≤ fget spbufLimitKib b.reg * 1024 → last.any (coversBelow segs) = false → exec (.spBlock p) s = .next (s.after
      (u.modSle fun y => { y with spbuf := vset y.spbuf r { b with segs := segs, last := last } }))) ∧
    (fget spbufLimitKib b.reg * 1024 < m.hdr.offset + n → exec (.spBlock p) s = .next (s.after
      (t.log .hub lgSpBlock [r.1, m.hdr.offset, n]))))

/-- Slots are bound to heads of queues and freed when nothing holds them. MBQ_BIND first lets a first stage generate its entry, then
gives a free slot to the first queue head that can take one. A stashed slot whose forward output is acknowledged and whose stash
has no write waiting is freed; a finished slot whose gradient is acknowledged unpins its weight version, counts in DONE unless it
is an evaluation, and is freed; a dropped slot is freed and counted. (R221, R223, R224, R225, R230, 12_stage_machinery.md) -/
def Obligations.SlotsBindAndFree : Prop :=
  (∀ (s t u : State) (i : Fin 16),
    let g := forEach (allFin 4) State.generate s
    g.choose ((allFin 16).filter fun j => (g.slot j).state == slFree) = (some i, t) →
    (firstSome t.candidates fun c => t.tryHead i c.1 c.2.1 c.2.2) = some u →
    exec .mbqBind s = .next (s.after u)) ∧
  (∀ (s : State) (i : Fin 16), (s.slot i).acked = true → (s.slot i).state = slStashed → s.stashQuiet (s.slot i) = true →
    exec (.slotOutputAcked i) s = .next (s.after (s.freeSlot i))) ∧
  (∀ (s : State) (i : Fin 16), (s.slot i).acked = true → (s.slot i).state = slDone →
    let u := s.modWvt fun w => w.unpin (s.slot i).role (s.slot i).wver
    exec (.slotOutputAcked i) s = .next (s.after (((if (s.slot i).eval then u else
      u.modMq (s.slot i).role fun q => { q with stepStat := fsat stepDone 1 q.stepStat })).freeSlot i))) ∧
  (∀ (s : State) (i : Fin 16), (s.slot i).state = slDropped →
    exec (.slotDroppedRelease i) s = .next (s.after
      ((s.freeSlot i).countDropped (s.slot i).role (s.slot i).step (s.slot i).mb (s.slot i).eval)))

/-- The weight version table answers LOOKUP, OPEN_PENDING and GATHER. LOOKUP answers the buffer, its state and its pins, the pins
shown up to 0xFFFF, or VERSION_GONE with the entry. OPEN_PENDING opens a pending version in an empty buffer of every tensor of the
role, or answers CONFLICT where a tensor has none. GATHER of a live version asks the first member that can be reached; of a
version that is gone, it answers VERSION_GONE and drops the micro-batches that run with it. When the limit has passed since the
last byte, the next member is asked. (R231, R232, Table 12-9, Table 12-10, 12_stage_machinery.md) -/
def Obligations.WeightVersionsAnswerHubops : Prop :=
  (∀ (s : State) (d : Fin 4) (m : HubMsg), s.hubOdd? d unitWvt [1, 2, 3, 4] = none → s.hubMsg? d unitWvt 1 = some m →
    allZero (m.bytes.drop 8) = true → leAt m.bytes 2 2 < 4096 →
    (∀ (x : WvtEntry) (i : Nat) (b : WvtBuf), sget s.wvt.entries (leAt m.bytes 2 2) = some x →
      (x.bufs.findIdx? fun y => y.version == bytesWord m.bytes 4 && y.st != .empty) = some i → x.bufs[i]? = some b →
      exec (.lookup d) s = .next (s.after (s.answer m stOk 0 (natLe 1 i ++ natLe 1 b.st.code ++ natLe 2 (min b.pins 0xFFFF))))) ∧
    (sget s.wvt.entries (leAt m.bytes 2 2) = none →
      exec (.lookup d) s = .next (s.after (s.answer m stVersionGone (BitVec.ofNat 16 (leAt m.bytes 2 2)))))) ∧
  (∀ (s : State) (d : Fin 4) (m : HubMsg) (r : Fin 4), s.hubMsg? d unitWvt 2 = some m → allZero (m.bytes.drop 3) = true →
    fin? 4 (byteAt m.bytes 2) = some r → s.roleUsed r = true → (vget s.wvt.pendingVer r).isSome = false →
    ((s.wvt.entriesOf r).any (fun e => e.bufs.all fun b => b.st != .empty) = true →
      exec (.openPending d) s = .next (s.after (s.answer m stConflict (part 0 6)))) ∧
    ((s.wvt.entriesOf r).any (fun e => e.bufs.all fun b => b.st != .empty) = false →
      let n := (s.fresh 12).1
      exec (.openPending d) s = .next (s.after (((s.fresh 12).2.modWvt fun w => w.openPending r n).answer m stOk 0
        (natLe 1 (((s.wvt.entriesOf r).head?.map (·.pick n)).getD 0)))))) ∧
  (∀ (s : State) (d : Fin 4) (m : HubMsg) (x : WvtEntry) (e : GroupEntry), s.hubMsg? d unitWvt 3 = some m → s.gather? d = none →
    sget s.wvt.entries (gaEntry m) = some x → s.entry (gaTSlot m) = some e → gaDest m + gaBytes m ≤ devSize →
    e.axis = 1 → gaRank m < e.members.length → gaRank m ≠ e.rank → gaDSlot m = 0xFF ∨ (s.entry (gaDSlot m)).map (·.axis) = some 0 →
    let t := { s with hubMsgs := dropFirst (fun y => y.die == m.die && y.issue == m.issue) s.hubMsgs }
    (x.live (gaVersion m) = false → exec (.gather d) s = .next (s.after (t.gatherGone d m))) ∧
    (x.live (gaVersion m) = true → gaBytes m = 0 → exec (.gather d) s = .next (s.after (t.answer m stOk))) ∧
    (x.live (gaVersion m) = true → gaBytes m ≠ 0 → exec (.gather d) s = .next (s.after (t.gatherFrom d m x.tensorId 3 0)))) ∧
  (∀ (s : State) (d : Fin 4) (g : Gather), s.gather? d = some g → g.since + max 1 (fget wvtGatherLimit s.wvt.cfg) ≤ s.aon →
    exec (.gatherLimitExpiry d) s = .next (s.after (s.gatherFail d)))

/-- The commit vote: cast, passed on, decided, adopted and asked for. VOTE on a pending version of a role whose slot is a full chain
casts the vote and answers OK. A record of the current membership epoch goes on along the chain; a malformed one is refused. A
decision that is not held and not of an earlier step or attempt is forwarded and adopted; one that is held is discarded. At the
vote limit the anchor decides ABORT with cause MISSING and sends it. A member that has waited for a decision asks its neighbours,
and a neighbour that holds that decision sends it. (R265, R266, R267, R268, Table 14-6, Table 14-7, Table 14-8, Table 14-9,
14_failure_and_recovery.md) -/
def Obligations.CommitVotes : Prop :=
  (∀ (s : State) (d : Fin 4) (m : HubMsg) (r : Fin 4) (w : Word), s.hubMsg? d unitWvt 4 = some m → voteReserved m.bytes = false →
    fin? 4 (byteAt m.bytes 2) = some r → vget s.wvt.pendingVer r = some w →
    let a := parseVoteArgs m.bytes
    (s.rv r).holds a.step = false ∨ (s.rv r).held.map (·.commit) ≠ some true → s.voteSlotOk r a.slot = true → twinOffOk a.drec 32 32 = true →
    exec (.voteHubop d) s = .next (s.after ((s.answer m stOk).castVote r a true w).startDrains)) ∧
  (∀ (s t : State) (p : Fin 24) (m : Msg), s.takeMsg p kVote = some (m, t) → t.epochCheck m.hdr = .pass →
    (∀ (v : VoteRec) (r : Fin 4) (e : GroupEntry), parseVote m.payload = some v → t.voteRole m.hdr = some (r, e) →
      exec (.vote p) s = .next (s.after (t.voteArrive p m r e v).startDrains)) ∧
    (parseVote m.payload = none → exec (.vote p) s = .next (s.after (t.reject p m.hdr 0x06 stBadDescriptor).startDrains))) ∧
  (∀ (s t : State) (p : Fin 24) (m : Msg) (d : DecisionRec) (r : Fin 4) (e : GroupEntry), s.takeMsg p kDecision = some (m, t) →
    t.epochCheck m.hdr = .pass → parseDecision m.payload = some d → t.voteRole m.hdr = some (r, e) →
    ((∀ x, (t.rv r).held = some x → x.step ≠ d.step ∨ x.attempt < d.attempt) →
      (∀ a, (t.rv r).args = some a → 0 ≤ epochDiff d.step a.step ∧ (a.step = d.step → (t.rv r).attempt ≤ d.attempt)) →
      exec (.decision p) s = .next (s.after ((t.flood r d (some p)).takeDecision r d false).startDrains)) ∧
    (∀ x, (t.rv r).held = some x → x.step = d.step → d.attempt ≤ x.attempt →
      exec (.decision p) s = .next (s.after t.startDrains))) ∧
  (∀ (s : State) (r : Fin 4) (at_ : Nat), (s.rv r).votedAt = some at_ → isAnchor (s.voteChain r) = true →
    at_ + 1024 * max 1 (fget frCfgVoteLimit s.fr.cfg) ≤ s.aon →
    let d := s.decisionOf r (s.voteChain r) none
    d.commit = false ∧ d.cause = dcsMissing ∧
    exec (.voteLimitExpiry r) s = .next (s.after ((s.takeDecision r d true).flood r d none))) ∧
  (∀ (s : State) (r : Fin 4) (at_ : Nat) (a : VoteArgs), (s.rv r).votedAt = some at_ → (s.rv r).args = some a →
    (s.rv r).askedAt + 1024 * max 1 (fget frCfgDecideWait s.fr.cfg) ≤ s.aon →
    let t := s.modRv r fun x => { x with askedAt := s.aon }
    exec (.decideWaitExpiry r) s = .next (s.after (forEach (chainPorts (t.voteChain r)) (fun s' x => match port? x.1 with
      | some p => s'.send p ⟨{ s'.voteHdr r x.2 p kDecisionReq a.step (s.rv r).wver with length := 8 },
          natLe 4 a.step.toNat ++ natLe 1 (s.rv r).attempt ++ [0, 0, 0]⟩ (.fr r)
      | none => s') t))) ∧
  (∀ (s t : State) (p : Fin 24) (m : Msg) (r : Fin 4) (e : GroupEntry) (d : DecisionRec), s.takeMsg p kDecisionReq = some (m, t) →
    t.epochCheck m.hdr = .pass → m.payload.length = 8 → allZero (m.payload.drop 5) = true → t.voteRole m.hdr = some (r, e) →
    (t.rv r).held = some d → d.step = bytesWord m.payload 0 → d.attempt = byteAt m.payload 4 →
    exec (.decisionReq p) s = .next (s.after (t.send p ⟨t.voteHdr r e p kDecision d.step d.version, d.bytes⟩ (.fr r))))

/-- ARM, START and DISARM of a tally job. ARM of a job that is not in progress, with a descriptor that passes its checks, fills the
entry and answers OK; of one in progress it answers NOT_PERMITTED. START of a higher step of an idle job, on the unit that armed
it, when the role has finished the step, opens the step, begins it and answers OK; a START that a pending re-shard covers is held;
of a job that is not armed it answers NOT_PERMITTED. DISARM empties the entry, ending a step in progress with CANCELLED. (R238,
R239, R256, R257, Table 13-2, Table 13-4, 13_gradient_tally.md) -/
def Obligations.TallyJobsArmStartAndDisarm : Prop :=
  (∀ (s : State) (d : Fin 4) (m : HubMsg) (j : Fin 64), (firstSome [0, 1, 2, 3] fun u => s.hubOdd? d u [1, 2, 3]) = none →
    s.tlyMsg? d 1 = some m → allZero (slice m.bytes 3 5) = true → allZero (m.bytes.drop 12) = true → fin? 64 (byteAt m.bytes 2) = some j →
    (∀ (t : State) (x : TlyJob), (s.tjob j).any (·.busy) = false → s.readJob m.unit (leAt m.bytes 8 4) = (t, .ok x) →
      exec (.arm d) s = .next (s.after ((t.setTjob j (some x)).answer m stOk))) ∧
    ((s.tjob j).any (·.busy) = true → exec (.arm d) s = .next (s.after (s.answerDenied m dtState)))) ∧
  (∀ (s : State) (d : Fin 4) (m : HubMsg) (j : Fin 64), s.tlyMsg? d 2 = some m → byteAt m.bytes 3 = 0 → allZero (m.bytes.drop 12) = true →
    fin? 64 (byteAt m.bytes 2) = some j →
    (s.tjob j = none → exec (.start d) s = .next (s.after (s.answerDenied m dtState))) ∧
    (∀ (t : TlyJob) (k : Reshard), s.tjob j = some t → s.reshardHolds t (bytesWord m.bytes 4) = some k →
      exec (.start d) s = .next (s.after (({ s with hubMsgs := dropFirst (fun y => y.die == m.die && y.issue == m.issue) s.hubMsgs }).modTly
        fun x => { x with reshards := updateWhere (fun y => y.handle == k.handle) (fun y => { y with held := y.held ++ [m] }) x.reshards }))) ∧
    (∀ (t : TlyJob) (r : Fin 4), s.tjob j = some t → s.reshardHolds t (bytesWord m.bytes 4) = none → m.unit = t.unit →
      (∀ l, t.last = some l → 0 < epochDiff (bytesWord m.bytes 4) l) → s.jobRole t = some r →
      s.roleFinished r (bytesWord m.bytes 4) = true → t.busy = false →
      (∀ x, t.run = some x → x.step ≠ bytesWord m.bytes 4 ∧ x.absent = false) →
      let u := (s.modTjob j fun t => { t with last := some (bytesWord m.bytes 4) }).openRun j (bytesWord m.bytes 4) s.aon
      exec (.start d) s = .next (s.after ((((u.modTrun j fun x => { x with
        started := true, count := s.startCount t (leAt m.bytes 8 4) }).beginRun j).nextRun j).answer m stOk)))) ∧
  (∀ (s : State) (d : Fin 4) (m : HubMsg) (j : Fin 64) (t : TlyJob), s.tlyMsg? d 3 = some m → allZero (m.bytes.drop 3) = true →
    fin? 64 (byteAt m.bytes 2) = some j → s.tjob j = some t →
    (t.busy = false → exec (.disarm d) s = .next (s.after ((s.setTjob j none).answer m stOk))) ∧
    (t.busy = true → exec (.disarm d) s = .next (s.after
      ((((s.record j (some stCancelled)).log .tly 0 [j.1]).setTjob j none).answer m stOk))))

/-- Tally segments join the step they are of, and the deadline makes a member absent. A TALLY or TALLY_COPY segment of an armed job
and of its current step that has not come before is noted as seen, staged and taken as far as it can be; one seen before is
discarded; one of an earlier step is discarded; one of no armed job is refused as PERM with status NOT_PERMITTED; a malformed one
is refused. When a DEADLINE has passed since the step's first segment and the job has not started, this member takes part as
absent. (R241, R243, R250, R257, Table 13-3, 13_gradient_tally.md) -/
def Obligations.TallySegmentsAndDeadlines : Prop :=
  (let seg := fun (c : Fin 24 → List Nat → Instr) (k : Nat) (own : List Nat → List Nat) =>
    ∀ (s t : State) (p : Fin 24) (mis : List Nat) (m : Msg), s.takeMsg p k = some (m, t) → t.epochCheck m.hdr = .pass →
      let copy := m.hdr.kind == kTallyCopy
      (parseSeg copy m.payload = none → exec (c p mis) s = .next (s.after (t.reject p m.hdr 0x06 stBadDescriptor))) ∧
      (∀ g : Seg, parseSeg copy m.payload = some g →
        (t.jobFor g.job g.level m.hdr.group = none → exec (c p mis) s = .next (s.after (t.reject p m.hdr 0x0B stNotPermitted 0))) ∧
        (∀ (j : Fin 64) (r : JobRun), t.jobFor g.job g.level m.hdr.group = some j → t.trun j = some r →
          (m.hdr.step = r.step → r.seen.contains (g.key copy) = false → exec (c p mis) s = .next (s.after
            (((t.modTrun j fun r => { r with seen := r.seen ++ [g.key copy], staged := r.staged ++ [(p, m)] }).noteAttempts j g).tallyGo j (own mis)))) ∧
          (m.hdr.step = r.step → r.seen.contains (g.key copy) = true → exec (c p mis) s = .next (s.after t)) ∧
          (epochDiff m.hdr.step r.step < 0 → exec (c p mis) s = .next (s.after t))))
   seg .tally kTally (fun l => l) ∧ seg (fun p _ => .tallyCopy p) kTallyCopy (fun _ => [])) ∧
  (∀ (s : State) (p : Fin 24), s.takeMsg p kTallyCopy = none → exec (.tallyCopy p) s = .next (s.after s)) ∧
  (∀ (s : State) (p : Fin 24) (mis : List Nat), s.takeMsg p kTally = none → exec (.tally p mis) s = .next (s.after s)) ∧
  (∀ (s : State) (j : Fin 64) (t : TlyJob) (r : JobRun) (at_ : Nat), s.tjob j = some t → t.run = some r → t.desc.op = opAllreduce →
    t.desc.deadline ≠ 0 → r.started = false → r.absent = false → r.recorded = false → r.openAt = some at_ → at_ + t.desc.deadline ≤ s.aon →
    exec (.tallyDeadlineExpiry j) s = .next (s.after (s.goAbsent j)))

/-- A buddy answers PAIR, holds copies, and a pairing ends with its answer. PAIR is answered with PAIR_ACK: OK where this device holds
copies for that owner on that port and the area has room, else NOT_PERMITTED. PAIR_ACK with OK ends BUDDY_PAIR with the pairing's
state PAIRED, or OVERRIDDEN where the power feed is shared or not known and the override was given; without the override it ends
SHARED_FEED; a refusal ends NOT_PERMITTED. COPY_DATA from the owner goes to the copy's record or buffer; from another port it is
refused. The segments of COPY_DONE are joined, and with the last one the copy is completed. (R261, R262, R263, Table 14-4,
14_failure_and_recovery.md) -/
def Obligations.CopiesPairAndArrive : Prop :=
  (∀ (s t : State) (p : Fin 24) (m : Msg), s.takeMsg p kPair = some (m, t) → m.payload.length = 32 →
    allZero (slice m.payload 6 2) = true → allZero (m.payload.drop 16) = true →
    let ok := t.holdsFor p && fget holdOwner t.fr.hold == leAt m.payload 0 4 &&
      decide (byteAt m.payload 5 * leAt m.payload 8 8 ≤ t.fr.holdBytes)
    exec (.pair p) s = .next (s.after (t.sendFill p kPairAck .fill (natLe 2 (if ok then stOk else stNotPermitted).toNat ++ natLe 1 t.feed ++
      natLe 1 (fget holdSlots t.fr.hold) ++ natLe 8 t.fr.holdBytes ++ List.replicate 20 0)))) ∧
  (∀ (s t : State) (p : Fin 24) (m : Msg) (x : Pairing), s.takeMsg p kPairAck = some (m, t) → m.payload.length = 32 →
    allZero (m.payload.drop 12) = true → t.fr.pairing = some x → x.port = p →
    let feed := byteAt m.payload 2
    let shared := feed == 0 || t.feed == 0 || feed == t.feed
    let u := t.modFr fun y => { y with pairing := none }
    (bytesHalf m.payload 0 = stOk → shared = false ∨ x.override = true → exec (.pairAck p) s = .next (s.after
      ((u.modFr fun y => { y with buddy := fput buddyBuddyFeed feed (fput buddyState (if shared then 2 else 1)
        (fput buddySlots (min x.slots (byteAt m.payload 3)) y.buddy)) }).finalOkPorts x.handle [p]))) ∧
    (bytesHalf m.payload 0 = stOk → shared = true → x.override = false → exec (.pairAck p) s = .next (s.after
      ((u.modFr fun y => { y with buddy := buddyNone }).final x.handle stSharedFeed (BitVec.ofNat 16 feed)))) ∧
    (bytesHalf m.payload 0 ≠ stOk → exec (.pairAck p) s = .next (s.after
      ((u.modFr fun y => { y with buddy := buddyNone }).denied x.handle dtState)))) ∧
  (∀ (s t : State) (p : Fin 24) (m : Msg), s.takeMsg p kCopyData = some (m, t) →
    let b := m.payload
    32 ≤ b.length → allZero (slice b 24 8) = true → leAt b 20 4 = (b.drop 32).length → byteAt b 1 < 4 →
    byteAt b 3 < max 1 (fget holdSlots t.fr.hold) →
    (t.holdsFor p = true → byteAt b 0 = 1 → byteAt b 2 = 0 → exec (.copyData p) s = .next (s.after
      (t.copyRecord (byteAt b 3) (byteAt b 1) (bytesWord b 8) (leAt b 12 8) (b.drop 32)))) ∧
    (t.holdsFor p = true → byteAt b 0 = 2 → 1 ≤ byteAt b 2 → byteAt b 2 ≤ 3 → exec (.copyData p) s = .next (s.after
      (t.copyBuffer (byteAt b 3) (byteAt b 1) (byteAt b 2) (bytesWord b 4) (bytesWord b 8) (leAt b 12 8) (b.drop 32)))) ∧
    (t.holdsFor p = false → byteAt b 0 = 1 → byteAt b 2 = 0 → exec (.copyData p) s = .next (s.after
      (t.fillFail p stNotPermitted 1 (byteAt b 1) (bytesWord b 4) (bytesWord b 8))))) ∧
  (∀ (s t : State) (p : Fin 24) (m : Msg), s.takeMsg p kCopyDone = some (m, t) → t.holdsFor p = true →
    let all := if m.hdr.offset = 0 then m.payload
      else if m.hdr.offset = t.fr.copyBuf.length then t.fr.copyBuf ++ m.payload else []
    exec (.copyDone p) s = .next (s.after (if m.hdr.flags.getLsbD hfLast then (t.modFr fun x => { x with copyBuf := [] }).copyDone p all
      else t.modFr fun x => { x with copyBuf := all })))

/-- Fill requests are queued and served, and a promotion takes what comes. A FILL_REQ that is well formed joins the queue, and the
queue is served; a DIGEST_REQ joins its own. FILL_DATA that a promotion waits for, in order, is added to the record, or to the
range under way when it lies within it; a segment beyond the range makes the source failed. A FILL_FAIL from the source of a
promotion, and the fill limit, make it failed. The last segment of DIGEST_DATA gives the sections located, or shows that the
version differs. (R264, R270, R271, R272, R274, Table 14-12, 14_failure_and_recovery.md) -/
def Obligations.FillsServeAndArrive : Prop :=
  (∀ (s t : State) (p : Fin 24) (m : Msg), s.takeMsg p kFillReq = some (m, t) → m.payload.length = 32 → byteAt m.payload 3 = 0 →
    allZero (m.payload.drop 28) = true → 1 ≤ fqCls m.payload → fqCls m.payload ≤ 5 → fqRole m.payload ≤ 3 →
    (fqCls m.payload = fillBuffer ∧ 1 ≤ fqKind m.payload ∧ fqKind m.payload ≤ 3) ∨ (fqCls m.payload ≠ fillBuffer ∧ fqKind m.payload = 0) →
    exec (.fillReq p) s = .next (s.after ((t.modFr fun x => { x with fillQueue := x.fillQueue ++ [⟨p, m.payload⟩] }).serveNext
      (t.fr.fillQueue.length + 1)))) ∧
  (∀ (s t : State) (p : Fin 24) (m : Msg), s.takeMsg p kDigestReq = some (m, t) → m.payload.length = 32 → byteAt m.payload 4 < 16 →
    allZero (m.payload.drop 5) = true →
    exec (.digestReq p) s = .next (s.after ((t.modFr fun x => { x with digestQueue := x.digestQueue ++ [⟨p, m.payload⟩] }).answerDigests))) ∧
  (∀ (s t : State) (p : Fin 24) (m : Msg) (x : Promotion), s.takeMsg p kFillData = some (m, t) →
    let b := m.payload
    32 ≤ b.length → allZero (slice b 24 8) = true → byteAt b 3 = 0 → leAt b 20 4 = (b.drop 32).length →
    t.fr.promotion = some x → x.onPort p = true →
    (x.wait = .record → fqCls b = fillRecord → leAt b 12 8 = x.record.length → m.hdr.flags.getLsbD hfLast = false →
      exec (.fillData p) s = .next (s.after (t.modPromo fun y => { y with
        record := x.record ++ b.drop 32, heard := true, since := t.aon, bytes := y.bytes + (b.drop 32).length }))) ∧
    (∀ (f : FillRange) (rest : List FillRange), x.wait = .range → x.todo = f :: rest → fqCls b = f.cls → fqKind b = f.kind → fqId b = f.id →
      leAt b 12 8 = x.offset →
      (x.offset + (b.drop 32).length ≤ f.bytes → b.drop 32 ≠ [] →
        exec (.fillData p) s = .next (s.after (t.fillRangeBytes x f x.offset (b.drop 32)))) ∧
      (f.bytes < x.offset + (b.drop 32).length → exec (.fillData p) s = .next (s.after t.sourceFailed)))) ∧
  (∀ (s t : State) (p : Fin 24) (m : Msg) (x : Promotion), s.takeMsg p kFillFail = some (m, t) → m.payload.length = 32 →
    allZero (m.payload.drop 12) = true → t.fr.promotion = some x → x.wait ≠ .idle → x.onPort p = true →
    exec (.fillFail p) s = .next (s.after t.sourceFailed)) ∧
  (∀ (s : State) (x : Promotion), s.fr.promotion = some x → x.wait ≠ .idle →
    x.since + 2 ^ 14 * max 1 (fget frCfgFillLimit s.fr.cfg) ≤ s.aon → exec .fillLimitExpiry s = .next (s.after s.sourceFailed)) ∧
  (∀ (s t : State) (p : Fin 24) (m : Msg) (x : Promotion) (all : List Byte) (l : List Located), s.takeMsg p kDigestData = some (m, t) →
    t.fillFrom p .digests = some x → joined x.inbuf m = some all → m.hdr.flags.getLsbD hfLast = true → parseDigestData all = some l → l ≠ [] →
    let other := x.version != noPos && l.any fun y => y.committed != x.version
    exec (.digestData p) s = .next (s.after ((t.modPromo fun x => { x with inbuf := all, heard := true, since := t.aon }).modPromo fun x =>
      { x with located := if other then [] else l, fromCopy := other, wait := .idle, inbuf := [] })))

/-- The phases of a promotion, and the cut-over of a re-shard. A promotion in phase 1 with a source whose port carries enters phase 2
and asks for digests; from phase 2, with its sections located, it enters phase 3 and asks for the record; from phase 3 with a
record that names what can be filled it enters phase 4 and asks for its ranges; with every range filled it enters phase 5 and
compares digests, asking again for the ranges that differ; verified, it enters phase 6, takes up the position and its roles,
groups and jobs, and ends. A re-shard whose old steps have ended adopts the groups, arms the jobs, moves what the list says and
ends, or ends with the failure it meets and releases its STARTs. (R256, R270, R272, R273, R276, Table 14-16,
14_failure_and_recovery.md) -/
def Obligations.PromotionPhasesAndCutover : Prop :=
  (∀ (s : State) (p : Promotion), s.fr.promotion = some p → p.phase = 1 → p.sources.any (fun x => s.sourceUp x) = true →
    exec .promoteLocate s = .next (s.after ((s.setPhase 2).askDigests { p with phase := 2 } 0))) ∧
  (∀ (s : State) (p : Promotion), s.fr.promotion = some p → p.phase = 2 → p.wait = .idle →
    exec .promoteRecord s = .next (s.after ((s.setPhase 3).askRecord { p with phase := 3 } none))) ∧
  (∀ (s : State) (p : Promotion) (x : IdRecord), s.fr.promotion = some p → parseIdRecord p.record = some x → p.wait = .idle → p.phase = 3 →
    p.filled = [] → p.todo = [] →
    (∀ f, s.recordLacks x = some f → exec .promoteFill s = .next (s.after (s.promoEnd f.1 f.2))) ∧
    (s.recordLacks x = none → p.fromCopy = false →
      let q : Promotion := { p with phase := 4, todo := p.ranges x, offset := 0 }
      exec .promoteFill s = .next (s.after (((s.setPhase 4).modPromo fun p => { p with todo := p.ranges x, offset := 0 }).askRange q)))) ∧
  (∀ (s : State) (p : Promotion) (x : IdRecord), s.fr.promotion = some p → parseIdRecord p.record = some x → p.wait = .idle → p.todo = [] →
    p.verified = false → p.phase = 4 → p.filled.length = (p.ranges x).length →
    p.filled.all (fun f => p.matches_ x f) = true →
    exec .promoteVerify s = .next (s.after ((s.setPhase 5).modPromo fun p => { p with verified := true }))) ∧
  (∀ (s : State) (p : Promotion) (x : IdRecord), s.fr.promotion = some p → parseIdRecord p.record = some x → p.phase = 5 → p.verified = true →
    let versionOf := fun (i : Nat) (v : Word) => ((p.filled.find? fun f => f.cls == fillBuffer && f.entry == i).map (·.version)).getD v
    let held := fun (i : Nat) (b : WvtBuf) => if b.st = .committed then { b with version := versionOf i b.version } else { b with st := .empty, version := 0 }
    let u := ((s.setPhase 6).modJob fun j => { j with identity := p.position }).modMbq fun m => { m with
      area := Vector.ofFn fun d => x.areas.getD d.1 0, base := x.base }
    let u := forEach ((allFin 4).zip x.roles) (fun s y => s.rejoinRole y.1 y.2 (((p.located.find? fun l =>
      if p.fromCopy then l.role == y.1.1 else l.stage == BitVec.ofNat 16 (fget roleStage y.2.role)).map (·.step)).getD 0)) u
    let u := (u.modWvt fun w => { w with entries := x.entries.map fun e => (e.1, { e.2 with bufs := e.2.bufs.map (held e.1) }) }).rejoinGroups x.groups
    let u := (forEach x.jobs (fun s j => s.rejoinJob p j) u).modFr fun f => { f with promotion := none }
    (p.fromCopy = false → exec .promoteRejoin s = .next (s.after (u.finalOkPorts p.handle (p.sources.map (·.port))))) ∧
    (p.fromCopy = true → exec .promoteRejoin s = .next (s.after (u.final p.handle stSourceLost (BitVec.ofNat 16 p.current)
      { result := List.replicate 8 0 ++ natLe 4 (((p.located.head?).map (·.committed)).getD noPos).toNat })))) ∧
  (∀ (s : State) (r : Reshard), (s.tly.reshards.find? fun r => s.oldSteps r.slots == 0) = some r →
    (∀ f, s.adoptError r.slots = some f → exec .reshardCutover s = .next (s.after ((s.releaseStarts r).final r.handle f.1 f.2))) ∧
    (s.adoptError r.slots = none →
      (∀ e, ((s.adoptGroups r.slots).rearmed r.rearm).2 = .error e →
        exec .reshardCutover s = .next (s.after ((s.releaseStarts r).bad r.handle e))) ∧
      (∀ (jobs : List (Fin 64 × TlyJob)) (t : State), ((s.adoptGroups r.slots).rearmed r.rearm).2 = .ok jobs →
        s.doMoves (parseMoves (r.moves.length / 32) r.moves) = (t, none) →
        exec .reshardCutover s = .next (s.after
          (((forEach jobs (fun s x => s.setTjob x.1 (some x.2)) (t.adopt r.slots)).releaseStarts r).finalOk r.handle [])))))

/-- The arbiter examines its queue in arrival order and never lets two activities share a resource. MARB_ADMIT takes the queue's
requests in order of arrival. One that may not run at all is refused; one that shares no resource with a running activity or an
earlier queued request and keeps every path within its limit is admitted and its command goes on; another stays queued. Where no
two running activities shared a resource, none do afterwards. (R333, R334, R336, 19_maintenance_and_test.md) -/
def Obligations.ArbiterAdmitsInOrder : Prop :=
  (∀ s : State, exec .marbAdmit s = .next (s.after
    ((forEach s.marb.queue examineQueued (s.modMarb fun m => { m with queue := [] })).syncMarb.startReeqs))) ∧
  (∀ (s : State) (a : Activity),
    (∀ x, s.actRefusal a.kind = some x → examineQueued s a = s.refuseAct a.handle x) ∧
    (s.actRefusal a.kind = none → s.blocked a.resources (s.actBudgets a.kind) s.marb.queue ≠ none →
      examineQueued s a = s.modMarb fun m => { m with queue := m.queue ++ [a] }) ∧
    (s.actRefusal a.kind = none → s.blocked a.resources (s.actBudgets a.kind) s.marb.queue = none → a.handle = none →
      examineQueued s a = s.takeOn a)) ∧
  (∀ s : State, s.heldSets.Pairwise (fun x y => ∀ r ∈ x, r ∉ y) → (doMarbAdmit s).heldSets.Pairwise (fun x y => ∀ r ∈ x, r ∉ y))

/-- Maintenance activities end and give back what they hold. A march leaves its memory as its list says, replaces the failing columns,
releases its resources and ends OK, or, with the first failure logged, OK_DEGRADED. A scrub scrubs the stacks named and ends OK,
or STACK_LOST; a thermal calibration ends OK; a fuse read delivers the bank's bytes and their count, or its sink's failure. At a
stall budget's overrun the overrun is counted and logged; a castling is undone and takes the next rung, a retraining disables its
bundle, and a re-equalisation loses its port. (R143, R144, R146, R156, R331, R335, Table 19-1, 19_maintenance_and_test.md) -/
def Obligations.MaintenanceActivitiesEnd : Prop :=
  (∀ (s : State) (id : Nat) (fails : List MarchFail) (target : Nat) (pr co : Bool) (l : List Word) (g : BitVec 32) (bg : Quad) (h : Quad)
     (rs bs : List (Nat × Nat)), s.act? id = some ⟨id, .march target pr co l g bg, some h, rs, bs⟩ →
    let t := s.marchMemory target pr l g bg
    let cols := ((fails.map (·.columns)).flatten).eraseDups
    (∀ d, fin? 4 target = some d → firstFail fails = none → exec (.marchComplete id fails) s = .next (s.after
      (((t.modDie d fun x => x.setColumns (x.columns.repair cols)).endAct id).finalOk h [d]))) ∧
    (∀ (d : Fin 4) (f : MarchFail), fin? 4 target = some d → firstFail fails = some f →
      let u := ((t.modDie d fun x => x.setColumns (x.columns.repair cols)).endAct id).log .hub lgMarch ([target, f.element, f.op,
        if co then f.offset / 4 else f.offset, ((fails.map (·.offset)).eraseDups).length] ++ (f.columns.map fun x => [x.1, x.2]).flatten)
      exec (.marchComplete id fails) s = .next (s.after ((u.freshBytes 12).2.final h stOkDegraded (partUnit d 8) { result := (u.freshBytes 12).1 }))) ∧
    (fin? 4 target = none → firstFail fails = none → exec (.marchComplete id fails) s = .next (s.after
      (((t.modHub fun x => x.setColumns (x.columns.repair cols)).endAct id).finalOk h [])))) ∧
  (∀ (s : State) (id : Nat) (m : BitVec 8) (h : Quad) (rs bs : List (Nat × Nat)), s.act? id = some ⟨id, .scrub m, some h, rs, bs⟩ →
    let t := (forEach (allFin 8) (fun s k => if m.getLsbD k.1 then s.scrubStack k else s) s).endAct id
    let lost := firstSome (allFin 8) fun k => if m.getLsbD k.1 && t.stackGone k then some (partStack k) else none
    (∀ x, lost = some x → exec (.scrubComplete id) s = .next (s.after (t.final h stStackLost x))) ∧
    (lost = none → exec (.scrubComplete id) s = .next (s.after
      (t.finalOk h ((allFin 4).filter fun d => m.getLsbD (2 * d.1) || m.getLsbD (2 * d.1 + 1)))))) ∧
  (∀ (s : State) (id : Nat) (c : Half) (h : Quad) (rs bs : List (Nat × Nat)), s.act? id = some ⟨id, .thermal c, some h, rs, bs⟩ →
    exec (.thermalCalibrationComplete id) s = .next (s.after ((s.endAct id).finalOk h []))) ∧
  (∀ (s : State) (id bank dest : Nat) (h : Quad) (rs bs : List (Nat × Nat)),
    (s.marb.running.find? fun a => match a.kind with
      | .fuse _ _ => true
      | _ => false) = some ⟨id, .fuse bank dest, some h, rs, bs⟩ →
    let x := (s.endAct id).sink dest (Config.fuseBytes bank (s.sec.fuses.bank bank))
    (x.2 = none → exec .fuseReadComplete s = .next (s.after
      (x.1.finalOk h [] { result := natLe 4 (Config.fuseBytes bank (s.sec.fuses.bank bank)).length }))) ∧
    (∀ f, x.2 = some f → exec .fuseReadComplete s = .next (s.after (x.1.final h f.1 f.2)))) ∧
  (∀ (s : State) (id : Nat) (a : Activity), s.act? id = some a →
    let t := (s.modMarb fun m => { m with status := fsat marbOverrun 1 m.status }).log .hub lgOverrun [id]
    (∀ b lane, a.kind = .castle b lane → exec (.marbStallOverrun id) s = .next (s.after
      (((t.modBun b fun x => if x.st = bsCastling then { x.setSt x.former with cast := none } else x).ladder b lane).endBundleAct b))) ∧
    (∀ b, a.kind = .retrain b → exec (.marbStallOverrun id) s = .next (s.after ((t.disableBundle b).endBundleAct b))) ∧
    (∀ p, a.kind = .reeq p → exec (.marbStallOverrun id) s = .next (s.after (t.portLose p 9))))

/-- A per-die reset drains, may be abandoned, and rejoins. When no write of the die or homed on it waits, its drain ends: the fabric
is quiesced for the die and progress is reported. A drain that has not ended 1 ms after the start is abandoned: the die returns to
its former state and the command ends CANCELLED. After the drain the die rejoins with the bundles that trained and the stacks that
did not come back, and its command ends; a loop-back test counts the bundles that failed, up to 255. (R177, R178, R337,
09_die_fabric.md, 19_maintenance_and_test.md) -/
def Obligations.DieResetDrainsAndRejoins : Prop :=
  (∀ (s : State) (d : Fin 4) (r : DieResetRun), vget s.fab.resets d = some r → r.drained = false → s.dieBusy d = false →
    exec (.dieResetDrainEnd d) s = .next (s.after
      (((s.modFab fun f => { f with resets := vset f.resets d (some { r with drained := true }) }).quiesceDie d).actProgress r.handle stAccepted 0 0))) ∧
  (∀ (s : State) (d : Fin 4) (r : DieResetRun), vget s.fab.resets d = some r → r.drained = false → s.dieBusy d = true →
    exec (.dieResetDrainEnd d) s = .next (s.after s)) ∧
  (∀ (s : State) (d : Fin 4) (r : DieResetRun), vget s.fab.resets d = some r → r.drained = false → r.t0 + ticksPerMs ≤ s.aon →
    exec (.dieResetAbandon d) s = .next (s.after (((s.modFab fun f => { f with
      resets := vset f.resets d none
      dieState := vmod f.dieState d fun w => fput dieCause (r.former / 256) (fput dieState r.former w) }).endAct r.act).final r.handle stCancelled 0))) ∧
  (∀ (s : State) (d : Fin 4) (bad : List (Nat × Nat)) (lost : List (Fin 8)) (r : DieResetRun), vget s.fab.resets d = some r → r.drained = true →
    let failed := (bad.filter fun x => match fin? 80 x.1 with
      | some b => bundleOfDie b d
      | none => false).length
    let t := if r.test then s.modMarb fun m => { m with
      dietest := fput (d.1, d.1) 0 (fput (39 + 8 * d.1, 32 + 8 * d.1) (min failed 255) m.dietest) } else s
    let x := (t.modPwc fun p => { p with padHold := p.padHold &&& ~~~(padBits d) }).rejoinDie d bad lost
    exec (.dieResetRejoin d bad lost) s = .next (s.after ((x.1.endAct r.act).rejoinFinal r.handle [d] x.2 lost)))

/-- Host rings are enabled, ring their doorbells, fetch descriptors and are disabled by the link. A write of SQ_CFG that enables a
disabled ring of an enabled CQ resets its pointers; with its CQ disabled it records CQ_DISABLED and stays disabled. A write of
CQ_CFG that disables a ring which an enabled SQ names records CQ_IN_USE and is refused. SQ_TAIL within the size sets the tail;
beyond it the ring stops with TAIL_BEYOND_SIZE. CQ_HEAD that empties the ring clears the count of records. A fetch reads at most
16 descriptors, no more than are submitted and no more than may be outstanding; each takes its place in the ring and the next
handle, and is ACCEPTED or refused. HOST_LINK_DOWN disables every ring, empties the host filter and counts; HOST_LINK_UP follows
once the port has been brought up. (R281, R282, R283, R284, R291, R292, Table 15-8, Table 15-9, 15_host_interface.md) -/
def Obligations.HostRingsMove : Prop :=
  (∀ (s : State) (q : Fin 32) (v : Word), (s.sq q).on = false → fon sqCfgEnable v = true → 4 ≤ fget sqCfgLog2size v → fget sqCfgLog2size v ≤ 16 →
    let cfg := fput sqCfgCq (fget sqCfgCq v) (fput sqCfgLog2size (fget sqCfgLog2size v) (s.sq q).cfg)
    let t := s.modSq q fun r => { r with cfg := cfg }
    ((s.cq (t.sq q).cqOf).on = true → exec (.sqEnable q v) s = .next (s.afterStill
      (t.modSq q fun r => { r with cfg := fflag sqCfgEnable true cfg, head := 0, tail := 0, stopped := false }))) ∧
    ((s.cq (t.sq q).cqOf).on = false → exec (.sqEnable q v) s = .next (s.afterStill (t.ringError errCqDisabled q true)))) ∧
  (∀ (s : State) (q : Fin 32) (v : Word),
    let t := s.modCq q fun r => { r with cfg := fput cqCfgThresh (fget cqCfgThresh v) (fput cqCfgTimer (fget cqCfgTimer v) r.cfg) }
    ((s.cq q).on = true → fon cqCfgEnable v = false → t.cqInUse q = true →
      exec (.cqEnable q v) s = .next (s.afterStill (t.ringError errCqInUse q false))) ∧
    ((s.cq q).on = true → fon cqCfgEnable v = false → t.cqInUse q = false →
      exec (.cqEnable q v) s = .next (s.afterStill (t.modCq q fun r => { r with cfg := fflag cqCfgEnable false r.cfg }))) ∧
    ((s.cq q).on = true → fon cqCfgEnable v = true → exec (.cqEnable q v) s = .next (s.afterStill t)) ∧
    ((s.cq q).on = false → fon cqCfgEnable v = true → 4 ≤ fget cqCfgLog2size v → fget cqCfgLog2size v ≤ 16 →
      exec (.cqEnable q v) s = .next (s.afterStill (t.modCq q fun r => { r with
        cfg := fflag cqCfgEnable true (fput cqCfgVector (fget cqCfgVector v) (fput cqCfgLog2size (fget cqCfgLog2size v) r.cfg))
        head := 0, tail := 0, phase := true, r := 0, first := none })))) ∧
  (∀ (s : State) (q : Fin 32) (v : Half), (s.sq q).on = true → (s.sq q).stopped = false →
    (v.toNat < (s.sq q).size → exec (.sqTail q v) s = .next (s.afterStill (s.modSq q fun r => { r with tail := v.toNat }))) ∧
    ((s.sq q).size ≤ v.toNat → exec (.sqTail q v) s = .next (s.afterStill
      ((s.modSq q fun r => { r with stopped := true }).ringError errTail q true)))) ∧
  (∀ (s : State) (q : Fin 32) (v : Half), (s.cq q).on = true → v.toNat < (s.cq q).size →
    exec (.cqHead q v) s = .next (s.afterStill (s.modCq q fun r =>
      if v.toNat = r.tail then { r with head := v.toNat, r := 0, first := none } else { r with head := v.toNat }))) ∧
  (∀ (s : State) (q : Fin 32) (batch : List HostData), (s.sq q).on = true → (s.sq q).stopped = false → s.host.linkUp = true →
    let r := s.sq q
    let n := min (min ((r.tail + r.size - r.head) % r.size) 16) (1024 - s.host.cmds.length)
    exec (.descriptorFetch q batch) s = .next (s.afterStill (forEach (batch.take n) (fun s x => s.fetchOne q x) s))) ∧
  (∀ (s : State) (q : Fin 32) (bs : List Byte),
    let r := s.sq q
    let h := BitVec.ofNat 64 (q.1 * 2 ^ 48 + r.seq.toNat)
    let c : Command := ⟨h, r.cqOf, BitVec.ofNat 512 (leNat (padTo 64 bs)), .accepted, s.host.orders, s.aon, 0, 0⟩
    let t := s.modSq q fun r => { r with head := (r.head + 1) % r.size, seq := BitVec.ofNat 64 ((r.seq.toNat + 1) % 2 ^ 48) }
    (decodeBad c = none → s.fetchOne q (some bs) =
      (t.pushRecord r.cqOf ⟨h, stAccepted, 0, 0, 0, 0, padTo 12 (natLe 1 c.opc), false, false, false⟩).modHost fun p =>
        { p with cmds := p.cmds ++ [c], orders := p.orders + 1 }) ∧
    (∀ d, decodeBad c = some d → s.fetchOne q (some bs) =
      t.pushRecord r.cqOf ⟨h, stBadDescriptor, d, 0, 0, 0, padTo 12 [], true, c.urgent, false⟩)) ∧
  (∀ s : State, s.host.linkUp = true →
    let t := s.modHost fun h => { h with
      linkUp := false, memErr := fsat memErrLinkDown 1 h.memErr
      sqs := vmap h.sqs fun _ r => { r with cfg := fflag sqCfgEnable false r.cfg }
      cqs := vmap h.cqs fun _ r => { r with cfg := fflag cqCfgEnable false r.cfg } }
    let t := t.modFab fun f => { f with hostFilter := [], pendingWrites := f.pendingWrites.map fun w => { w with needBi := false } }
    exec .hostLinkDown s = .next (s.after
      ((forEach ((s.fab.pendingWrites.map (·.line)).eraseDups) (fun s l => s.release l) t).emit (.report rpHostLinkDown [])))) ∧
  (∀ s : State, s.boot.xUp = true → s.pwc.state ≤ 1 → s.pwc.oeDark.getLsbD 6 = false →
    exec .hostLinkUp s = .next (s.afterStill (s.modHost fun h => { h with linkUp := true })))

/-- Records are written in order with their phase, counted and announced. The oldest record that waits for an enabled CQ with room is
written at CQ_TAIL with the ring's PHASE, which inverts as the tail wraps; a final record ends its command; the CQ's vector is
sent when the count reaches THRESH or the record is the final one of an URGENT descriptor, unless THRESH is 0. With a quarter of
the ring or less free, a progress record is skipped; with no room, records wait. When TIMER has passed since the first record
counted, the vector is sent. A long command's progress record is due 2^20 ticks after its last. (R285, R289, R290, R291, Table
15-15, 15_host_interface.md) -/
def Obligations.RecordsAndInterrupts : Prop :=
  (∀ (s : State) (q : Fin 32) (x : HostRecord) (rest : List HostRecord), (s.cq q).held = x :: rest → (s.cq q).on = true → s.host.linkUp = true →
    let r := s.cq q
    let room := r.size - (r.tail + r.size - r.head) % r.size
    (x.progress = true → 4 * room ≤ r.size → exec (.completionRecordWrite q) s = .next (s.afterStill
      (s.modCq q fun r => { r with held := rest }))) ∧
    (x.progress = false ∨ r.size < 4 * room → (r.tail + 1) % r.size ≠ r.head →
      let t := (s.modCq q fun r => { r with held := rest }).emit (.hostWrite (r.base.toNat + 32 * r.tail) (x.bytes r.phase))
      let t := t.modCq q fun y => { y with
        tail := if r.tail + 1 = r.size then 0 else r.tail + 1, phase := if r.tail + 1 = r.size then !r.phase else r.phase
        r := r.r + 1, first := if r.first.isNone then some s.aon else r.first }
      let t := if x.final then t.modHost fun p => { p with cmds := p.cmds.filter fun c => c.handle != x.handle } else t
      let thresh := fget cqCfgThresh r.cfg
      exec (.completionRecordWrite q) s = .next (s.afterStill
        (if thresh ≠ 0 ∧ (thresh ≤ r.r + 1 ∨ (x.final = true ∧ x.urgent = true)) then t.interrupt q else t))) ∧
    (x.progress = false → (r.tail + 1) % r.size = r.head → exec (.completionRecordWrite q) s = .next (s.afterStill s))) ∧
  (∀ (s : State) (q : Fin 32) (f : Nat), (s.cq q).first = some f → (s.cq q).on = true → fget cqCfgThresh (s.cq q).cfg ≠ 0 →
    fget cqCfgTimer (s.cq q).cfg ≠ 0 → (s.cq q).r ≠ 0 → f + 25 * fget cqCfgTimer (s.cq q).cfg ≤ s.aon →
    exec (.cqInterruptTimer q) s = .next (s.afterStill
      ((s.emit (.msix (fget cqCfgVector (s.cq q).cfg))).modCq q fun r => { r with r := 0, first := none }))) ∧
  (∀ (s : State) (h : Quad) (c : Command), s.cmd? h = some c → isLong c.opc = true → c.tick + 2 ^ 20 ≤ s.aon →
    (c.st = .queued → c.opc ∉ [0x32, 0x33, 0x34, 0x35] →
      exec (.progressRecordTimer h) s = .next (s.afterStill (s.actProgress h stQueued 0 c.total))) ∧
    (c.st = .running → c.opc ∉ [0x32, 0x33, 0x34, 0x35] →
      exec (.progressRecordTimer h) s = .next (s.afterStill (s.unitsProgress h stAccepted c.total))) ∧
    (∀ p : Promotion, c.st = .running → c.opc = 0x32 ∨ c.opc = 0x33 → s.fr.promotion = some p → p.handle = h →
      exec (.progressRecordTimer h) s = .next (s.afterStill (s.progress h p.status p.failure p.result))) ∧
    (∀ r : Reshard, c.st = .running → c.opc = 0x35 → (s.tly.reshards.find? fun r => r.handle == h) = some r →
      exec (.progressRecordTimer h) s = .next (s.afterStill (s.reshardProgress r))))

/-- NOP, CANCEL, PORT_RELEASE, LOAD_PROGRAM, RUN_PROGRAM and SET_IDENTITY. A command starts when every earlier command of its ring has
started, with FENCE when every one is final, and, if it sets up, when every earlier set-up command is final. NOP ends OK. CANCEL
ends its target, if it can be cancelled, and ends OK, else NOT_PERMITTED. PORT_RELEASE of a quarantined port clears its weight and
trains it. LOAD_PROGRAM of a sound image writes it at the base on each die, measures it and ends with its size. RUN_PROGRAM leaves
IDLE and waits for its dies. SET_IDENTITY of a device with no role and no group sets the position. (R125, R126, R203, R206, R286,
R288, Table 15-11, 15_host_interface.md, 06_sequencer_and_programs.md) -/
def Obligations.CommandsOfProgramsAndIdentity : Prop :=
  (∀ (s : State) (h : Quad) (c : Command), s.begins h 0x00 = some c → exec (.cmdNop h) s = .next (s.afterStill ((s.running h).finalOk h []))) ∧
  (∀ (s : State) (h : Quad) (c t : Command), s.begins h 0x01 = some c → (s.running h).cmd? (BitVec.ofNat 64 (c.arg 8 8)) = some t →
    (∀ u, (s.running h).cancelTarget t = some u → exec (.cancel h) s = .next (s.after (u.finalOk h []))) ∧
    ((s.running h).cancelTarget t = none → exec (.cancel h) s = .next (s.after ((s.running h).denied h dtState)))) ∧
  (∀ (s : State) (h : Quad) (c : Command) (p : Fin 24), s.begins h 0x02 = some c → port? (c.arg 8 1) = some p →
    let t := s.running h
    (t.portState p ≠ pstQuarantined → exec (.portRelease h) s = .next (s.after (t.denied h dtState))) ∧
    (t.portState p = pstQuarantined → exec (.portRelease h) s = .next (s.after (((t.modPort p fun x => { x with
      weight := ⟨t.weightWin, 0⟩, vlogStat := fput vlogWindowWeight 0 x.vlogStat
      status := fput pstState pstTraining x.status }).trainPort p).finalOkPorts h [p])))) ∧
  (∀ (s t : State) (h : Quad) (src : HostData) (c : Command) (b : List Byte), s.begins h 0x10 = some c →
    let ds := maskDies (c.arg 16 1)
    let base := c.arg 20 4
    let n := c.arg 24 4
    ds ≠ [] → base % 256 = 0 → 256 ≤ n → (ds.any fun d => ((s.running h).imagesOn d).any fun x => rangesMeet base n x.1 x.2) = false →
    (firstSome ds fun d => (s.running h).twinStatus d) = none → (s.running h).source (c.arg 8 8) n src = (t, .ok b) →
    base + n ≤ spadSize → rangesMeet base n twinBase 2048 = false → imageBad b n = none →
    exec (.loadProgram h src) s = .next (s.after (((forEach ds (fun s d => s.modDie d fun y => (y.write 0 base (b.map some)).1) t).measureImage b
      (c.arg 16 1) base).finalOk h ds { result := slice b 16 4 }))) ∧
  (∀ (s : State) (h : Quad) (c : Command), s.begins h 0x11 = some c →
    let ds := maskDies (c.arg 8 1)
    let base := fun (d : Fin 4) => c.arg (16 + 4 * d.1) 4
    ds ≠ [] → (∀ d ∈ ds, base d % 256 = 0 ∧ base d + 256 ≤ spadSize) →
    ((∀ d ∈ ds, (s.running h).dieServes d = true ∨ (s.running h).dieFenced d = true) →
      let t := (s.running h).modPwc fun x => { x with state := if x.state = 1 then 0 else x.state }
      exec (.runProgram h) s = .next (s.after (t.modHost fun x => { x with runs := x.runs ++ [⟨h, BitVec.ofNat 128 (c.arg 32 16), c.order,
        Vector.ofFn fun d => DieRun.new (base d) (if ds.contains d then .waiting else .unnamed), 0, none⟩] }))) ∧
    (∀ d ∈ ds, (s.running h).dieServes d = false → (s.running h).dieFenced d = false →
      exec (.runProgram h) s = .next (s.after ((s.running h).denied h dtState)))) ∧
  (∀ (s : State) (h : Quad) (c : Command), s.begins h 0x20 = some c → c.arg 8 4 ≠ 0xFFFFFFFF →
    let t := s.running h
    let set := (allFin 4).any (fun r => t.roleUsed r) || (allFin 64).any fun i => (t.grp i).active.isSome || (t.grp i).staged.isSome
    (set = false → exec (.setIdentity h) s = .next (s.after ((t.modJob fun j => { j with identity := BitVec.ofNat 32 (c.arg 8 4) }).finalOk h []))) ∧
    (set = true → exec (.setIdentity h) s = .next (s.after (t.denied h dtState))))

/-- Roles, weight versions and groups are installed, adopted and removed. ROLE_INSTALL of a block that passes its checks installs the
role and its forwarding entries; ROLE_REMOVE of a role with no running slot frees it. WVT_INSTALL over entries that no slot pins
replaces them. GROUP_INSTALL of an entry that does not fall behind the active one stages it; GROUP_REMOVE of an active entry that
no job uses empties the slot. GROUP_ADOPT of staged entries that fit, under no running job whose layout they raise, makes them
active; each ends OK, or with what refuses it. (R208, R209, R210, R215, R236, Table 11-4, Table 12-2,
11_job_mapping_and_groups.md, 12_stage_machinery.md) -/
def Obligations.InstallsAndRemovals : Prop :=
  (∀ (s t : State) (h : Quad) (src : HostData) (c : Command) (r : Fin 4) (b : List Byte), s.begins h 0x21 = some c → c.arg 9 1 % 2 = 0 →
    fin? 4 (c.arg 8 1) = some r → (s.running h).source (c.arg 16 8) 256 src = (t, .ok b) →
    (t.roleRefused r b (parseRoleBlock b) = none → exec (.roleInstall h src) s = .next (s.after
      (((t.installRole r (parseRoleBlock b)).loadForwarding (parseForwarding (slice b 80 16) t.aon)).finalOk h []))) ∧
    (∀ x, t.roleRefused r b (parseRoleBlock b) = some x → exec (.roleInstall h src) s = .next (s.after (t.final h x.1 x.2)))) ∧
  (∀ (s : State) (h : Quad) (src : HostData) (c : Command) (r : Fin 4), s.begins h 0x21 = some c → c.arg 9 1 % 2 = 1 →
    fin? 4 (c.arg 8 1) = some r → (s.running h).roleUsed r = true →
    ((s.running h).mbq.slots.toList.any fun x => x.running && x.role == r) = false →
    (c.arg 16 8 = 0 → exec (.roleRemove h src) s = .next (s.after (((s.running h).removeRole r).finalOk h []))) ∧
    (∀ (t : State) (b : List Byte), c.arg 16 8 ≠ 0 → (s.running h).source (c.arg 16 8 + 80) 16 src = (t, .ok b) → forwardingReserved b = false →
      exec (.roleRemove h src) s = .next (s.after (((t.removeRole r).loadForwarding (parseForwarding b t.aon)).finalOk h [])))) ∧
  (∀ (s t : State) (h : Quad) (src : HostData) (c : Command) (b : List Byte) (l : List WvtEntry), s.begins h 0x22 = some c →
    let first := c.arg 8 2
    let n := c.arg 10 2
    n ≠ 0 → first + n ≤ 4096 →
    ((s.running h).wvt.entries.any fun x => first ≤ x.1 && x.1 < first + n && x.2.bufs.any (fun b => b.pins != 0)) = false →
    (s.running h).source (c.arg 16 8) (128 * n) src = (t, .ok b) → parseWvtTable n b = .ok l →
    exec (.wvtInstall h src) s = .next (s.after ((t.modWvt fun w => { w with
      entries := ((List.range n).zip l).foldl (fun es x => sput es (first + x.1) x.2) w.entries }).finalOk h []))) ∧
  (∀ (s t u : State) (h : Quad) (src : HostData) (c : Command) (i : Fin 64) (b w : List Byte) (e : GroupEntry), s.begins h 0x23 = some c →
    c.arg 9 1 % 2 = 0 → fin? 64 (c.arg 8 1) = some i → (s.running h).source (c.arg 16 8) 64 src = (t, .ok b) →
    groupReserved b = false → membersAllowed (leAt b 16 2) = true → t.source (c.arg 16 8) (64 + 8 * leAt b 16 2) src = (u, .ok w) →
    parseGroup w = some e → u.installBad i e = false →
    (∀ a, (u.grp i).active = some a → epochDiff e.layout a.layout < 0 ∨ epochDiff e.memb a.memb < 0 →
      exec (.groupInstall h src) s = .next (s.after (u.denied h dtEpoch))) ∧
    ((u.grp i).active = none → exec (.groupInstall h src) s = .next (s.after (((u.modJob fun j => { j with
      groups := vmod j.groups i fun x => { x with staged := some e } }).refreshGroups).finalOk h [])))) ∧
  (∀ (s : State) (h : Quad) (c : Command) (i : Fin 64), s.begins h 0x23 = some c → c.arg 9 1 % 2 = 1 → fin? 64 (c.arg 8 1) = some i →
    (((s.running h).grp i).active ≠ none → (s.running h).jobOn i = false → exec (.groupRemove h) s = .next (s.after
      ((((s.running h).modJob fun j => { j with groups := vmod j.groups i fun x => { x with active := none } }).refreshGroups).finalOk h []))) ∧
    (((s.running h).grp i).active = none ∨ (s.running h).jobOn i = true →
      exec (.groupRemove h) s = .next (s.after ((s.running h).denied h dtState)))) ∧
  (∀ (s : State) (h : Quad) (c : Command), s.begins h 0x24 = some c →
    let t := s.running h
    let m := BitVec.ofNat 64 (c.arg 8 8)
    (∀ x, t.adoptError m = some x → exec (.groupAdopt h) s = .next (s.after (t.final h x.1 x.2))) ∧
    (t.adoptError m = none → (t.layoutRises m).any (fun i => t.jobRuns i) = false →
      exec (.groupAdopt h) s = .next (s.after ((t.adopt m).finalOk h []))) ∧
    (t.adoptError m = none → (t.layoutRises m).any (fun i => t.jobRuns i) = true →
      exec (.groupAdopt h) s = .next (s.after (t.denied h dtRunning))))

/-- BUDDY_PAIR, HOLD_COPY, PROMOTE, FILL, CHECKPOINT_DRAIN and RESHARD. BUDDY_PAIR of a usable port records the buddy, forgets the
copies and sends PAIR; with the port lost it ends PORT_LOST. HOLD_COPY of an area in stack memory records the owner and the area.
PROMOTE of a device with no role and no group takes the position, expects the sources and trains their ports; FILL keeps the
position; of a device that is in the way they are refused. CHECKPOINT_DRAIN to a sink delivers the record and the buffers of each
role and ends with the version and the digest. RESHARD of staged slots that no other re-shard names waits for its cut-over. (R256,
R261, R262, R263, R270, R276, Table 15-11, Table 15-14, 14_failure_and_recovery.md, 15_host_interface.md) -/
def Obligations.RecoveryCommandsStart : Prop :=
  (∀ (s : State) (h : Quad) (c : Command) (p : Fin 24), s.begins h 0x30 = some c → port? (c.arg 12 1) = some p →
    let s' := s.running h
    let pos := BitVec.ofNat 32 (c.arg 8 4)
    let n := c.arg 14 1
    let t := s'.modFr fun x => { x with buddy := fput buddyBuddyPos pos.toNat (fput buddyPort p.1 (fput buddySlots n 0)) }
    pos ≠ 0 → pos ≠ noPos → 1 ≤ n → n ≤ 2 → clashing (t.otherBindings ++ t.groupBindings) = false → s'.fr.pairing = none →
    let u := (t.setExpects [(p.1, pos)]).modFr fun x => { x with
      pairing := some ⟨h, p, n, nbit (c.arg 13 1) 0⟩, copies := Vector.replicate 4 [], copy := Vector.replicate 4 0xFFFFFFFFFFFFFFFF#64 }
    (u.portOut p.1 = false → exec (.buddyPair h) s = .next (s.after (u.sendFill p kPair .fill (natLe 4 s'.job.identity.toNat ++ natLe 1 s'.feed ++
      natLe 1 n ++ [0, 0] ++ natLe 8 s'.carried ++ List.replicate 16 0)))) ∧
    (u.portOut p.1 = true → exec (.buddyPair h) s = .next (s.after
      ((u.modFr fun x => { x with pairing := none, buddy := buddyNone }).final h stPortLost (partPort p))))) ∧
  (∀ (s : State) (h : Quad) (c : Command) (p : Fin 24), s.begins h 0x31 = some c → port? (c.arg 12 1) = some p →
    let owner := BitVec.ofNat 32 (c.arg 8 4)
    let n := c.arg 13 1
    let t := (s.running h).modFr fun x => { x with
      hold := fput holdOwner owner.toNat (fput holdPort p.1 (fput holdSlots n (fput holdState 1 (fflag holdMismatch (fon holdMismatch x.hold) 0))))
      holdArea := c.arg 16 8 % 2 ^ 40, holdBytes := c.arg 24 8, slots := [], copyBuf := [] }
    owner ≠ 0 → owner ≠ noPos → 1 ≤ n → n ≤ 2 → clashing (t.otherBindings ++ t.groupBindings) = false → nbit (c.arg 16 8) 63 = true →
    c.arg 16 8 % 2 ^ 40 + c.arg 24 8 ≤ devSize →
    exec (.holdCopy h) s = .next (s.after ((t.setExpects [(p.1, owner)]).finalOkPorts h [p]))) ∧
  (∀ (s t : State) (h : Quad) (src : HostData) (c : Command) (b : List Byte) (l : List Source) (bs : List (Nat × Word)), s.begins h 0x32 = some c →
    let s' := s.running h
    s'.fr.promotion = none → ((allFin 4).any fun r => s'.roleUsed r) = false →
    ((allFin 64).any fun i => (s'.grp i).active.isSome || (s'.grp i).staged.isSome) = false →
    s'.source (c.arg 16 8) 256 src = (t, .ok b) → parseSources b = some l → parseBindings b = some bs →
    let pos := BitVec.ofNat 32 (c.arg 8 4)
    let named := bs ++ l.map fun x => (x.port.1, x.pos)
    sourcesOdd b = false → (named.any fun x => (port? x.1).isNone) = false → l ≠ [] → pos ≠ noPos → clashing (named ++ t.otherBindings) = false →
    let p : Promotion :=
      { handle := h, isFill := false, phase := 1, position := pos, former := t.job.identity, version := noPos, sources := l
        current := 0, wait := .idle, inbuf := [], located := [], fromCopy := false, verified := false, record := [], todo := []
        filled := [], offset := 0, bytes := 0, since := t.aon, heard := false, failure := 0 }
    let u := (t.modJob fun j => { j with identity := pos }).setExpects named
    let u := forEach ((allFin 24).filter fun q => named.any fun x => x.1 == q.1) (fun s q => s.promoTrain q) u
    exec (.promote h src) s = .next (s.after ((u.modFr fun x => { x with promotion := some p }).promoProgress))) ∧
  (∀ (s t : State) (h : Quad) (src : HostData) (c : Command) (b : List Byte) (l : List Source), s.begins h 0x33 = some c →
    let s' := s.running h
    s'.fr.promotion = none → ((allFin 4).any fun d => (s'.die d).seq.prog.isSome) = false →
    s'.source (c.arg 16 8) 64 src = (t, .ok b) → parseSources b = some l → sourcesOdd b = false → l ≠ [] →
    let p : Promotion :=
      { handle := h, isFill := true, phase := 1, position := t.job.identity, former := t.job.identity
        version := BitVec.ofNat 32 (c.arg 8 4), sources := l, current := 0, wait := .idle, inbuf := [], located := [], fromCopy := false
        verified := false, record := [], todo := [], filled := [], offset := 0, bytes := 0, since := t.aon, heard := false, failure := 0 }
    exec (.fill h src) s = .next (s.after (t.modFr fun x => { x with promotion := some p }))) ∧
  (∀ (s : State) (h : Quad) (src : HostData) (c : Command), s.begins h 0x33 = some c → (s.running h).fr.promotion ≠ none →
    exec (.fill h src) s = .next (s.after ((s.running h).denied h dtState))) ∧
  (∀ (s : State) (h : Quad) (c : Command), s.begins h 0x34 = some c →
    let s' := s.running h
    let roles := (allFin 4).filter fun r => nbit (c.arg 8 1) r.1
    c.arg 8 1 ≠ 0 → c.arg 8 1 < 16 → (∀ r ∈ roles, s'.roleUsed r = true) →
    (c.arg 9 1 = 0 →
      let record := s'.idRecord.bytes
      let a := roles.foldl (fun (a : State × List Byte × Nat) r =>
        let x := a.1.readRole r (a.1.wvt.committed r)
        (x.1, a.2.1 ++ record ++ x.2.flatMap (·.data), a.2.2 + digest 5 0 record + (x.2.map (·.digest)).sum)) (s', [], 0)
      let w := a.1.sink (c.arg 24 8) a.2.1
      (∀ x, w.2 = some x → exec (.checkpointDrain h) s = .next (s.after (w.1.final h x.1 x.2))) ∧
      (w.2 = none → exec (.checkpointDrain h) s = .next (s.after (w.1.finalOk h []
        { result := natLe 4 ((roles.getLast?.map w.1.wvt.committed).getD 0).toNat ++ natLe 8 (a.2.2 % 2 ^ 64) })))) ∧
    (∀ p : Fin 24, c.arg 9 1 = 1 → port? (c.arg 16 1) = some p → s'.seen p = BitVec.ofNat 32 (c.arg 12 4) →
      (s'.carries p = false → exec (.checkpointDrain h) s = .next (s.after (s'.final h stPortLost (partPort p)))) ∧
      (s'.carries p = true → exec (.checkpointDrain h) s = .next (s.after (forEach roles (fun s r =>
        (s.readRole r (s.wvt.committed r)).1.beginDrain r (s.wvt.committed r) p 0 false (some h) s'.idRecord.bytes
          (s.readRole r (s.wvt.committed r)).2) s'))))) ∧
  (∀ (s t u : State) (h : Quad) (rearm moves : HostData) (c : Command) (rb mb : List Byte), s.begins h 0x35 = some c →
    let m := BitVec.ofNat 64 (c.arg 8 8)
    let nr := c.arg 32 4
    let nm := c.arg 36 4
    (s.running h).adoptError m = none → ((s.running h).tly.reshards.any fun r => (r.slots &&& m) != 0) = false → nr ≤ 64 →
    (s.running h).source (c.arg 16 8) (8 * nr) rearm = (t, .ok rb) → t.source (c.arg 24 8) (32 * nm) moves = (u, .ok mb) →
    ((List.range nr).any fun i => !allZero (slice rb (8 * i + 2) 2)) = false → movesReserved nm mb = false →
    ((List.range nr).any fun i => decide (4 ≤ byteAt rb (8 * i)) || decide (64 ≤ byteAt rb (8 * i + 1))) = false →
    ((parseMoves nm mb).any fun x => !u.moveOk x) = false →
    exec (.reshard h rearm moves) s = .next (s.after ((u.modTly fun k => { k with
      reshards := k.reshards ++ [⟨h, m, rb, mb, []⟩] }).reshardProgress ⟨h, m, rb, mb, []⟩)))

/-- Maintenance commands become requests of the arbiter. MARCH with a sound list, SCRUB of a mask, each CALIBRATE of a bundle, a
castling of a lane, a port or a zone, FUSE_READ of a bank and DIE_RESET of a die are requests of the arbiter. A request with a
path beyond its limit, or that cannot wait, ends CONFLICT; one that may not run ends NOT_PERMITTED; one that shares nothing is
admitted; another is queued, up to 64 of them. (R144, R156, R166, R167, R178, R194, R326, R331, R333, R334, R336, Table 15-11) -/
def Obligations.MaintenanceCommandsAskTheArbiter : Prop :=
  (let asks := fun (c : Quad → Instr) (opc : Nat) (kind : Command → Option ActKind) =>
    ∀ (s : State) (h : Quad) (cmd : Command) (k : ActKind), s.begins h opc = some cmd → kind cmd = some k →
      exec (c h) s = .next (s.after ((s.running h).requestAct (some h) cmd.noqueue k))
   asks .scrub 0x41 (fun c => if c.arg 8 1 = 0 then none else some (.scrub (BitVec.ofNat 8 (c.arg 8 1)))) ∧
   asks .calibrateBundleRetrain 0x42 (fun c => if c.arg 8 1 = 0 then (bundleOf (c.arg 10 2)).map .retrain else none) ∧
   asks .calibrateCastling 0x42 (fun c => if c.arg 8 1 = 1 ∧ c.arg 12 1 < 66 then (bundleOf (c.arg 10 2)).map (.castle · (c.arg 12 1)) else none) ∧
   asks .calibrateThermal 0x42 (fun c => if c.arg 8 1 = 3 ∧ zoneCode (c.arg 10 2) = true then some (.thermal (BitVec.ofNat 16 (c.arg 10 2))) else none) ∧
   asks .fuseRead 0x43 (fun c => if c.arg 8 1 ≤ 5 then some (.fuse (c.arg 8 1) (c.arg 16 8)) else none) ∧
   asks .dieReset 0x44 (fun c => (fin? 4 (c.arg 8 1)).map .dieReset)) ∧
  (∀ (s : State) (h : Quad) (c : Command) (p : Fin 24), s.begins h 0x42 = some c → c.arg 8 1 = 2 → portOf (c.arg 10 2) = some p →
    exec (.calibrateOpticalReeq h) s = .next (s.after (((s.running h).requestAct (some h) c.noqueue (.reeq p)).startReeqs))) ∧
  (∀ (s : State) (h : Quad) (src : HostData) (c : Command) (l : List Word), s.begins h 0x40 = some c → marchArgsBad c = false →
    ¬(c.arg 8 1 = 4 ∧ (BitVec.ofNat 32 (c.arg 12 4)).getLsbD 23 = true) →
    let bg := if nbit (c.arg 9 1) 1 then c.arg 16 4 * (2 ^ 32 + 1) else c.arg 16 8
    (c.arg 10 1 = 1 ∧ l = marchMats) ∨ (c.arg 10 1 = 2 ∧ l = marchC) ∨ (c.arg 10 1 = 3 ∧ l = marchSs) →
    l.any elemBad = false → marchPortB (c.arg 8 1) (BitVec.ofNat 32 (c.arg 12 4)) l = false →
    exec (.march h src) s = .next (s.after ((s.running h).requestAct (some h) c.noqueue (.march (c.arg 8 1) (nbit (c.arg 9 1) 0) (nbit (c.arg 9 1) 1) l
      (BitVec.ofNat 32 (c.arg 12 4)) (BitVec.ofNat 64 bg))))) ∧
  (∀ (s : State) (h : Quad) (noqueue : Bool) (k : ActKind),
    (∀ x, s.actRefusal k = some x → s.requestAct (some h) noqueue k = s.final h stNotPermitted x) ∧
    (∀ x, s.actRefusal k = none → s.overPath (s.actBudgets k) (fun _ => 0) = some x → s.requestAct (some h) noqueue k = s.conflict (some h) x) ∧
    (s.actRefusal k = none → s.overPath (s.actBudgets k) (fun _ => 0) = none →
      let a : Activity := ⟨s.marb.nextId, k, some h, actResources k, s.actBudgets k⟩
      let t := s.modMarb fun m => { m with nextId := m.nextId + 1 }
      (t.blocked (actResources k) (s.actBudgets k) t.marb.queue = none → s.requestAct (some h) noqueue k = t.takeOn a) ∧
      (∀ x, t.blocked (actResources k) (s.actBudgets k) t.marb.queue = some x → 64 ≤ t.marb.queue.length →
        s.requestAct (some h) noqueue k = t.conflict (some h) (BitVec.ofNat 16 codeMarb)) ∧
      (∀ x, t.blocked (actResources k) (s.actBudgets k) t.marb.queue = some x → t.marb.queue.length < 64 → noqueue = true →
        s.requestAct (some h) noqueue k = t.conflict (some h) x) ∧
      (∀ x, t.blocked (actResources k) (s.actBudgets k) t.marb.queue = some x → t.marb.queue.length < 64 → noqueue = false →
        (s.requestAct (some h) noqueue k).marb.queue = t.marb.queue ++ [a])))

/-- POWER, ATTEST and LIFECYCLE, tamper events and the end of a vault wipe. A POWER command that nothing refuses waits for its
transition with its dies, WATCH ending first; a program, a role, maintenance, an identity, a fence or the AON fallback refuses it
as Table 17-1 says. ATTEST delivers the quote to its sink. LIFECYCLE on a transition of Table 18-2 that no program and no count
forbids checks the authorisation and then starts the wipe of the vault; where there is no such transition it is refused. A tamper
event is recorded and, in a live device, starts a wipe. A wipe that leaves a bad word is repeated, three times in all; its end
stops the device or ends the life-cycle change. (R308, R309, R310, R319, R321, R322, R323, R327, R329, R142, Table 18-2, Table
18-4) -/
def Obligations.PowerAndSecurityCommands : Prop :=
  (let waits := fun (c : Quad → Instr) (k : Nat) (ok : List (Fin 4) → State → Option Half) (f : State → Quad → State) =>
    ∀ (s : State) (h : Quad) (cmd : Command), s.begins h 0x50 = some cmd → cmd.arg 8 1 = k → s.pwc.cmd = none →
      (ok (maskDies (cmd.arg 9 1)) (s.running h) = none → exec (c h) s = .next (s.afterStill (f ((s.running h).modPwc fun p => { p with
        cmd := some h, cmdFail := none, cmdDies := BitVec.ofNat 4 (cmd.arg 9 1) }) h))) ∧
      (∀ x, ok (maskDies (cmd.arg 9 1)) (s.running h) = some x → exec (c h) s = .next (s.afterStill ((s.running h).denied h x)))
   waits .powerActive 0 (fun ds s => if ds.any fun d => s.dieFenced d || s.dieSt d == dsExcluded then some dtState else none) (fun s _ => s) ∧
   waits .powerIdle 1 (fun _ s => if s.anyProgram then some dtRunning else none) (fun s _ => s) ∧
   waits .powerDieOff 2 (fun ds s => if ds.any s.programOn then some dtRunning
     else if ds.any fun d => s.roleNames d || s.dieHeld d then some dtState else none) (fun s _ => s) ∧
   waits .powerWatch 3 (fun _ s => if s.anyProgram then some dtRunning
     else if s.job.identity ≠ 0 ∨ fon clkFaultAonFallback s.pwc.clkFault then some dtState else none) (fun s h => s.finalOk h [])) ∧
  (∀ (s : State) (h : Quad) (c : Command), s.begins h 0x51 = some c →
    let x := (s.running h).sink (c.arg 24 8) ((s.running h).quote (c.arg 8 16))
    (x.2 = none → exec (.attest h) s = .next (s.afterStill (x.1.finalOk h []))) ∧
    (∀ f, x.2 = some f → exec (.attest h) s = .next (s.afterStill (x.1.final h f.1 f.2)))) ∧
  (∀ (s : State) (h : Quad) (src : HostData) (c : Command), s.begins h 0x52 = some c → s.sec.wipe = none →
    let u := s.running h
    (lifeSigners u.sec.fuses.lifeState (c.arg 8 1) = none → exec (.lifecycle h src) s = .next (s.afterStill (u.denied h dtLifeCycle))) ∧
    (∀ (signers : List Nat) (t : State) (b : List Byte), lifeSigners u.sec.fuses.lifeState (c.arg 8 1) = some signers → u.anyProgram = false →
      ¬(u.sec.fuses.lifeState = 4 ∧ c.arg 8 1 = 3 ∧ 3 ≤ u.sec.fuses.rmaCount) → u.source (c.arg 16 8) manifestBytes src = (t, .ok b) →
      exec (.lifecycle h src) s = .next (s.afterStill (match t.authFault b (c.arg 8 1) with
        | some x => t.bad h (0x100#16 + BitVec.ofNat 16 x)
        | none => if t.authFits b (c.arg 8 1) signers then
            (t.modSec fun x => { x with lifecycle := some (h, c.arg 8 1, slice b 0xD00 256), wipe := some (1, 1) })
          else t.denied h dtLifeCycle)))) ∧
  (∀ (s : State) (light voltage clock : Bool) (x : Nat), s.tamperSensor light voltage clock = some x →
    let t := (s.recordTamper x).modSec fun y => { y with lifecycle := none, fuseHeld := false }
    (t.boot.pwrOk = true → t.live = true → exec (.tamperEvent light voltage clock) s = .next (s.afterStill
      (t.modSec fun y => { y with wipe := some (1, 0) }))) ∧
    (t.boot.pwrOk = true → t.live = false → exec (.tamperEvent light voltage clock) s = .next (s.afterStill t.tamperStop)) ∧
    (t.boot.pwrOk = false → exec (.tamperEvent light voltage clock) s = .next (s.afterStill t))) ∧
  (∀ (s : State) (pass why w : Nat), s.sec.wipe = some (pass, why) →
    let t := s.modHub HubMem.wipeVault
    (pass < 3 → exec (.vaultWipeComplete (some w)) s = .next (s.afterStill (t.modSec fun x => { x with wipe := some (pass + 1, why) }))) ∧
    (3 ≤ pass →
      let u := (t.modSec fun x => { x with wipe := none, vaultHeld := true, status := fput secWipeFail 1 x.status }).log .sec lgWipe [0, w]
      exec (.vaultWipeComplete (some w)) s = .next (s.afterStill (if why = 0 then u.tamperStop else u.lifeDone false))) ∧
    ((s.marb.running.any fun a => a.resources.contains (codeSec, 0)) = false →
      let u := (t.modSec fun x => { x with wipe := none }).log .sec lgWipe [1]
      exec (.vaultWipeComplete none) s = .next (s.afterStill (if why = 0 then u.tamperStop else u.lifeDone true))))

/-- Reads and writes of registers in BAR0. An access that is not 4 or 8 bytes, aligned and within BAR0, answers Unsupported and
changes nothing else. A read that covers bit 0 of a register gives its value, keeps a snapshot of a wide one for that agent and
clears its RC fields; a read of another part of a wide register with a snapshot gives that snapshot's part and clears nothing; the
upper half of a 32-bit register and an offset that names no register read 0. A write of an offset that names no register changes
nothing; a write to a die out of service is dropped and counted. A write of BUDGET clears PER_MB_MAX and decides the withheld
credits again. An agent that cannot reach the device has no effect. (R341, R344, R345, R347, R346, R2,
21_register_and_strap_reference.md) -/
def Obligations.RegisterAccesses : Prop :=
  (let reads := fun (c : Agent → Nat → Nat → Instr) =>
    ∀ (s : State) (a : Agent) (off size : Nat),
      (s.reaches a = false → exec (c a off size) s = .next (s.afterStill s)) ∧
      (s.reaches a = true → accessOk off size = false → exec (c a off size) s = .next (s.afterStill (s.emit (.unsupported a)))) ∧
      (s.reaches a = true → accessOk off size = true →
        (∀ r, regAt off = some (r, 0) → exec (c a off size) s = .next (s.afterStill
          (((s.keepSnap a r (s.regValue r)).regClear r).emit (.registerData a (BitVec.ofNat 64 (s.regValue r % 2 ^ (8 * size))))))) ∧
        (∀ r i x, regAt off = some (r, i) → i ≠ 0 → r.bytes ≠ 4 → ((s.snaps a).find? fun y => y.off == r.addr) = some x →
          exec (c a off size) s = .next (s.afterStill
            (s.emit (.registerData a (BitVec.ofNat 64 (x.val.toNat / 2 ^ (8 * i) % 2 ^ (8 * size))))))) ∧
        (∀ r i, regAt off = some (r, i) → i ≠ 0 → r.bytes = 4 → exec (c a off size) s = .next (s.afterStill (s.emit (.registerData a 0)))) ∧
        (regAt off = none → off < cxlBlock → exec (c a off size) s = .next (s.afterStill (s.emit (.registerData a 0)))))
   reads .rcRegisterRead ∧ reads .wideRegisterRead) ∧
  (∀ (s : State) (a : Agent) (off size : Nat) (v : Quad),
    (s.reaches a = false → exec (.registerWrite a off size v) s = .next (s.after s)) ∧
    (s.reaches a = true → accessOk off size = false → exec (.registerWrite a off size v) s = .next (s.after (s.emit (.unsupported a)))) ∧
    (s.reaches a = true → accessOk off size = true → regAt off = none → exec (.registerWrite a off size v) s = .next (s.after s)) ∧
    (∀ r i, s.reaches a = true → accessOk off size = true → regAt off = some (r, i) →
      let m := BitVec.ofNat 64 ((2 ^ (8 * size) - 1) * 2 ^ (8 * i))
      exec (.registerWrite a off size v) s = .next (s.after (s.regWrite a r m (v <<< (8 * i)))) ∧
      (∀ d k, r = .die d k → s.blockOut d = true →
        s.regWrite a r m (v <<< (8 * i)) = s.modHost fun h => { h with memErr := fsat memErrRegDropped 1 h.memErr }))) ∧
  (∀ (s : State) (r : Fin 4) (v : Quad), exec (.stashBudgetWrite r v) s = .next (s.after
    ((s.modMq r fun q => { q with stashCfg := v, stashMb := fput stashMbPerMbMax 0 q.stashMb }).regrant r)))

/-- Debug requests over MP are served only while debug is honoured. While debug access is not honoured, or the management port is not
up, a request changes nothing. While it is, halting a core, inspecting it, reading or writing a register or a byte of a memory and
blowing fuses have their effect; an access outside every memory faults, and a scan of a die, whose effect the spec does not give,
is refused. (R330, 18_security_and_life_cycle.md) -/
def Obligations.DebugRequestsNeedDebugOpen : Prop :=
  (∀ (s : State) (r : DebugRequest), s.debugOpen = false → exec (.mpDebugRequest r) s = .next (s.after s)) ∧
  (∀ s : State, s.debugOpen = true →
    (∀ c : Fin 4, exec (.mpDebugRequest (.halt c)) s = .next (s.after (s.modSec fun x => { x with debugHalt := x.debugHalt ||| BitVec.twoPow 4 c.1 }))) ∧
    (∀ c : Fin 4, exec (.mpDebugRequest (.stepCore c)) s = .next (s.after s)) ∧
    (∀ c : Fin 4, exec (.mpDebugRequest (.inspect c)) s = .next (s.after ((s.fresh (2 ^ 64)).2.emit (.debugData [(s.fresh (2 ^ 64)).1])))) ∧
    (∀ off r i, regAt off = some (r, i) → exec (.mpDebugRequest (.readRegister off)) s = .next (s.after
      ((s.regRead .mcp r i).2.emit (.debugData [(s.regRead .mcp r i).1 % 2 ^ 64])))) ∧
    (∀ off r v, regAt off = some (r, 0) → exec (.mpDebugRequest (.writeRegister off v)) s = .next (s.after
      (s.regWrite .mcp r (BitVec.allOnes 64) v))) ∧
    (∀ off, regAt off = none → exec (.mpDebugRequest (.readRegister off)) s = .next (s.after (s.emit (.debugData [0])))) ∧
    (∀ off v, (∀ r, regAt off ≠ some (r, 0)) → exec (.mpDebugRequest (.writeRegister off v)) s = .next (s.after s)) ∧
    (∀ m a, siteHas m a = true → exec (.mpDebugRequest (.readMemory m a)) s = .next (s.after (s.debugRead m a))) ∧
    (∀ m a b, siteHas m a = true → exec (.mpDebugRequest (.writeMemory m a b)) s = .next (s.after (s.debugWrite m a b))) ∧
    (∀ m a, siteHas m a = false → exec (.mpDebugRequest (.readMemory m a)) s = .fault .noSuchAddress) ∧
    (∀ m a b, siteHas m a = false → exec (.mpDebugRequest (.writeMemory m a b)) s = .fault .noSuchAddress) ∧
    (∀ d, exec (.mpDebugRequest (.scan d)) s = .refused .scanChain) ∧
    (∀ bank addr data, exec (.mpDebugRequest (.blowFuses bank addr data)) s = .next (s.after
      (s.modSec fun x => { x with fuses := x.fuses.blow bank addr data }))))

/-- Every T16 encoding has the value of its table, and a zero is written with F = 0. With exponent E and fraction F, an encoding with
E = 0 is a zero of its sign; with E from 1 to 254 it is (128 + F) times 2 to the power E − 134; with E = 255 it is an infinity for
F = 0, a NaN with tag F for F up to 0x7E, and the canonical NaN for 0x7F. Whatever is encoded, in every rounding mode, a result
with E = 0 has F = 0. (R23) -/
def Obligations.T16EncodingsHaveTheirValues : Prop :=
  (∀ S E F : Nat, S < 2 → F < 128 →
    (E = 0 → decT16 (S * 2 ^ 15 + E * 2 ^ 7 + F) = .zero (S == 1)) ∧
    (1 ≤ E → E ≤ 0xFE → decT16 (S * 2 ^ 15 + E * 2 ^ 7 + F) = .fin (S == 1) (128 + F) ((E : Int) - 134) false) ∧
    (E = 0xFF → F = 0 → decT16 (S * 2 ^ 15 + E * 2 ^ 7 + F) = .inf (S == 1)) ∧
    (E = 0xFF → 1 ≤ F → F ≤ 0x7E → decT16 (S * 2 ^ 15 + E * 2 ^ 7 + F) = .nan (S == 1) F) ∧
    (E = 0xFF → F = 0x7F → decT16 (S * 2 ^ 15 + E * 2 ^ 7 + F) = .nan (S == 1) 0x7F)) ∧
  (∀ (rm : Rm) (sat : Bool) (u : Nat) (v : Val), (∀ s t, v = .nan s t → t ≤ 0x7F) →
    nbits (encT16 rm sat u v).1 14 7 = 0 → (encT16 rm sat u v).1 % 128 = 0)

/-- Encoding into an integer format rounds, clamps and flags. For I8, U8, I4 and U4, in every rounding mode: a finite value rounds to
an integer by the mode and is clamped to the range, with OVERFLOW if it lay outside; an infinity becomes the end of the range of
its sign with INVALID, a NaN becomes 0 with INVALID, a zero 0. SAT and non-SAT forms agree. An integer is encoded exactly but for
the clamp, and what an integer in the range is encoded as decodes to it. (R41) -/
def Obligations.IntegersRoundAndClamp : Prop :=
  ∀ (f w : Nat) (signed : Bool), (f, w, signed) ∈ [(4, 8, true), (5, 8, false), (6, 4, true), (7, 4, false)] →
    let lo : Int := if signed then -2 ^ (w - 1) else 0
    let hi : Int := if signed then 2 ^ (w - 1) - 1 else 2 ^ w - 1
    let code := fun (n : Int) => (n % 2 ^ w).toNat
    ∀ (rm : Rm) (sat : Bool) (u : Nat),
      (∀ s m e st,
        let n : Int := if s then -(roundMag rm u m e st 0 : Int) else (roundMag rm u m e st 0 : Int)
        (n < lo → encPlain f rm sat u (.fin s m e st) = (code lo, flOverflow)) ∧
        (hi < n → encPlain f rm sat u (.fin s m e st) = (code hi, flOverflow)) ∧
        (lo ≤ n → n ≤ hi → encPlain f rm sat u (.fin s m e st) = (code n, 0))) ∧
      (∀ s, encPlain f rm sat u (.zero s) = (0, 0)) ∧
      (∀ s, encPlain f rm sat u (.inf s) = (code (if s then lo else hi), flInvalid)) ∧
      (∀ s t, encPlain f rm sat u (.nan s t) = (0, flInvalid)) ∧
      (∀ v, encPlain f rm true u v = encPlain f rm false u v) ∧
      (∀ n : Int, lo ≤ n → n ≤ hi → encPlain f rm sat u (ofInt n 0) = (code n, 0) ∧ decInt w signed (code n) = ofInt n 0) ∧
      (∀ n : Int, hi < n → encPlain f rm sat u (ofInt n 0) = (code hi, flOverflow)) ∧
      (∀ n : Int, n < lo → encPlain f rm sat u (ofInt n 0) = (code lo, flOverflow))

/-- Zero sums are +0, and products and quotients of zeros take the usual sign. A sum of two zeros is −0 when both are −0 and +0 when
their signs differ; an exact zero sum of finite values of opposite sign is +0, and is written as +0 in every rounding mode in T16
and W32. A product with a zero, and a quotient of a zero by a finite value or an infinity, is a zero whose sign is negative where
the operands' signs differ. (R26) -/
def Obligations.ZeroSumsAndSigns : Prop :=
  (∀ s, addV (.zero s) (.zero !s) = (.zero false, 0)) ∧ addV (.zero true) (.zero true) = (.zero true, 0) ∧
  (∀ s m e m' e', 0 < m → 0 < m' → shl m (e - min e e') = shl m' (e' - min e e') →
    addV (.fin s m e false) (.fin (!s) m' e' false) = (.zero false, 0)) ∧
  (∀ rm sat u s, encT16 rm sat u (.zero s) = (if s then 0x8000 else 0, 0) ∧ encW32 rm sat u (.zero s) = (if s then 0x80000000 else 0, 0)) ∧
  (∀ s s', mulV (.zero s) (.zero s') = (.zero (s != s'), 0)) ∧
  (∀ s s' m e st, mulV (.zero s) (.fin s' m e st) = (.zero (s != s'), 0) ∧ mulV (.fin s' m e st) (.zero s) = (.zero (s' != s), 0) ∧
    divV (.zero s) (.fin s' m e st) = (.zero (s != s'), 0)) ∧
  (∀ s s', divV (.zero s) (.inf s') = (.zero (s != s'), 0))

/-- The register map gives every byte of a register's slot to that register, and no other byte to any. Every byte of a register's slot
(8 bytes, or the width of a wider register) is that register's at its place, and every offset that the map answers lies in the
slot of the register it names: the addresses and the map agree, and no two registers share a byte. (Table 21-1, Table 21-2, R344,
R345, 21_register_and_strap_reference.md) -/
def Obligations.RegisterMapIsExact : Prop :=
  (∀ (r : Reg) (i : Nat), i < max 8 r.bytes → regAt (r.addr + i) = some (r, i)) ∧
  (∀ (off : Nat) (r : Reg) (i : Nat), regAt off = some (r, i) → off = r.addr + i ∧ i < max 8 r.bytes)
end

