-- ==== Sys2Proof/Laws/Bytes.lean ====
section
/-!
SUPPORT. Bytes and numbers: writing a number as bytes and reading it back, and the CRC of a flit that is sent.
-/
namespace Sys2Proof.Machine

/-- Reading back what was written little-endian (spec 00 R1). -/
theorem leNat_natLe (n x : Nat) (h : x < 256 ^ n) : leNat (natLe n x) = x := by
  induction n generalizing x with
  | zero => simp at h; simp [natLe, leNat, h]
  | succ n ih =>
    have hx : x / 256 < 256 ^ n := by
      rw [Nat.div_lt_iff_lt_mul (by decide)]; rwa [Nat.pow_succ] at h
    simp only [natLe, leNat, ih _ hx, BitVec.toNat_ofNat]
    omega

theorem natLe_length (n x : Nat) : (natLe n x).length = n := by
  induction n generalizing x with
  | zero => rfl
  | succ n ih => simp [natLe, ih]

/-- What a port sends has a good CRC (R183). -/
theorem flitGood_flitBytes (h : FlitHead) (body : List Byte) : flitGood (flitBytes h body) = true := by
  have hl : (h.bytes ++ padTo 244 body).length = 252 := by
    simp only [FlitHead.bytes, List.length_append, natLe_length, padTo, List.length_take, List.length_replicate]; omega
  have hw := (crc32c (h.bytes ++ padTo 244 body)).isLt
  simp only [flitGood, flitBytes, leAt, slice]
  rw [List.drop_left' hl, List.take_left' hl, List.take_of_length_le (by simp [natLe_length])]
  rw [leNat_natLe _ _ (by simpa using hw)]
  rw [List.length_append] at hl
  simp [natLe_length]
  omega

end Sys2Proof.Machine
end

