-- ==== Sys2Proof/Laws/Memory.lean ====
section
/-!
SUPPORT. The canonical form of a memory: every operation that changes one keeps it, a read after a write gives the byte written, and a
write leaves every other byte alone.
-/
namespace Sys2Proof.Machine

/-! ## Sparse lists -/

theorem rising_iff_pairwise {α : Type} (l : List (Nat × α)) : rising l = true ↔ l.Pairwise fun a b => a.1 < b.1 := by
  induction l with
  | nil => simp [rising]
  | cons a t ih =>
    cases t with
    | nil => simp [rising]
    | cons b r =>
      simp only [rising, Bool.and_eq_true, decide_eq_true_eq, ih, List.pairwise_cons]
      constructor
      · rintro ⟨hab, hb, hr⟩
        refine ⟨fun x hx => ?_, hb, hr⟩
        rcases List.mem_cons.1 hx with rfl | hx
        · exact hab
        · exact Nat.lt_trans hab (hb x hx)
      · rintro ⟨ha, hb, hr⟩
        exact ⟨ha b (by simp), hb, hr⟩

theorem mem_sput {α : Type} {l : List (Nat × α)} {i : Nat} {x : α} {c : Nat × α} (h : c ∈ sput l i x) :
    c = (i, x) ∨ (c ∈ l ∧ c.1 ≠ i) ∨ c ∈ l := by
  induction l with
  | nil => simp [sput] at h; exact .inl h
  | cons a t ih =>
    obtain ⟨k, v⟩ := a
    simp only [sput] at h
    split at h
    · rcases List.mem_cons.1 h with h | h
      · exact .inl h
      · exact .inr (.inr (List.mem_cons_of_mem _ h))
    · split at h
      · rcases List.mem_cons.1 h with h | h
        · exact .inl h
        · exact .inr (.inr h)
      · rcases List.mem_cons.1 h with h | h
        · exact .inr (.inr (by simp [h]))
        · rcases ih h with h | h | h
          · exact .inl h
          · exact .inr (.inr (List.mem_cons_of_mem _ h.1))
          · exact .inr (.inr (List.mem_cons_of_mem _ h))

theorem mem_sdel {α : Type} {l : List (Nat × α)} {i : Nat} {c : Nat × α} (h : c ∈ sdel l i) : c ∈ l := by
  induction l with
  | nil => simp [sdel] at h
  | cons a t ih =>
    obtain ⟨k, v⟩ := a
    simp only [sdel] at h
    split at h
    · exact List.mem_cons_of_mem _ h
    · split at h
      · exact h
      · rcases List.mem_cons.1 h with h | h
        · simp [h]
        · exact List.mem_cons_of_mem _ (ih h)

theorem rising_sput {α : Type} {l : List (Nat × α)} (i : Nat) (x : α) (h : rising l = true) : rising (sput l i x) = true := by
  rw [rising_iff_pairwise] at *
  induction l with
  | nil => simp [sput]
  | cons a t ih =>
    obtain ⟨k, v⟩ := a
    rw [List.pairwise_cons] at h
    simp only [sput]
    split
    · rename_i hk
      rw [List.pairwise_cons]
      exact ⟨fun c hc => by simpa [hk] using h.1 c hc, h.2⟩
    · split
      · rename_i hk hlt
        rw [List.pairwise_cons, List.pairwise_cons]
        refine ⟨fun c hc => ?_, h⟩
        rcases List.mem_cons.1 hc with rfl | hc
        · exact hlt
        · exact Nat.lt_trans hlt (h.1 c hc)
      · rename_i hk hlt
        rw [List.pairwise_cons]
        refine ⟨fun c hc => ?_, ih h.2⟩
        rcases mem_sput hc with rfl | hc | hc
        · show k < i
          omega
        · exact h.1 c hc.1
        · exact h.1 c hc

theorem rising_sdel {α : Type} {l : List (Nat × α)} (i : Nat) (h : rising l = true) : rising (sdel l i) = true := by
  rw [rising_iff_pairwise] at *
  induction l with
  | nil => simp [sdel]
  | cons a t ih =>
    obtain ⟨k, v⟩ := a
    rw [List.pairwise_cons] at h
    simp only [sdel]
    split
    · exact h.2
    · split
      · exact List.pairwise_cons.2 h
      · exact List.pairwise_cons.2 ⟨fun c hc => h.1 c (mem_sdel hc), ih h.2⟩

theorem rising_filter {α : Type} {l : List (Nat × α)} (p : Nat × α → Bool) (h : rising l = true) : rising (l.filter p) = true := by
  rw [rising_iff_pairwise] at *
  exact h.filter p

theorem sget_sput_self {α : Type} (l : List (Nat × α)) (i : Nat) (x : α) : sget (sput l i x) i = some x := by
  induction l with
  | nil => simp [sput, sget]
  | cons a t ih =>
    obtain ⟨k, v⟩ := a
    simp only [sput]
    split
    · simp [sget]
    · split
      · simp [sget]
      · rename_i hk hlt
        simp [sget, hk, hlt, ih]

theorem sget_sput_ne {α : Type} (l : List (Nat × α)) {i j : Nat} (x : α) (h : i ≠ j) : sget (sput l i x) j = sget l j := by
  induction l with
  | nil =>
    simp only [sput, sget]
    split
    · omega
    · split <;> rfl
  | cons a t ih =>
    obtain ⟨k, v⟩ := a
    simp only [sput]
    split
    · rename_i hk
      subst hk
      simp [sget, h]
    · split
      · rename_i hk hlt
        by_cases hj : j < i
        · have hk' : ¬ j = k := by omega
          have hk'' : ¬ k = j := by omega
          have hl : j < k := by omega
          simp [sget, h, hj, hk'', hl]
        · simp [sget, h, hj]
      · simp only [sget, ih]

theorem sget_none_of_lt {α : Type} {l : List (Nat × α)} {j : Nat} (h : ∀ c ∈ l, j < c.1) : sget l j = none := by
  cases l with
  | nil => rfl
  | cons a t =>
    obtain ⟨k, v⟩ := a
    have := h (k, v) (by simp)
    simp only at this
    have hk : ¬ k = j := by omega
    simp [sget, hk, this]

theorem sget_sdel_self {α : Type} {l : List (Nat × α)} (i : Nat) (h : rising l = true) : sget (sdel l i) i = none := by
  rw [rising_iff_pairwise] at h
  induction l with
  | nil => rfl
  | cons a t ih =>
    obtain ⟨k, v⟩ := a
    rw [List.pairwise_cons] at h
    simp only [sdel]
    split
    · rename_i hk
      exact sget_none_of_lt fun c hc => by simpa [hk] using h.1 c hc
    · split
      · rename_i hk hlt
        simp [sget, hk, hlt]
      · rename_i hk hlt
        simp [sget, hk, hlt, ih h.2]

theorem sget_sdel_ne {α : Type} {l : List (Nat × α)} {i j : Nat} (h : i ≠ j) (hr : rising l = true) : sget (sdel l i) j = sget l j := by
  rw [rising_iff_pairwise] at hr
  induction l with
  | nil => rfl
  | cons a t ih =>
    obtain ⟨k, v⟩ := a
    rw [List.pairwise_cons] at hr
    simp only [sdel]
    split
    · rename_i hk
      subst hk
      simp only [sget, h, if_false]
      split
      · rename_i hlt
        exact sget_none_of_lt fun c hc => Nat.lt_trans hlt (hr.1 c hc)
      · rfl
    · split
      · rfl
      · simp only [sget, ih hr.2]

/-! ## Memories -/

theorem Ram.wf_iff (r : Ram) : r.wf = true ↔
    rising r.bytes = true ∧ (∀ c ∈ r.bytes, c.2 ≠ unlistedByte) ∧ rising r.marks = true := by
  simp [Ram.wf, and_assoc]

/-- A write of one byte keeps the canonical form. -/
theorem Ram.wf_wr {r : Ram} (a : Nat) (b : Byte) (h : r.wf = true) : (r.wr a b).wf = true := by
  rw [Ram.wf_iff] at *
  unfold Ram.wr sset
  split
  · exact ⟨rising_sdel a h.1, fun c hc => h.2.1 c (mem_sdel hc), h.2.2⟩
  · rename_i hb
    refine ⟨rising_sput a b h.1, fun c hc => ?_, h.2.2⟩
    rcases mem_sput hc with rfl | hc | hc
    · exact hb
    · exact h.2.1 c hc.1
    · exact h.2.1 c hc

/-- A write of several bytes keeps the canonical form. -/
theorem Ram.wf_wrs {r : Ram} (a : Nat) (l : List Byte) (h : r.wf = true) : (r.wrs a l).wf = true := by
  induction l generalizing r a with
  | nil => exact h
  | cons b t ih => exact ih (a + 1) (Ram.wf_wr a b h)

/-- Setting or clearing a mark keeps the canonical form. -/
theorem Ram.wf_setMark {r : Ram} (u : Nat) (m : Option Mark) (h : r.wf = true) : (r.setMark u m).wf = true := by
  rw [Ram.wf_iff] at *
  unfold Ram.setMark
  cases m with
  | none => exact ⟨h.1, h.2.1, rising_sdel u h.2.2⟩
  | some x => exact ⟨h.1, h.2.1, rising_sput u x h.2.2⟩

/-- Noting a corrected codeword keeps the canonical form. -/
theorem Ram.wf_see {r : Ram} (u : Nat) (h : r.wf = true) : (r.see u).wf = true := by
  unfold Ram.see
  split
  · exact Ram.wf_setMark _ _ h
  · exact h

/-- Removing entries keeps the canonical form. -/
theorem Ram.wf_filter {r : Ram} (p : Host.Cell → Bool) (q : Nat × Mark → Bool) (h : r.wf = true) :
    (Ram.mk (r.bytes.filter p) (r.marks.filter q)).wf = true := by
  rw [Ram.wf_iff] at *
  exact ⟨rising_filter p h.1, fun c hc => h.2.1 c (List.mem_filter.1 hc).1, rising_filter q h.2.2⟩

/-- The memory of zeros is canonical. -/
theorem Ram.wf_zero : Ram.zero.wf = true := by decide

/-- A read after a write to the same address gives the byte written. -/
theorem Ram.rd_wr_self {r : Ram} (a : Nat) (b : Byte) (h : r.wf = true) : (r.wr a b).rd a = b := by
  rw [Ram.wf_iff] at h
  unfold Ram.rd Ram.wr sset
  split
  · rename_i hb
    simp [sget_sdel_self a h.1, hb]
  · simp [sget_sput_self]

/-- A write leaves every other byte alone. -/
theorem Ram.rd_wr_ne {r : Ram} {a c : Nat} (b : Byte) (hac : a ≠ c) (h : r.wf = true) : (r.wr a b).rd c = r.rd c := by
  rw [Ram.wf_iff] at h
  unfold Ram.rd Ram.wr sset
  split
  · simp [sget_sdel_ne hac h.1]
  · simp [sget_sput_ne _ _ hac]

/-- A write of bytes leaves every byte outside them alone. -/
theorem Ram.rd_wrs_outside {r : Ram} {a c : Nat} (l : List Byte) (hc : c < a ∨ a + l.length ≤ c) (h : r.wf = true) :
    (r.wrs a l).rd c = r.rd c := by
  induction l generalizing r a with
  | nil => rfl
  | cons b t ih =>
    simp only [List.length_cons] at hc
    rw [Ram.wrs, ih (by omega) (Ram.wf_wr a b h), Ram.rd_wr_ne b (by omega) h]

end Sys2Proof.Machine
end

