-- ==== Sys2Proof/Laws/State.lean ====
section
/-!
SUPPORT. What each named update of the state does to each field, so that no proof unfolds a record update.
-/
namespace Sys2Proof.Machine

@[simp] theorem State.modDie_pending (s : State) (d : Fin 4) (f : Die → Die) : (s.modDie d f).pending = s.pending := rfl
@[simp] theorem State.modDie_free (s : State) (d : Fin 4) (f : Die → Die) : (s.modDie d f).free = s.free := rfl
@[simp] theorem State.modDie_aon (s : State) (d : Fin 4) (f : Die → Die) : (s.modDie d f).aon = s.aon := rfl
@[simp] theorem State.modDie_dies (s : State) (d : Fin 4) (f : Die → Die) : (s.modDie d f).dies = vmod s.dies d f := rfl
@[simp] theorem State.modDie_stks (s : State) (d : Fin 4) (f : Die → Die) : (s.modDie d f).stks = s.stks := rfl
@[simp] theorem State.modDie_regionMode (s : State) (d : Fin 4) (f : Die → Die) : (s.modDie d f).regionMode = s.regionMode := rfl
@[simp] theorem State.modDie_hub (s : State) (d : Fin 4) (f : Die → Die) : (s.modDie d f).hub = s.hub := rfl
@[simp] theorem State.modDie_fab (s : State) (d : Fin 4) (f : Die → Die) : (s.modDie d f).fab = s.fab := rfl
@[simp] theorem State.modDie_ports (s : State) (d : Fin 4) (f : Die → Die) : (s.modDie d f).ports = s.ports := rfl
@[simp] theorem State.modDie_job (s : State) (d : Fin 4) (f : Die → Die) : (s.modDie d f).job = s.job := rfl
@[simp] theorem State.modDie_sle (s : State) (d : Fin 4) (f : Die → Die) : (s.modDie d f).sle = s.sle := rfl
@[simp] theorem State.modDie_mbq (s : State) (d : Fin 4) (f : Die → Die) : (s.modDie d f).mbq = s.mbq := rfl
@[simp] theorem State.modDie_wvt (s : State) (d : Fin 4) (f : Die → Die) : (s.modDie d f).wvt = s.wvt := rfl
@[simp] theorem State.modDie_tly (s : State) (d : Fin 4) (f : Die → Die) : (s.modDie d f).tly = s.tly := rfl
@[simp] theorem State.modDie_fr (s : State) (d : Fin 4) (f : Die → Die) : (s.modDie d f).fr = s.fr := rfl
@[simp] theorem State.modDie_host (s : State) (d : Fin 4) (f : Die → Die) : (s.modDie d f).host = s.host := rfl
@[simp] theorem State.modDie_boot (s : State) (d : Fin 4) (f : Die → Die) : (s.modDie d f).boot = s.boot := rfl
@[simp] theorem State.modDie_pwc (s : State) (d : Fin 4) (f : Die → Die) : (s.modDie d f).pwc = s.pwc := rfl
@[simp] theorem State.modDie_sec (s : State) (d : Fin 4) (f : Die → Die) : (s.modDie d f).sec = s.sec := rfl
@[simp] theorem State.modDie_marb (s : State) (d : Fin 4) (f : Die → Die) : (s.modDie d f).marb = s.marb := rfl
@[simp] theorem State.modDie_snapCfg (s : State) (d : Fin 4) (f : Die → Die) : (s.modDie d f).snapCfg = s.snapCfg := rfl
@[simp] theorem State.modDie_snapHost (s : State) (d : Fin 4) (f : Die → Die) : (s.modDie d f).snapHost = s.snapHost := rfl
@[simp] theorem State.modDie_snapMcp (s : State) (d : Fin 4) (f : Die → Die) : (s.modDie d f).snapMcp = s.snapMcp := rfl
@[simp] theorem State.modDie_hubMsgs (s : State) (d : Fin 4) (f : Die → Die) : (s.modDie d f).hubMsgs = s.hubMsgs := rfl
@[simp] theorem State.modDie_mail (s : State) (d : Fin 4) (f : Die → Die) : (s.modDie d f).mail = s.mail := rfl
@[simp] theorem State.modDie_logs (s : State) (d : Fin 4) (f : Die → Die) : (s.modDie d f).logs = s.logs := rfl
@[simp] theorem State.modDie_out (s : State) (d : Fin 4) (f : Die → Die) : (s.modDie d f).out = s.out := rfl

@[simp] theorem State.modStk_pending (s : State) (k : Fin 8) (f : Stack → Stack) : (s.modStk k f).pending = s.pending := rfl
@[simp] theorem State.modStk_free (s : State) (k : Fin 8) (f : Stack → Stack) : (s.modStk k f).free = s.free := rfl
@[simp] theorem State.modStk_aon (s : State) (k : Fin 8) (f : Stack → Stack) : (s.modStk k f).aon = s.aon := rfl
@[simp] theorem State.modStk_dies (s : State) (k : Fin 8) (f : Stack → Stack) : (s.modStk k f).dies = s.dies := rfl
@[simp] theorem State.modStk_stks (s : State) (k : Fin 8) (f : Stack → Stack) : (s.modStk k f).stks = vmod s.stks k f := rfl
@[simp] theorem State.modStk_regionMode (s : State) (k : Fin 8) (f : Stack → Stack) : (s.modStk k f).regionMode = s.regionMode := rfl
@[simp] theorem State.modStk_hub (s : State) (k : Fin 8) (f : Stack → Stack) : (s.modStk k f).hub = s.hub := rfl
@[simp] theorem State.modStk_fab (s : State) (k : Fin 8) (f : Stack → Stack) : (s.modStk k f).fab = s.fab := rfl
@[simp] theorem State.modStk_ports (s : State) (k : Fin 8) (f : Stack → Stack) : (s.modStk k f).ports = s.ports := rfl
@[simp] theorem State.modStk_job (s : State) (k : Fin 8) (f : Stack → Stack) : (s.modStk k f).job = s.job := rfl
@[simp] theorem State.modStk_sle (s : State) (k : Fin 8) (f : Stack → Stack) : (s.modStk k f).sle = s.sle := rfl
@[simp] theorem State.modStk_mbq (s : State) (k : Fin 8) (f : Stack → Stack) : (s.modStk k f).mbq = s.mbq := rfl
@[simp] theorem State.modStk_wvt (s : State) (k : Fin 8) (f : Stack → Stack) : (s.modStk k f).wvt = s.wvt := rfl
@[simp] theorem State.modStk_tly (s : State) (k : Fin 8) (f : Stack → Stack) : (s.modStk k f).tly = s.tly := rfl
@[simp] theorem State.modStk_fr (s : State) (k : Fin 8) (f : Stack → Stack) : (s.modStk k f).fr = s.fr := rfl
@[simp] theorem State.modStk_host (s : State) (k : Fin 8) (f : Stack → Stack) : (s.modStk k f).host = s.host := rfl
@[simp] theorem State.modStk_boot (s : State) (k : Fin 8) (f : Stack → Stack) : (s.modStk k f).boot = s.boot := rfl
@[simp] theorem State.modStk_pwc (s : State) (k : Fin 8) (f : Stack → Stack) : (s.modStk k f).pwc = s.pwc := rfl
@[simp] theorem State.modStk_sec (s : State) (k : Fin 8) (f : Stack → Stack) : (s.modStk k f).sec = s.sec := rfl
@[simp] theorem State.modStk_marb (s : State) (k : Fin 8) (f : Stack → Stack) : (s.modStk k f).marb = s.marb := rfl
@[simp] theorem State.modStk_snapCfg (s : State) (k : Fin 8) (f : Stack → Stack) : (s.modStk k f).snapCfg = s.snapCfg := rfl
@[simp] theorem State.modStk_snapHost (s : State) (k : Fin 8) (f : Stack → Stack) : (s.modStk k f).snapHost = s.snapHost := rfl
@[simp] theorem State.modStk_snapMcp (s : State) (k : Fin 8) (f : Stack → Stack) : (s.modStk k f).snapMcp = s.snapMcp := rfl
@[simp] theorem State.modStk_hubMsgs (s : State) (k : Fin 8) (f : Stack → Stack) : (s.modStk k f).hubMsgs = s.hubMsgs := rfl
@[simp] theorem State.modStk_mail (s : State) (k : Fin 8) (f : Stack → Stack) : (s.modStk k f).mail = s.mail := rfl
@[simp] theorem State.modStk_logs (s : State) (k : Fin 8) (f : Stack → Stack) : (s.modStk k f).logs = s.logs := rfl
@[simp] theorem State.modStk_out (s : State) (k : Fin 8) (f : Stack → Stack) : (s.modStk k f).out = s.out := rfl

@[simp] theorem State.modPort_pending (s : State) (p : Fin 24) (f : Port → Port) : (s.modPort p f).pending = s.pending := rfl
@[simp] theorem State.modPort_free (s : State) (p : Fin 24) (f : Port → Port) : (s.modPort p f).free = s.free := rfl
@[simp] theorem State.modPort_aon (s : State) (p : Fin 24) (f : Port → Port) : (s.modPort p f).aon = s.aon := rfl
@[simp] theorem State.modPort_dies (s : State) (p : Fin 24) (f : Port → Port) : (s.modPort p f).dies = s.dies := rfl
@[simp] theorem State.modPort_stks (s : State) (p : Fin 24) (f : Port → Port) : (s.modPort p f).stks = s.stks := rfl
@[simp] theorem State.modPort_regionMode (s : State) (p : Fin 24) (f : Port → Port) : (s.modPort p f).regionMode = s.regionMode := rfl
@[simp] theorem State.modPort_hub (s : State) (p : Fin 24) (f : Port → Port) : (s.modPort p f).hub = s.hub := rfl
@[simp] theorem State.modPort_fab (s : State) (p : Fin 24) (f : Port → Port) : (s.modPort p f).fab = s.fab := rfl
@[simp] theorem State.modPort_ports (s : State) (p : Fin 24) (f : Port → Port) : (s.modPort p f).ports = vmod s.ports p f := rfl
@[simp] theorem State.modPort_job (s : State) (p : Fin 24) (f : Port → Port) : (s.modPort p f).job = s.job := rfl
@[simp] theorem State.modPort_sle (s : State) (p : Fin 24) (f : Port → Port) : (s.modPort p f).sle = s.sle := rfl
@[simp] theorem State.modPort_mbq (s : State) (p : Fin 24) (f : Port → Port) : (s.modPort p f).mbq = s.mbq := rfl
@[simp] theorem State.modPort_wvt (s : State) (p : Fin 24) (f : Port → Port) : (s.modPort p f).wvt = s.wvt := rfl
@[simp] theorem State.modPort_tly (s : State) (p : Fin 24) (f : Port → Port) : (s.modPort p f).tly = s.tly := rfl
@[simp] theorem State.modPort_fr (s : State) (p : Fin 24) (f : Port → Port) : (s.modPort p f).fr = s.fr := rfl
@[simp] theorem State.modPort_host (s : State) (p : Fin 24) (f : Port → Port) : (s.modPort p f).host = s.host := rfl
@[simp] theorem State.modPort_boot (s : State) (p : Fin 24) (f : Port → Port) : (s.modPort p f).boot = s.boot := rfl
@[simp] theorem State.modPort_pwc (s : State) (p : Fin 24) (f : Port → Port) : (s.modPort p f).pwc = s.pwc := rfl
@[simp] theorem State.modPort_sec (s : State) (p : Fin 24) (f : Port → Port) : (s.modPort p f).sec = s.sec := rfl
@[simp] theorem State.modPort_marb (s : State) (p : Fin 24) (f : Port → Port) : (s.modPort p f).marb = s.marb := rfl
@[simp] theorem State.modPort_snapCfg (s : State) (p : Fin 24) (f : Port → Port) : (s.modPort p f).snapCfg = s.snapCfg := rfl
@[simp] theorem State.modPort_snapHost (s : State) (p : Fin 24) (f : Port → Port) : (s.modPort p f).snapHost = s.snapHost := rfl
@[simp] theorem State.modPort_snapMcp (s : State) (p : Fin 24) (f : Port → Port) : (s.modPort p f).snapMcp = s.snapMcp := rfl
@[simp] theorem State.modPort_hubMsgs (s : State) (p : Fin 24) (f : Port → Port) : (s.modPort p f).hubMsgs = s.hubMsgs := rfl
@[simp] theorem State.modPort_mail (s : State) (p : Fin 24) (f : Port → Port) : (s.modPort p f).mail = s.mail := rfl
@[simp] theorem State.modPort_logs (s : State) (p : Fin 24) (f : Port → Port) : (s.modPort p f).logs = s.logs := rfl
@[simp] theorem State.modPort_out (s : State) (p : Fin 24) (f : Port → Port) : (s.modPort p f).out = s.out := rfl

@[simp] theorem State.modFab_pending (s : State) (f : Fabric → Fabric) : (s.modFab f).pending = s.pending := rfl
@[simp] theorem State.modFab_free (s : State) (f : Fabric → Fabric) : (s.modFab f).free = s.free := rfl
@[simp] theorem State.modFab_aon (s : State) (f : Fabric → Fabric) : (s.modFab f).aon = s.aon := rfl
@[simp] theorem State.modFab_dies (s : State) (f : Fabric → Fabric) : (s.modFab f).dies = s.dies := rfl
@[simp] theorem State.modFab_stks (s : State) (f : Fabric → Fabric) : (s.modFab f).stks = s.stks := rfl
@[simp] theorem State.modFab_regionMode (s : State) (f : Fabric → Fabric) : (s.modFab f).regionMode = s.regionMode := rfl
@[simp] theorem State.modFab_hub (s : State) (f : Fabric → Fabric) : (s.modFab f).hub = s.hub := rfl
@[simp] theorem State.modFab_fab (s : State) (f : Fabric → Fabric) : (s.modFab f).fab = f s.fab := rfl
@[simp] theorem State.modFab_ports (s : State) (f : Fabric → Fabric) : (s.modFab f).ports = s.ports := rfl
@[simp] theorem State.modFab_job (s : State) (f : Fabric → Fabric) : (s.modFab f).job = s.job := rfl
@[simp] theorem State.modFab_sle (s : State) (f : Fabric → Fabric) : (s.modFab f).sle = s.sle := rfl
@[simp] theorem State.modFab_mbq (s : State) (f : Fabric → Fabric) : (s.modFab f).mbq = s.mbq := rfl
@[simp] theorem State.modFab_wvt (s : State) (f : Fabric → Fabric) : (s.modFab f).wvt = s.wvt := rfl
@[simp] theorem State.modFab_tly (s : State) (f : Fabric → Fabric) : (s.modFab f).tly = s.tly := rfl
@[simp] theorem State.modFab_fr (s : State) (f : Fabric → Fabric) : (s.modFab f).fr = s.fr := rfl
@[simp] theorem State.modFab_host (s : State) (f : Fabric → Fabric) : (s.modFab f).host = s.host := rfl
@[simp] theorem State.modFab_boot (s : State) (f : Fabric → Fabric) : (s.modFab f).boot = s.boot := rfl
@[simp] theorem State.modFab_pwc (s : State) (f : Fabric → Fabric) : (s.modFab f).pwc = s.pwc := rfl
@[simp] theorem State.modFab_sec (s : State) (f : Fabric → Fabric) : (s.modFab f).sec = s.sec := rfl
@[simp] theorem State.modFab_marb (s : State) (f : Fabric → Fabric) : (s.modFab f).marb = s.marb := rfl
@[simp] theorem State.modFab_snapCfg (s : State) (f : Fabric → Fabric) : (s.modFab f).snapCfg = s.snapCfg := rfl
@[simp] theorem State.modFab_snapHost (s : State) (f : Fabric → Fabric) : (s.modFab f).snapHost = s.snapHost := rfl
@[simp] theorem State.modFab_snapMcp (s : State) (f : Fabric → Fabric) : (s.modFab f).snapMcp = s.snapMcp := rfl
@[simp] theorem State.modFab_hubMsgs (s : State) (f : Fabric → Fabric) : (s.modFab f).hubMsgs = s.hubMsgs := rfl
@[simp] theorem State.modFab_mail (s : State) (f : Fabric → Fabric) : (s.modFab f).mail = s.mail := rfl
@[simp] theorem State.modFab_logs (s : State) (f : Fabric → Fabric) : (s.modFab f).logs = s.logs := rfl
@[simp] theorem State.modFab_out (s : State) (f : Fabric → Fabric) : (s.modFab f).out = s.out := rfl

@[simp] theorem State.modJob_pending (s : State) (f : Job → Job) : (s.modJob f).pending = s.pending := rfl
@[simp] theorem State.modJob_free (s : State) (f : Job → Job) : (s.modJob f).free = s.free := rfl
@[simp] theorem State.modJob_aon (s : State) (f : Job → Job) : (s.modJob f).aon = s.aon := rfl
@[simp] theorem State.modJob_dies (s : State) (f : Job → Job) : (s.modJob f).dies = s.dies := rfl
@[simp] theorem State.modJob_stks (s : State) (f : Job → Job) : (s.modJob f).stks = s.stks := rfl
@[simp] theorem State.modJob_regionMode (s : State) (f : Job → Job) : (s.modJob f).regionMode = s.regionMode := rfl
@[simp] theorem State.modJob_hub (s : State) (f : Job → Job) : (s.modJob f).hub = s.hub := rfl
@[simp] theorem State.modJob_fab (s : State) (f : Job → Job) : (s.modJob f).fab = s.fab := rfl
@[simp] theorem State.modJob_ports (s : State) (f : Job → Job) : (s.modJob f).ports = s.ports := rfl
@[simp] theorem State.modJob_job (s : State) (f : Job → Job) : (s.modJob f).job = f s.job := rfl
@[simp] theorem State.modJob_sle (s : State) (f : Job → Job) : (s.modJob f).sle = s.sle := rfl
@[simp] theorem State.modJob_mbq (s : State) (f : Job → Job) : (s.modJob f).mbq = s.mbq := rfl
@[simp] theorem State.modJob_wvt (s : State) (f : Job → Job) : (s.modJob f).wvt = s.wvt := rfl
@[simp] theorem State.modJob_tly (s : State) (f : Job → Job) : (s.modJob f).tly = s.tly := rfl
@[simp] theorem State.modJob_fr (s : State) (f : Job → Job) : (s.modJob f).fr = s.fr := rfl
@[simp] theorem State.modJob_host (s : State) (f : Job → Job) : (s.modJob f).host = s.host := rfl
@[simp] theorem State.modJob_boot (s : State) (f : Job → Job) : (s.modJob f).boot = s.boot := rfl
@[simp] theorem State.modJob_pwc (s : State) (f : Job → Job) : (s.modJob f).pwc = s.pwc := rfl
@[simp] theorem State.modJob_sec (s : State) (f : Job → Job) : (s.modJob f).sec = s.sec := rfl
@[simp] theorem State.modJob_marb (s : State) (f : Job → Job) : (s.modJob f).marb = s.marb := rfl
@[simp] theorem State.modJob_snapCfg (s : State) (f : Job → Job) : (s.modJob f).snapCfg = s.snapCfg := rfl
@[simp] theorem State.modJob_snapHost (s : State) (f : Job → Job) : (s.modJob f).snapHost = s.snapHost := rfl
@[simp] theorem State.modJob_snapMcp (s : State) (f : Job → Job) : (s.modJob f).snapMcp = s.snapMcp := rfl
@[simp] theorem State.modJob_hubMsgs (s : State) (f : Job → Job) : (s.modJob f).hubMsgs = s.hubMsgs := rfl
@[simp] theorem State.modJob_mail (s : State) (f : Job → Job) : (s.modJob f).mail = s.mail := rfl
@[simp] theorem State.modJob_logs (s : State) (f : Job → Job) : (s.modJob f).logs = s.logs := rfl
@[simp] theorem State.modJob_out (s : State) (f : Job → Job) : (s.modJob f).out = s.out := rfl

@[simp] theorem State.modSle_pending (s : State) (f : Sle → Sle) : (s.modSle f).pending = s.pending := rfl
@[simp] theorem State.modSle_free (s : State) (f : Sle → Sle) : (s.modSle f).free = s.free := rfl
@[simp] theorem State.modSle_aon (s : State) (f : Sle → Sle) : (s.modSle f).aon = s.aon := rfl
@[simp] theorem State.modSle_dies (s : State) (f : Sle → Sle) : (s.modSle f).dies = s.dies := rfl
@[simp] theorem State.modSle_stks (s : State) (f : Sle → Sle) : (s.modSle f).stks = s.stks := rfl
@[simp] theorem State.modSle_regionMode (s : State) (f : Sle → Sle) : (s.modSle f).regionMode = s.regionMode := rfl
@[simp] theorem State.modSle_hub (s : State) (f : Sle → Sle) : (s.modSle f).hub = s.hub := rfl
@[simp] theorem State.modSle_fab (s : State) (f : Sle → Sle) : (s.modSle f).fab = s.fab := rfl
@[simp] theorem State.modSle_ports (s : State) (f : Sle → Sle) : (s.modSle f).ports = s.ports := rfl
@[simp] theorem State.modSle_job (s : State) (f : Sle → Sle) : (s.modSle f).job = s.job := rfl
@[simp] theorem State.modSle_sle (s : State) (f : Sle → Sle) : (s.modSle f).sle = f s.sle := rfl
@[simp] theorem State.modSle_mbq (s : State) (f : Sle → Sle) : (s.modSle f).mbq = s.mbq := rfl
@[simp] theorem State.modSle_wvt (s : State) (f : Sle → Sle) : (s.modSle f).wvt = s.wvt := rfl
@[simp] theorem State.modSle_tly (s : State) (f : Sle → Sle) : (s.modSle f).tly = s.tly := rfl
@[simp] theorem State.modSle_fr (s : State) (f : Sle → Sle) : (s.modSle f).fr = s.fr := rfl
@[simp] theorem State.modSle_host (s : State) (f : Sle → Sle) : (s.modSle f).host = s.host := rfl
@[simp] theorem State.modSle_boot (s : State) (f : Sle → Sle) : (s.modSle f).boot = s.boot := rfl
@[simp] theorem State.modSle_pwc (s : State) (f : Sle → Sle) : (s.modSle f).pwc = s.pwc := rfl
@[simp] theorem State.modSle_sec (s : State) (f : Sle → Sle) : (s.modSle f).sec = s.sec := rfl
@[simp] theorem State.modSle_marb (s : State) (f : Sle → Sle) : (s.modSle f).marb = s.marb := rfl
@[simp] theorem State.modSle_snapCfg (s : State) (f : Sle → Sle) : (s.modSle f).snapCfg = s.snapCfg := rfl
@[simp] theorem State.modSle_snapHost (s : State) (f : Sle → Sle) : (s.modSle f).snapHost = s.snapHost := rfl
@[simp] theorem State.modSle_snapMcp (s : State) (f : Sle → Sle) : (s.modSle f).snapMcp = s.snapMcp := rfl
@[simp] theorem State.modSle_hubMsgs (s : State) (f : Sle → Sle) : (s.modSle f).hubMsgs = s.hubMsgs := rfl
@[simp] theorem State.modSle_mail (s : State) (f : Sle → Sle) : (s.modSle f).mail = s.mail := rfl
@[simp] theorem State.modSle_logs (s : State) (f : Sle → Sle) : (s.modSle f).logs = s.logs := rfl
@[simp] theorem State.modSle_out (s : State) (f : Sle → Sle) : (s.modSle f).out = s.out := rfl

@[simp] theorem State.modMbq_pending (s : State) (f : Mbq → Mbq) : (s.modMbq f).pending = s.pending := rfl
@[simp] theorem State.modMbq_free (s : State) (f : Mbq → Mbq) : (s.modMbq f).free = s.free := rfl
@[simp] theorem State.modMbq_aon (s : State) (f : Mbq → Mbq) : (s.modMbq f).aon = s.aon := rfl
@[simp] theorem State.modMbq_dies (s : State) (f : Mbq → Mbq) : (s.modMbq f).dies = s.dies := rfl
@[simp] theorem State.modMbq_stks (s : State) (f : Mbq → Mbq) : (s.modMbq f).stks = s.stks := rfl
@[simp] theorem State.modMbq_regionMode (s : State) (f : Mbq → Mbq) : (s.modMbq f).regionMode = s.regionMode := rfl
@[simp] theorem State.modMbq_hub (s : State) (f : Mbq → Mbq) : (s.modMbq f).hub = s.hub := rfl
@[simp] theorem State.modMbq_fab (s : State) (f : Mbq → Mbq) : (s.modMbq f).fab = s.fab := rfl
@[simp] theorem State.modMbq_ports (s : State) (f : Mbq → Mbq) : (s.modMbq f).ports = s.ports := rfl
@[simp] theorem State.modMbq_job (s : State) (f : Mbq → Mbq) : (s.modMbq f).job = s.job := rfl
@[simp] theorem State.modMbq_sle (s : State) (f : Mbq → Mbq) : (s.modMbq f).sle = s.sle := rfl
@[simp] theorem State.modMbq_mbq (s : State) (f : Mbq → Mbq) : (s.modMbq f).mbq = f s.mbq := rfl
@[simp] theorem State.modMbq_wvt (s : State) (f : Mbq → Mbq) : (s.modMbq f).wvt = s.wvt := rfl
@[simp] theorem State.modMbq_tly (s : State) (f : Mbq → Mbq) : (s.modMbq f).tly = s.tly := rfl
@[simp] theorem State.modMbq_fr (s : State) (f : Mbq → Mbq) : (s.modMbq f).fr = s.fr := rfl
@[simp] theorem State.modMbq_host (s : State) (f : Mbq → Mbq) : (s.modMbq f).host = s.host := rfl
@[simp] theorem State.modMbq_boot (s : State) (f : Mbq → Mbq) : (s.modMbq f).boot = s.boot := rfl
@[simp] theorem State.modMbq_pwc (s : State) (f : Mbq → Mbq) : (s.modMbq f).pwc = s.pwc := rfl
@[simp] theorem State.modMbq_sec (s : State) (f : Mbq → Mbq) : (s.modMbq f).sec = s.sec := rfl
@[simp] theorem State.modMbq_marb (s : State) (f : Mbq → Mbq) : (s.modMbq f).marb = s.marb := rfl
@[simp] theorem State.modMbq_snapCfg (s : State) (f : Mbq → Mbq) : (s.modMbq f).snapCfg = s.snapCfg := rfl
@[simp] theorem State.modMbq_snapHost (s : State) (f : Mbq → Mbq) : (s.modMbq f).snapHost = s.snapHost := rfl
@[simp] theorem State.modMbq_snapMcp (s : State) (f : Mbq → Mbq) : (s.modMbq f).snapMcp = s.snapMcp := rfl
@[simp] theorem State.modMbq_hubMsgs (s : State) (f : Mbq → Mbq) : (s.modMbq f).hubMsgs = s.hubMsgs := rfl
@[simp] theorem State.modMbq_mail (s : State) (f : Mbq → Mbq) : (s.modMbq f).mail = s.mail := rfl
@[simp] theorem State.modMbq_logs (s : State) (f : Mbq → Mbq) : (s.modMbq f).logs = s.logs := rfl
@[simp] theorem State.modMbq_out (s : State) (f : Mbq → Mbq) : (s.modMbq f).out = s.out := rfl

@[simp] theorem State.modWvt_pending (s : State) (f : Wvt → Wvt) : (s.modWvt f).pending = s.pending := rfl
@[simp] theorem State.modWvt_free (s : State) (f : Wvt → Wvt) : (s.modWvt f).free = s.free := rfl
@[simp] theorem State.modWvt_aon (s : State) (f : Wvt → Wvt) : (s.modWvt f).aon = s.aon := rfl
@[simp] theorem State.modWvt_dies (s : State) (f : Wvt → Wvt) : (s.modWvt f).dies = s.dies := rfl
@[simp] theorem State.modWvt_stks (s : State) (f : Wvt → Wvt) : (s.modWvt f).stks = s.stks := rfl
@[simp] theorem State.modWvt_regionMode (s : State) (f : Wvt → Wvt) : (s.modWvt f).regionMode = s.regionMode := rfl
@[simp] theorem State.modWvt_hub (s : State) (f : Wvt → Wvt) : (s.modWvt f).hub = s.hub := rfl
@[simp] theorem State.modWvt_fab (s : State) (f : Wvt → Wvt) : (s.modWvt f).fab = s.fab := rfl
@[simp] theorem State.modWvt_ports (s : State) (f : Wvt → Wvt) : (s.modWvt f).ports = s.ports := rfl
@[simp] theorem State.modWvt_job (s : State) (f : Wvt → Wvt) : (s.modWvt f).job = s.job := rfl
@[simp] theorem State.modWvt_sle (s : State) (f : Wvt → Wvt) : (s.modWvt f).sle = s.sle := rfl
@[simp] theorem State.modWvt_mbq (s : State) (f : Wvt → Wvt) : (s.modWvt f).mbq = s.mbq := rfl
@[simp] theorem State.modWvt_wvt (s : State) (f : Wvt → Wvt) : (s.modWvt f).wvt = f s.wvt := rfl
@[simp] theorem State.modWvt_tly (s : State) (f : Wvt → Wvt) : (s.modWvt f).tly = s.tly := rfl
@[simp] theorem State.modWvt_fr (s : State) (f : Wvt → Wvt) : (s.modWvt f).fr = s.fr := rfl
@[simp] theorem State.modWvt_host (s : State) (f : Wvt → Wvt) : (s.modWvt f).host = s.host := rfl
@[simp] theorem State.modWvt_boot (s : State) (f : Wvt → Wvt) : (s.modWvt f).boot = s.boot := rfl
@[simp] theorem State.modWvt_pwc (s : State) (f : Wvt → Wvt) : (s.modWvt f).pwc = s.pwc := rfl
@[simp] theorem State.modWvt_sec (s : State) (f : Wvt → Wvt) : (s.modWvt f).sec = s.sec := rfl
@[simp] theorem State.modWvt_marb (s : State) (f : Wvt → Wvt) : (s.modWvt f).marb = s.marb := rfl
@[simp] theorem State.modWvt_snapCfg (s : State) (f : Wvt → Wvt) : (s.modWvt f).snapCfg = s.snapCfg := rfl
@[simp] theorem State.modWvt_snapHost (s : State) (f : Wvt → Wvt) : (s.modWvt f).snapHost = s.snapHost := rfl
@[simp] theorem State.modWvt_snapMcp (s : State) (f : Wvt → Wvt) : (s.modWvt f).snapMcp = s.snapMcp := rfl
@[simp] theorem State.modWvt_hubMsgs (s : State) (f : Wvt → Wvt) : (s.modWvt f).hubMsgs = s.hubMsgs := rfl
@[simp] theorem State.modWvt_mail (s : State) (f : Wvt → Wvt) : (s.modWvt f).mail = s.mail := rfl
@[simp] theorem State.modWvt_logs (s : State) (f : Wvt → Wvt) : (s.modWvt f).logs = s.logs := rfl
@[simp] theorem State.modWvt_out (s : State) (f : Wvt → Wvt) : (s.modWvt f).out = s.out := rfl

@[simp] theorem State.modTly_pending (s : State) (f : Tly → Tly) : (s.modTly f).pending = s.pending := rfl
@[simp] theorem State.modTly_free (s : State) (f : Tly → Tly) : (s.modTly f).free = s.free := rfl
@[simp] theorem State.modTly_aon (s : State) (f : Tly → Tly) : (s.modTly f).aon = s.aon := rfl
@[simp] theorem State.modTly_dies (s : State) (f : Tly → Tly) : (s.modTly f).dies = s.dies := rfl
@[simp] theorem State.modTly_stks (s : State) (f : Tly → Tly) : (s.modTly f).stks = s.stks := rfl
@[simp] theorem State.modTly_regionMode (s : State) (f : Tly → Tly) : (s.modTly f).regionMode = s.regionMode := rfl
@[simp] theorem State.modTly_hub (s : State) (f : Tly → Tly) : (s.modTly f).hub = s.hub := rfl
@[simp] theorem State.modTly_fab (s : State) (f : Tly → Tly) : (s.modTly f).fab = s.fab := rfl
@[simp] theorem State.modTly_ports (s : State) (f : Tly → Tly) : (s.modTly f).ports = s.ports := rfl
@[simp] theorem State.modTly_job (s : State) (f : Tly → Tly) : (s.modTly f).job = s.job := rfl
@[simp] theorem State.modTly_sle (s : State) (f : Tly → Tly) : (s.modTly f).sle = s.sle := rfl
@[simp] theorem State.modTly_mbq (s : State) (f : Tly → Tly) : (s.modTly f).mbq = s.mbq := rfl
@[simp] theorem State.modTly_wvt (s : State) (f : Tly → Tly) : (s.modTly f).wvt = s.wvt := rfl
@[simp] theorem State.modTly_tly (s : State) (f : Tly → Tly) : (s.modTly f).tly = f s.tly := rfl
@[simp] theorem State.modTly_fr (s : State) (f : Tly → Tly) : (s.modTly f).fr = s.fr := rfl
@[simp] theorem State.modTly_host (s : State) (f : Tly → Tly) : (s.modTly f).host = s.host := rfl
@[simp] theorem State.modTly_boot (s : State) (f : Tly → Tly) : (s.modTly f).boot = s.boot := rfl
@[simp] theorem State.modTly_pwc (s : State) (f : Tly → Tly) : (s.modTly f).pwc = s.pwc := rfl
@[simp] theorem State.modTly_sec (s : State) (f : Tly → Tly) : (s.modTly f).sec = s.sec := rfl
@[simp] theorem State.modTly_marb (s : State) (f : Tly → Tly) : (s.modTly f).marb = s.marb := rfl
@[simp] theorem State.modTly_snapCfg (s : State) (f : Tly → Tly) : (s.modTly f).snapCfg = s.snapCfg := rfl
@[simp] theorem State.modTly_snapHost (s : State) (f : Tly → Tly) : (s.modTly f).snapHost = s.snapHost := rfl
@[simp] theorem State.modTly_snapMcp (s : State) (f : Tly → Tly) : (s.modTly f).snapMcp = s.snapMcp := rfl
@[simp] theorem State.modTly_hubMsgs (s : State) (f : Tly → Tly) : (s.modTly f).hubMsgs = s.hubMsgs := rfl
@[simp] theorem State.modTly_mail (s : State) (f : Tly → Tly) : (s.modTly f).mail = s.mail := rfl
@[simp] theorem State.modTly_logs (s : State) (f : Tly → Tly) : (s.modTly f).logs = s.logs := rfl
@[simp] theorem State.modTly_out (s : State) (f : Tly → Tly) : (s.modTly f).out = s.out := rfl

@[simp] theorem State.modFr_pending (s : State) (f : Fr → Fr) : (s.modFr f).pending = s.pending := rfl
@[simp] theorem State.modFr_free (s : State) (f : Fr → Fr) : (s.modFr f).free = s.free := rfl
@[simp] theorem State.modFr_aon (s : State) (f : Fr → Fr) : (s.modFr f).aon = s.aon := rfl
@[simp] theorem State.modFr_dies (s : State) (f : Fr → Fr) : (s.modFr f).dies = s.dies := rfl
@[simp] theorem State.modFr_stks (s : State) (f : Fr → Fr) : (s.modFr f).stks = s.stks := rfl
@[simp] theorem State.modFr_regionMode (s : State) (f : Fr → Fr) : (s.modFr f).regionMode = s.regionMode := rfl
@[simp] theorem State.modFr_hub (s : State) (f : Fr → Fr) : (s.modFr f).hub = s.hub := rfl
@[simp] theorem State.modFr_fab (s : State) (f : Fr → Fr) : (s.modFr f).fab = s.fab := rfl
@[simp] theorem State.modFr_ports (s : State) (f : Fr → Fr) : (s.modFr f).ports = s.ports := rfl
@[simp] theorem State.modFr_job (s : State) (f : Fr → Fr) : (s.modFr f).job = s.job := rfl
@[simp] theorem State.modFr_sle (s : State) (f : Fr → Fr) : (s.modFr f).sle = s.sle := rfl
@[simp] theorem State.modFr_mbq (s : State) (f : Fr → Fr) : (s.modFr f).mbq = s.mbq := rfl
@[simp] theorem State.modFr_wvt (s : State) (f : Fr → Fr) : (s.modFr f).wvt = s.wvt := rfl
@[simp] theorem State.modFr_tly (s : State) (f : Fr → Fr) : (s.modFr f).tly = s.tly := rfl
@[simp] theorem State.modFr_fr (s : State) (f : Fr → Fr) : (s.modFr f).fr = f s.fr := rfl
@[simp] theorem State.modFr_host (s : State) (f : Fr → Fr) : (s.modFr f).host = s.host := rfl
@[simp] theorem State.modFr_boot (s : State) (f : Fr → Fr) : (s.modFr f).boot = s.boot := rfl
@[simp] theorem State.modFr_pwc (s : State) (f : Fr → Fr) : (s.modFr f).pwc = s.pwc := rfl
@[simp] theorem State.modFr_sec (s : State) (f : Fr → Fr) : (s.modFr f).sec = s.sec := rfl
@[simp] theorem State.modFr_marb (s : State) (f : Fr → Fr) : (s.modFr f).marb = s.marb := rfl
@[simp] theorem State.modFr_snapCfg (s : State) (f : Fr → Fr) : (s.modFr f).snapCfg = s.snapCfg := rfl
@[simp] theorem State.modFr_snapHost (s : State) (f : Fr → Fr) : (s.modFr f).snapHost = s.snapHost := rfl
@[simp] theorem State.modFr_snapMcp (s : State) (f : Fr → Fr) : (s.modFr f).snapMcp = s.snapMcp := rfl
@[simp] theorem State.modFr_hubMsgs (s : State) (f : Fr → Fr) : (s.modFr f).hubMsgs = s.hubMsgs := rfl
@[simp] theorem State.modFr_mail (s : State) (f : Fr → Fr) : (s.modFr f).mail = s.mail := rfl
@[simp] theorem State.modFr_logs (s : State) (f : Fr → Fr) : (s.modFr f).logs = s.logs := rfl
@[simp] theorem State.modFr_out (s : State) (f : Fr → Fr) : (s.modFr f).out = s.out := rfl

@[simp] theorem State.modHost_pending (s : State) (f : HostPort → HostPort) : (s.modHost f).pending = s.pending := rfl
@[simp] theorem State.modHost_free (s : State) (f : HostPort → HostPort) : (s.modHost f).free = s.free := rfl
@[simp] theorem State.modHost_aon (s : State) (f : HostPort → HostPort) : (s.modHost f).aon = s.aon := rfl
@[simp] theorem State.modHost_dies (s : State) (f : HostPort → HostPort) : (s.modHost f).dies = s.dies := rfl
@[simp] theorem State.modHost_stks (s : State) (f : HostPort → HostPort) : (s.modHost f).stks = s.stks := rfl
@[simp] theorem State.modHost_regionMode (s : State) (f : HostPort → HostPort) : (s.modHost f).regionMode = s.regionMode := rfl
@[simp] theorem State.modHost_hub (s : State) (f : HostPort → HostPort) : (s.modHost f).hub = s.hub := rfl
@[simp] theorem State.modHost_fab (s : State) (f : HostPort → HostPort) : (s.modHost f).fab = s.fab := rfl
@[simp] theorem State.modHost_ports (s : State) (f : HostPort → HostPort) : (s.modHost f).ports = s.ports := rfl
@[simp] theorem State.modHost_job (s : State) (f : HostPort → HostPort) : (s.modHost f).job = s.job := rfl
@[simp] theorem State.modHost_sle (s : State) (f : HostPort → HostPort) : (s.modHost f).sle = s.sle := rfl
@[simp] theorem State.modHost_mbq (s : State) (f : HostPort → HostPort) : (s.modHost f).mbq = s.mbq := rfl
@[simp] theorem State.modHost_wvt (s : State) (f : HostPort → HostPort) : (s.modHost f).wvt = s.wvt := rfl
@[simp] theorem State.modHost_tly (s : State) (f : HostPort → HostPort) : (s.modHost f).tly = s.tly := rfl
@[simp] theorem State.modHost_fr (s : State) (f : HostPort → HostPort) : (s.modHost f).fr = s.fr := rfl
@[simp] theorem State.modHost_host (s : State) (f : HostPort → HostPort) : (s.modHost f).host = f s.host := rfl
@[simp] theorem State.modHost_boot (s : State) (f : HostPort → HostPort) : (s.modHost f).boot = s.boot := rfl
@[simp] theorem State.modHost_pwc (s : State) (f : HostPort → HostPort) : (s.modHost f).pwc = s.pwc := rfl
@[simp] theorem State.modHost_sec (s : State) (f : HostPort → HostPort) : (s.modHost f).sec = s.sec := rfl
@[simp] theorem State.modHost_marb (s : State) (f : HostPort → HostPort) : (s.modHost f).marb = s.marb := rfl
@[simp] theorem State.modHost_snapCfg (s : State) (f : HostPort → HostPort) : (s.modHost f).snapCfg = s.snapCfg := rfl
@[simp] theorem State.modHost_snapHost (s : State) (f : HostPort → HostPort) : (s.modHost f).snapHost = s.snapHost := rfl
@[simp] theorem State.modHost_snapMcp (s : State) (f : HostPort → HostPort) : (s.modHost f).snapMcp = s.snapMcp := rfl
@[simp] theorem State.modHost_hubMsgs (s : State) (f : HostPort → HostPort) : (s.modHost f).hubMsgs = s.hubMsgs := rfl
@[simp] theorem State.modHost_mail (s : State) (f : HostPort → HostPort) : (s.modHost f).mail = s.mail := rfl
@[simp] theorem State.modHost_logs (s : State) (f : HostPort → HostPort) : (s.modHost f).logs = s.logs := rfl
@[simp] theorem State.modHost_out (s : State) (f : HostPort → HostPort) : (s.modHost f).out = s.out := rfl

@[simp] theorem State.modBoot_pending (s : State) (f : Boot → Boot) : (s.modBoot f).pending = s.pending := rfl
@[simp] theorem State.modBoot_free (s : State) (f : Boot → Boot) : (s.modBoot f).free = s.free := rfl
@[simp] theorem State.modBoot_aon (s : State) (f : Boot → Boot) : (s.modBoot f).aon = s.aon := rfl
@[simp] theorem State.modBoot_dies (s : State) (f : Boot → Boot) : (s.modBoot f).dies = s.dies := rfl
@[simp] theorem State.modBoot_stks (s : State) (f : Boot → Boot) : (s.modBoot f).stks = s.stks := rfl
@[simp] theorem State.modBoot_regionMode (s : State) (f : Boot → Boot) : (s.modBoot f).regionMode = s.regionMode := rfl
@[simp] theorem State.modBoot_hub (s : State) (f : Boot → Boot) : (s.modBoot f).hub = s.hub := rfl
@[simp] theorem State.modBoot_fab (s : State) (f : Boot → Boot) : (s.modBoot f).fab = s.fab := rfl
@[simp] theorem State.modBoot_ports (s : State) (f : Boot → Boot) : (s.modBoot f).ports = s.ports := rfl
@[simp] theorem State.modBoot_job (s : State) (f : Boot → Boot) : (s.modBoot f).job = s.job := rfl
@[simp] theorem State.modBoot_sle (s : State) (f : Boot → Boot) : (s.modBoot f).sle = s.sle := rfl
@[simp] theorem State.modBoot_mbq (s : State) (f : Boot → Boot) : (s.modBoot f).mbq = s.mbq := rfl
@[simp] theorem State.modBoot_wvt (s : State) (f : Boot → Boot) : (s.modBoot f).wvt = s.wvt := rfl
@[simp] theorem State.modBoot_tly (s : State) (f : Boot → Boot) : (s.modBoot f).tly = s.tly := rfl
@[simp] theorem State.modBoot_fr (s : State) (f : Boot → Boot) : (s.modBoot f).fr = s.fr := rfl
@[simp] theorem State.modBoot_host (s : State) (f : Boot → Boot) : (s.modBoot f).host = s.host := rfl
@[simp] theorem State.modBoot_boot (s : State) (f : Boot → Boot) : (s.modBoot f).boot = f s.boot := rfl
@[simp] theorem State.modBoot_pwc (s : State) (f : Boot → Boot) : (s.modBoot f).pwc = s.pwc := rfl
@[simp] theorem State.modBoot_sec (s : State) (f : Boot → Boot) : (s.modBoot f).sec = s.sec := rfl
@[simp] theorem State.modBoot_marb (s : State) (f : Boot → Boot) : (s.modBoot f).marb = s.marb := rfl
@[simp] theorem State.modBoot_snapCfg (s : State) (f : Boot → Boot) : (s.modBoot f).snapCfg = s.snapCfg := rfl
@[simp] theorem State.modBoot_snapHost (s : State) (f : Boot → Boot) : (s.modBoot f).snapHost = s.snapHost := rfl
@[simp] theorem State.modBoot_snapMcp (s : State) (f : Boot → Boot) : (s.modBoot f).snapMcp = s.snapMcp := rfl
@[simp] theorem State.modBoot_hubMsgs (s : State) (f : Boot → Boot) : (s.modBoot f).hubMsgs = s.hubMsgs := rfl
@[simp] theorem State.modBoot_mail (s : State) (f : Boot → Boot) : (s.modBoot f).mail = s.mail := rfl
@[simp] theorem State.modBoot_logs (s : State) (f : Boot → Boot) : (s.modBoot f).logs = s.logs := rfl
@[simp] theorem State.modBoot_out (s : State) (f : Boot → Boot) : (s.modBoot f).out = s.out := rfl

@[simp] theorem State.modPwc_pending (s : State) (f : Pwc → Pwc) : (s.modPwc f).pending = s.pending := rfl
@[simp] theorem State.modPwc_free (s : State) (f : Pwc → Pwc) : (s.modPwc f).free = s.free := rfl
@[simp] theorem State.modPwc_aon (s : State) (f : Pwc → Pwc) : (s.modPwc f).aon = s.aon := rfl
@[simp] theorem State.modPwc_dies (s : State) (f : Pwc → Pwc) : (s.modPwc f).dies = s.dies := rfl
@[simp] theorem State.modPwc_stks (s : State) (f : Pwc → Pwc) : (s.modPwc f).stks = s.stks := rfl
@[simp] theorem State.modPwc_regionMode (s : State) (f : Pwc → Pwc) : (s.modPwc f).regionMode = s.regionMode := rfl
@[simp] theorem State.modPwc_hub (s : State) (f : Pwc → Pwc) : (s.modPwc f).hub = s.hub := rfl
@[simp] theorem State.modPwc_fab (s : State) (f : Pwc → Pwc) : (s.modPwc f).fab = s.fab := rfl
@[simp] theorem State.modPwc_ports (s : State) (f : Pwc → Pwc) : (s.modPwc f).ports = s.ports := rfl
@[simp] theorem State.modPwc_job (s : State) (f : Pwc → Pwc) : (s.modPwc f).job = s.job := rfl
@[simp] theorem State.modPwc_sle (s : State) (f : Pwc → Pwc) : (s.modPwc f).sle = s.sle := rfl
@[simp] theorem State.modPwc_mbq (s : State) (f : Pwc → Pwc) : (s.modPwc f).mbq = s.mbq := rfl
@[simp] theorem State.modPwc_wvt (s : State) (f : Pwc → Pwc) : (s.modPwc f).wvt = s.wvt := rfl
@[simp] theorem State.modPwc_tly (s : State) (f : Pwc → Pwc) : (s.modPwc f).tly = s.tly := rfl
@[simp] theorem State.modPwc_fr (s : State) (f : Pwc → Pwc) : (s.modPwc f).fr = s.fr := rfl
@[simp] theorem State.modPwc_host (s : State) (f : Pwc → Pwc) : (s.modPwc f).host = s.host := rfl
@[simp] theorem State.modPwc_boot (s : State) (f : Pwc → Pwc) : (s.modPwc f).boot = s.boot := rfl
@[simp] theorem State.modPwc_pwc (s : State) (f : Pwc → Pwc) : (s.modPwc f).pwc = f s.pwc := rfl
@[simp] theorem State.modPwc_sec (s : State) (f : Pwc → Pwc) : (s.modPwc f).sec = s.sec := rfl
@[simp] theorem State.modPwc_marb (s : State) (f : Pwc → Pwc) : (s.modPwc f).marb = s.marb := rfl
@[simp] theorem State.modPwc_snapCfg (s : State) (f : Pwc → Pwc) : (s.modPwc f).snapCfg = s.snapCfg := rfl
@[simp] theorem State.modPwc_snapHost (s : State) (f : Pwc → Pwc) : (s.modPwc f).snapHost = s.snapHost := rfl
@[simp] theorem State.modPwc_snapMcp (s : State) (f : Pwc → Pwc) : (s.modPwc f).snapMcp = s.snapMcp := rfl
@[simp] theorem State.modPwc_hubMsgs (s : State) (f : Pwc → Pwc) : (s.modPwc f).hubMsgs = s.hubMsgs := rfl
@[simp] theorem State.modPwc_mail (s : State) (f : Pwc → Pwc) : (s.modPwc f).mail = s.mail := rfl
@[simp] theorem State.modPwc_logs (s : State) (f : Pwc → Pwc) : (s.modPwc f).logs = s.logs := rfl
@[simp] theorem State.modPwc_out (s : State) (f : Pwc → Pwc) : (s.modPwc f).out = s.out := rfl

@[simp] theorem State.modSec_pending (s : State) (f : Sec → Sec) : (s.modSec f).pending = s.pending := rfl
@[simp] theorem State.modSec_free (s : State) (f : Sec → Sec) : (s.modSec f).free = s.free := rfl
@[simp] theorem State.modSec_aon (s : State) (f : Sec → Sec) : (s.modSec f).aon = s.aon := rfl
@[simp] theorem State.modSec_dies (s : State) (f : Sec → Sec) : (s.modSec f).dies = s.dies := rfl
@[simp] theorem State.modSec_stks (s : State) (f : Sec → Sec) : (s.modSec f).stks = s.stks := rfl
@[simp] theorem State.modSec_regionMode (s : State) (f : Sec → Sec) : (s.modSec f).regionMode = s.regionMode := rfl
@[simp] theorem State.modSec_hub (s : State) (f : Sec → Sec) : (s.modSec f).hub = s.hub := rfl
@[simp] theorem State.modSec_fab (s : State) (f : Sec → Sec) : (s.modSec f).fab = s.fab := rfl
@[simp] theorem State.modSec_ports (s : State) (f : Sec → Sec) : (s.modSec f).ports = s.ports := rfl
@[simp] theorem State.modSec_job (s : State) (f : Sec → Sec) : (s.modSec f).job = s.job := rfl
@[simp] theorem State.modSec_sle (s : State) (f : Sec → Sec) : (s.modSec f).sle = s.sle := rfl
@[simp] theorem State.modSec_mbq (s : State) (f : Sec → Sec) : (s.modSec f).mbq = s.mbq := rfl
@[simp] theorem State.modSec_wvt (s : State) (f : Sec → Sec) : (s.modSec f).wvt = s.wvt := rfl
@[simp] theorem State.modSec_tly (s : State) (f : Sec → Sec) : (s.modSec f).tly = s.tly := rfl
@[simp] theorem State.modSec_fr (s : State) (f : Sec → Sec) : (s.modSec f).fr = s.fr := rfl
@[simp] theorem State.modSec_host (s : State) (f : Sec → Sec) : (s.modSec f).host = s.host := rfl
@[simp] theorem State.modSec_boot (s : State) (f : Sec → Sec) : (s.modSec f).boot = s.boot := rfl
@[simp] theorem State.modSec_pwc (s : State) (f : Sec → Sec) : (s.modSec f).pwc = s.pwc := rfl
@[simp] theorem State.modSec_sec (s : State) (f : Sec → Sec) : (s.modSec f).sec = f s.sec := rfl
@[simp] theorem State.modSec_marb (s : State) (f : Sec → Sec) : (s.modSec f).marb = s.marb := rfl
@[simp] theorem State.modSec_snapCfg (s : State) (f : Sec → Sec) : (s.modSec f).snapCfg = s.snapCfg := rfl
@[simp] theorem State.modSec_snapHost (s : State) (f : Sec → Sec) : (s.modSec f).snapHost = s.snapHost := rfl
@[simp] theorem State.modSec_snapMcp (s : State) (f : Sec → Sec) : (s.modSec f).snapMcp = s.snapMcp := rfl
@[simp] theorem State.modSec_hubMsgs (s : State) (f : Sec → Sec) : (s.modSec f).hubMsgs = s.hubMsgs := rfl
@[simp] theorem State.modSec_mail (s : State) (f : Sec → Sec) : (s.modSec f).mail = s.mail := rfl
@[simp] theorem State.modSec_logs (s : State) (f : Sec → Sec) : (s.modSec f).logs = s.logs := rfl
@[simp] theorem State.modSec_out (s : State) (f : Sec → Sec) : (s.modSec f).out = s.out := rfl

@[simp] theorem State.modMarb_pending (s : State) (f : Marb → Marb) : (s.modMarb f).pending = s.pending := rfl
@[simp] theorem State.modMarb_free (s : State) (f : Marb → Marb) : (s.modMarb f).free = s.free := rfl
@[simp] theorem State.modMarb_aon (s : State) (f : Marb → Marb) : (s.modMarb f).aon = s.aon := rfl
@[simp] theorem State.modMarb_dies (s : State) (f : Marb → Marb) : (s.modMarb f).dies = s.dies := rfl
@[simp] theorem State.modMarb_stks (s : State) (f : Marb → Marb) : (s.modMarb f).stks = s.stks := rfl
@[simp] theorem State.modMarb_regionMode (s : State) (f : Marb → Marb) : (s.modMarb f).regionMode = s.regionMode := rfl
@[simp] theorem State.modMarb_hub (s : State) (f : Marb → Marb) : (s.modMarb f).hub = s.hub := rfl
@[simp] theorem State.modMarb_fab (s : State) (f : Marb → Marb) : (s.modMarb f).fab = s.fab := rfl
@[simp] theorem State.modMarb_ports (s : State) (f : Marb → Marb) : (s.modMarb f).ports = s.ports := rfl
@[simp] theorem State.modMarb_job (s : State) (f : Marb → Marb) : (s.modMarb f).job = s.job := rfl
@[simp] theorem State.modMarb_sle (s : State) (f : Marb → Marb) : (s.modMarb f).sle = s.sle := rfl
@[simp] theorem State.modMarb_mbq (s : State) (f : Marb → Marb) : (s.modMarb f).mbq = s.mbq := rfl
@[simp] theorem State.modMarb_wvt (s : State) (f : Marb → Marb) : (s.modMarb f).wvt = s.wvt := rfl
@[simp] theorem State.modMarb_tly (s : State) (f : Marb → Marb) : (s.modMarb f).tly = s.tly := rfl
@[simp] theorem State.modMarb_fr (s : State) (f : Marb → Marb) : (s.modMarb f).fr = s.fr := rfl
@[simp] theorem State.modMarb_host (s : State) (f : Marb → Marb) : (s.modMarb f).host = s.host := rfl
@[simp] theorem State.modMarb_boot (s : State) (f : Marb → Marb) : (s.modMarb f).boot = s.boot := rfl
@[simp] theorem State.modMarb_pwc (s : State) (f : Marb → Marb) : (s.modMarb f).pwc = s.pwc := rfl
@[simp] theorem State.modMarb_sec (s : State) (f : Marb → Marb) : (s.modMarb f).sec = s.sec := rfl
@[simp] theorem State.modMarb_marb (s : State) (f : Marb → Marb) : (s.modMarb f).marb = f s.marb := rfl
@[simp] theorem State.modMarb_snapCfg (s : State) (f : Marb → Marb) : (s.modMarb f).snapCfg = s.snapCfg := rfl
@[simp] theorem State.modMarb_snapHost (s : State) (f : Marb → Marb) : (s.modMarb f).snapHost = s.snapHost := rfl
@[simp] theorem State.modMarb_snapMcp (s : State) (f : Marb → Marb) : (s.modMarb f).snapMcp = s.snapMcp := rfl
@[simp] theorem State.modMarb_hubMsgs (s : State) (f : Marb → Marb) : (s.modMarb f).hubMsgs = s.hubMsgs := rfl
@[simp] theorem State.modMarb_mail (s : State) (f : Marb → Marb) : (s.modMarb f).mail = s.mail := rfl
@[simp] theorem State.modMarb_logs (s : State) (f : Marb → Marb) : (s.modMarb f).logs = s.logs := rfl
@[simp] theorem State.modMarb_out (s : State) (f : Marb → Marb) : (s.modMarb f).out = s.out := rfl

@[simp] theorem State.modHub_pending (s : State) (f : HubMem → HubMem) : (s.modHub f).pending = s.pending := rfl
@[simp] theorem State.modHub_free (s : State) (f : HubMem → HubMem) : (s.modHub f).free = s.free := rfl
@[simp] theorem State.modHub_aon (s : State) (f : HubMem → HubMem) : (s.modHub f).aon = s.aon := rfl
@[simp] theorem State.modHub_dies (s : State) (f : HubMem → HubMem) : (s.modHub f).dies = s.dies := rfl
@[simp] theorem State.modHub_stks (s : State) (f : HubMem → HubMem) : (s.modHub f).stks = s.stks := rfl
@[simp] theorem State.modHub_regionMode (s : State) (f : HubMem → HubMem) : (s.modHub f).regionMode = s.regionMode := rfl
@[simp] theorem State.modHub_hub (s : State) (f : HubMem → HubMem) : (s.modHub f).hub = f s.hub := rfl
@[simp] theorem State.modHub_fab (s : State) (f : HubMem → HubMem) : (s.modHub f).fab = s.fab := rfl
@[simp] theorem State.modHub_ports (s : State) (f : HubMem → HubMem) : (s.modHub f).ports = s.ports := rfl
@[simp] theorem State.modHub_job (s : State) (f : HubMem → HubMem) : (s.modHub f).job = s.job := rfl
@[simp] theorem State.modHub_sle (s : State) (f : HubMem → HubMem) : (s.modHub f).sle = s.sle := rfl
@[simp] theorem State.modHub_mbq (s : State) (f : HubMem → HubMem) : (s.modHub f).mbq = s.mbq := rfl
@[simp] theorem State.modHub_wvt (s : State) (f : HubMem → HubMem) : (s.modHub f).wvt = s.wvt := rfl
@[simp] theorem State.modHub_tly (s : State) (f : HubMem → HubMem) : (s.modHub f).tly = s.tly := rfl
@[simp] theorem State.modHub_fr (s : State) (f : HubMem → HubMem) : (s.modHub f).fr = s.fr := rfl
@[simp] theorem State.modHub_host (s : State) (f : HubMem → HubMem) : (s.modHub f).host = s.host := rfl
@[simp] theorem State.modHub_boot (s : State) (f : HubMem → HubMem) : (s.modHub f).boot = s.boot := rfl
@[simp] theorem State.modHub_pwc (s : State) (f : HubMem → HubMem) : (s.modHub f).pwc = s.pwc := rfl
@[simp] theorem State.modHub_sec (s : State) (f : HubMem → HubMem) : (s.modHub f).sec = s.sec := rfl
@[simp] theorem State.modHub_marb (s : State) (f : HubMem → HubMem) : (s.modHub f).marb = s.marb := rfl
@[simp] theorem State.modHub_snapCfg (s : State) (f : HubMem → HubMem) : (s.modHub f).snapCfg = s.snapCfg := rfl
@[simp] theorem State.modHub_snapHost (s : State) (f : HubMem → HubMem) : (s.modHub f).snapHost = s.snapHost := rfl
@[simp] theorem State.modHub_snapMcp (s : State) (f : HubMem → HubMem) : (s.modHub f).snapMcp = s.snapMcp := rfl
@[simp] theorem State.modHub_hubMsgs (s : State) (f : HubMem → HubMem) : (s.modHub f).hubMsgs = s.hubMsgs := rfl
@[simp] theorem State.modHub_mail (s : State) (f : HubMem → HubMem) : (s.modHub f).mail = s.mail := rfl
@[simp] theorem State.modHub_logs (s : State) (f : HubMem → HubMem) : (s.modHub f).logs = s.logs := rfl
@[simp] theorem State.modHub_out (s : State) (f : HubMem → HubMem) : (s.modHub f).out = s.out := rfl

@[simp] theorem State.log_pending (s : State) (a : LogSource) (c : Nat) (v : List Nat) : (s.log a c v).pending = s.pending := rfl
@[simp] theorem State.log_free (s : State) (a : LogSource) (c : Nat) (v : List Nat) : (s.log a c v).free = s.free := rfl
@[simp] theorem State.log_aon (s : State) (a : LogSource) (c : Nat) (v : List Nat) : (s.log a c v).aon = s.aon := rfl
@[simp] theorem State.log_dies (s : State) (a : LogSource) (c : Nat) (v : List Nat) : (s.log a c v).dies = s.dies := rfl
@[simp] theorem State.log_stks (s : State) (a : LogSource) (c : Nat) (v : List Nat) : (s.log a c v).stks = s.stks := rfl
@[simp] theorem State.log_regionMode (s : State) (a : LogSource) (c : Nat) (v : List Nat) : (s.log a c v).regionMode = s.regionMode := rfl
@[simp] theorem State.log_hub (s : State) (a : LogSource) (c : Nat) (v : List Nat) : (s.log a c v).hub = s.hub := rfl
@[simp] theorem State.log_fab (s : State) (a : LogSource) (c : Nat) (v : List Nat) : (s.log a c v).fab = s.fab := rfl
@[simp] theorem State.log_ports (s : State) (a : LogSource) (c : Nat) (v : List Nat) : (s.log a c v).ports = s.ports := rfl
@[simp] theorem State.log_job (s : State) (a : LogSource) (c : Nat) (v : List Nat) : (s.log a c v).job = s.job := rfl
@[simp] theorem State.log_sle (s : State) (a : LogSource) (c : Nat) (v : List Nat) : (s.log a c v).sle = s.sle := rfl
@[simp] theorem State.log_mbq (s : State) (a : LogSource) (c : Nat) (v : List Nat) : (s.log a c v).mbq = s.mbq := rfl
@[simp] theorem State.log_wvt (s : State) (a : LogSource) (c : Nat) (v : List Nat) : (s.log a c v).wvt = s.wvt := rfl
@[simp] theorem State.log_tly (s : State) (a : LogSource) (c : Nat) (v : List Nat) : (s.log a c v).tly = s.tly := rfl
@[simp] theorem State.log_fr (s : State) (a : LogSource) (c : Nat) (v : List Nat) : (s.log a c v).fr = s.fr := rfl
@[simp] theorem State.log_host (s : State) (a : LogSource) (c : Nat) (v : List Nat) : (s.log a c v).host = s.host := rfl
@[simp] theorem State.log_boot (s : State) (a : LogSource) (c : Nat) (v : List Nat) : (s.log a c v).boot = s.boot := rfl
@[simp] theorem State.log_pwc (s : State) (a : LogSource) (c : Nat) (v : List Nat) : (s.log a c v).pwc = s.pwc := rfl
@[simp] theorem State.log_sec (s : State) (a : LogSource) (c : Nat) (v : List Nat) : (s.log a c v).sec = s.sec := rfl
@[simp] theorem State.log_marb (s : State) (a : LogSource) (c : Nat) (v : List Nat) : (s.log a c v).marb = s.marb := rfl
@[simp] theorem State.log_snapCfg (s : State) (a : LogSource) (c : Nat) (v : List Nat) : (s.log a c v).snapCfg = s.snapCfg := rfl
@[simp] theorem State.log_snapHost (s : State) (a : LogSource) (c : Nat) (v : List Nat) : (s.log a c v).snapHost = s.snapHost := rfl
@[simp] theorem State.log_snapMcp (s : State) (a : LogSource) (c : Nat) (v : List Nat) : (s.log a c v).snapMcp = s.snapMcp := rfl
@[simp] theorem State.log_hubMsgs (s : State) (a : LogSource) (c : Nat) (v : List Nat) : (s.log a c v).hubMsgs = s.hubMsgs := rfl
@[simp] theorem State.log_mail (s : State) (a : LogSource) (c : Nat) (v : List Nat) : (s.log a c v).mail = s.mail := rfl
@[simp] theorem State.log_logs (s : State) (a : LogSource) (c : Nat) (v : List Nat) : (s.log a c v).logs = ⟨a, s.aon, c, v⟩ :: s.logs := rfl
@[simp] theorem State.log_out (s : State) (a : LogSource) (c : Nat) (v : List Nat) : (s.log a c v).out = s.out := rfl

@[simp] theorem State.emit_pending (s : State) (o : Out) : (s.emit o).pending = s.pending := rfl
@[simp] theorem State.emit_free (s : State) (o : Out) : (s.emit o).free = s.free := rfl
@[simp] theorem State.emit_aon (s : State) (o : Out) : (s.emit o).aon = s.aon := rfl
@[simp] theorem State.emit_dies (s : State) (o : Out) : (s.emit o).dies = s.dies := rfl
@[simp] theorem State.emit_stks (s : State) (o : Out) : (s.emit o).stks = s.stks := rfl
@[simp] theorem State.emit_regionMode (s : State) (o : Out) : (s.emit o).regionMode = s.regionMode := rfl
@[simp] theorem State.emit_hub (s : State) (o : Out) : (s.emit o).hub = s.hub := rfl
@[simp] theorem State.emit_fab (s : State) (o : Out) : (s.emit o).fab = s.fab := rfl
@[simp] theorem State.emit_ports (s : State) (o : Out) : (s.emit o).ports = s.ports := rfl
@[simp] theorem State.emit_job (s : State) (o : Out) : (s.emit o).job = s.job := rfl
@[simp] theorem State.emit_sle (s : State) (o : Out) : (s.emit o).sle = s.sle := rfl
@[simp] theorem State.emit_mbq (s : State) (o : Out) : (s.emit o).mbq = s.mbq := rfl
@[simp] theorem State.emit_wvt (s : State) (o : Out) : (s.emit o).wvt = s.wvt := rfl
@[simp] theorem State.emit_tly (s : State) (o : Out) : (s.emit o).tly = s.tly := rfl
@[simp] theorem State.emit_fr (s : State) (o : Out) : (s.emit o).fr = s.fr := rfl
@[simp] theorem State.emit_host (s : State) (o : Out) : (s.emit o).host = s.host := rfl
@[simp] theorem State.emit_boot (s : State) (o : Out) : (s.emit o).boot = s.boot := rfl
@[simp] theorem State.emit_pwc (s : State) (o : Out) : (s.emit o).pwc = s.pwc := rfl
@[simp] theorem State.emit_sec (s : State) (o : Out) : (s.emit o).sec = s.sec := rfl
@[simp] theorem State.emit_marb (s : State) (o : Out) : (s.emit o).marb = s.marb := rfl
@[simp] theorem State.emit_snapCfg (s : State) (o : Out) : (s.emit o).snapCfg = s.snapCfg := rfl
@[simp] theorem State.emit_snapHost (s : State) (o : Out) : (s.emit o).snapHost = s.snapHost := rfl
@[simp] theorem State.emit_snapMcp (s : State) (o : Out) : (s.emit o).snapMcp = s.snapMcp := rfl
@[simp] theorem State.emit_hubMsgs (s : State) (o : Out) : (s.emit o).hubMsgs = s.hubMsgs := rfl
@[simp] theorem State.emit_mail (s : State) (o : Out) : (s.emit o).mail = s.mail := rfl
@[simp] theorem State.emit_logs (s : State) (o : Out) : (s.emit o).logs = s.logs := rfl
@[simp] theorem State.emit_out (s : State) (o : Out) : (s.emit o).out = o :: s.out := rfl

end Sys2Proof.Machine
end

