-- ==== Sys2Proof/WellFormed.lean ====
section
/-!
DEFINITION. Which commands the environment can send: operand values that the parts behind them can give (a lane that the bundle has,
a flit of 256 bytes, a word that the memory has). No meaning relies on it: exec answers for every command.
-/
namespace Sys2Proof

/-- The protected units of a memory: 8 B words of a scratchpad (160 MiB) or of the hub SRAM (96 MiB), 64 B codewords of a stack (64 GiB). -/
def Site.units : Site → Nat
  | .spad _ => 0x1400000
  | .hub => 0xC00000
  | .stack _ => 2 ^ 30

/-- A bit error lies in its memory and is of a kind that this memory has (spec 07 R134, R136; spec 08 R151). -/
def Upset.wf (u : Upset) : Bool :=
  decide (u.unit < u.site.units) && match u.site, u.kind with
    | .spad _, .single => true
    | .spad _, .double => true
    | .spad _, .collide => true
    | .hub, .single => true
    | .hub, .double => true
    | .stack _, .symbols _ _ mis => mis.isEmpty || mis.length == 64
    | _, _ => false

/-- At most three attempts at each instance (spec 16 R298). -/
def attemptsWf (r : List (List Attempt)) : Bool := r.all fun l => decide (l.length ≤ 3)

/-- A temperature for each zone: four dies, the hub, eight stacks, seven optical engines (spec 17 Table 17-3). -/
def Temps.wf (t : Temps) : Bool := t.dieZones.length == 4 && t.stackZones.length == 8 && t.oeZones.length == 7

/-- A register access is of 4 or 8 bytes, aligned (spec 21 R344). -/
def accessWf (off size : Nat) : Bool := (size == 4 || size == 8) && off % size == 0

/-- Device or host memory is reached in pieces of one line at most (spec 15 R279). -/
def lineWf (addr len : Nat) : Bool := decide (1 ≤ len) && decide (addr % 64 + len ≤ 64)

/-- Failing columns of a scratchpad or of the hub: bank and bit (spec 07 R143). -/
def columnsWf (l : List (Nat × Nat)) : Bool := l.all fun c => decide (c.1 < 136) && decide (c.2 < 72)

/-- A debug request names existing parts (spec 18 R330). -/
def DebugRequest.wf : DebugRequest → Bool
  | .halt _ => true
  | .stepCore _ => true
  | .inspect _ => true
  | .readRegister off => off % 8 == 0
  | .writeRegister off _ => off % 8 == 0
  | .readMemory _ _ => true
  | .writeMemory _ _ _ => true
  | .scan _ => true
  | .blowFuses bank _ _ => decide (bank ≤ 5)

/-- The operands of a command are ones that the environment can give. -/
def Instr.wf : Instr → Bool
  | .bs01Supply r | .bs02Clocks r | .bs03Security r | .bs04HubSram r | .bs05Image r | .bs06Firmware r | .bs07Mgmt r | .bs08DiePower r
  | .bs09Scratchpad r | .bs10Bundles r | .bs11Stacks r | .bs12StackRepair r | .bs13Ports r | .bs14Service r => attemptsWf r
  | .seqDispatch _ u | .mmul _ u | .mmulComplete _ _ u | .vew _ u | .vcvt _ u | .vtadd _ u | .vred _ u | .vpermPerm _ u | .vpermGather _ u
  | .voptSgdMom _ u | .voptAdamw _ u | .movCopy _ u | .movFill _ u | .movHubop _ u | .trnTranspose _ u | .trnPanel _ u | .trnUnpanel _ u
  | .rngUniform _ u | .rngBernoulli _ u | .rngNormal _ u | .patrolScrubRead _ u => u.all Upset.wf
  | .spadCeWriteback site word => match site with
    | .spad _ => decide (word < site.units)
    | .hub => decide (word < site.units)
    | .stack _ => false
  | .stkCeWriteback _ group => decide (group < 2 ^ 30)
  | .hostMemRead addr len _ _ u => lineWf addr len && u.all Upset.wf
  | .hostMemWrite addr data _ u => lineWf addr data.length && u.all Upset.wf
  | .backInvalidateResponse _ dirty => match dirty with
    | some bs => bs.length == 64
    | none => true
  | .eyeMeasurement _ widths => widths.length == 70
  | .bundleRetrainComplete _ bad => bad.all fun l => decide (l < 70)
  | .lclkMissing d bs => bs.all fun b => b.1 / 16 == d.1
  | .tertiFlitReceive _ _ _ flit => flit.length == 256
  | .trainingStepTimeout _ stage _ _ => decide (1 ≤ stage) && decide (stage ≤ 6)
  | .ffeReqCount _ _ tap delta => decide (tap ≤ 4) && decide (-1 ≤ delta) && decide (delta ≤ 1)
  | .marchComplete _ fails => fails.all fun f => columnsWf f.columns
  | .dieResetRejoin d bad lost | .dieOffExitComplete d bad lost => columnsWf bad && lost.all fun k => k.1 / 2 == d.1
  | .descriptorFetch _ batch => decide (batch.length ≤ 16) && batch.all fun x => match x with
    | some bs => bs.length == 64
    | none => true
  | .thermalLoopTick t | .thermalTripRestart t | .watchSample _ t _ _ => t.wf
  | .mpDebugRequest r => r.wf
  | .rcRegisterRead _ off size | .wideRegisterRead _ off size | .registerWrite _ off size _ => accessWf off size
  | .pwrOkRise | .pwrOkFall | .rstNAssert _ | .rstNRelease _ _ _ | .bootStepTimeout | .bootRestart | .ldgCtrlClear _ | .refOscLost
  | .fclkLockLost | .gclkLockLost | .aonOscStopped | .aclkLockLost _ | .mclkLockLost _ | .clkFaultWrite _
  | .engineInstructionComplete _ _ | .waitTimeout _ | .semaphoreAddPortB _ _ _ | .homeFilterInvalAck _ | .remoteCacheFillArrival _ _
  | .remoteCacheInvalidate _ _ | .eraseWindowEnd _ | .stackNoResponse _ | .pseudoChannelRetrainFail _ | .bundleEntryReceive _ _ _
  | .crcWindowEnd _ | .castling _ | .castlingSwitch _ | .castlingComplete _ _ | .bundleRetrain _ | .dieHubClockLoss _
  | .dieFenceResetHold _ | .dieFenceComplete _ => true
  | .tertiFlitTransmit _ | .ackTimeoutReplay _ | .ctlParam _ | .ctlSync _ | .ctlFfeReq _ | .ctlLambdaNotice _ | .ctlRttProbe _
  | .ctlRttEcho _ _ | .ctlRepeat _ | .portEnableWrite _ _ | .tertiTrainingComplete _ _ _ | .ctleAdaptTick _ | .laserBiasTick _ _
  | .wavelengthFail _ _ _ | .wavelengthWindowEnd _ | .tertiRetrainComplete _ _ | .portLossOfLight _ | .portReacquire _
  | .replayWindowEnd _ | .messageHoldExpiry _ _ | .quarantineWindowEnd _ | .nackSend _ | .nack _ | .expectWrite _ _ | .mgmtMessage _ => true
  | .fwdAct _ | .bwdGrad _ | .mbDrop _ | .qcredit _ | .qcreditPeriodic | .stageLinkSend _ _ | .shardReq _ | .shardData _ | .shardFail _
  | .gatherLimitExpiry _ | .spBlock _ | .mbqBind | .take _ | .fwdDone _ | .bwdDone _ | .stashAlloc _ | .stashMap _ | .drop _
  | .injectEval _ | .slotOutputAcked _ | .slotDroppedRelease _ | .lookup _ | .openPending _ | .gather _ | .voteHubop _ | .vote _
  | .voteLimitExpiry _ | .decision _ | .decideWaitExpiry _ | .decisionReq _ | .arm _ | .start _ | .disarm _ | .tally _ _ | .tallyCopy _
  | .tallyDeadlineExpiry _ | .pair _ | .pairAck _ | .copyData _ | .copyDone _ | .fillReq _ | .fillData _ | .fillFail _ | .fillLimitExpiry
  | .digestReq _ | .digestData _ | .promoteLocate | .promoteRecord | .promoteFill | .promoteVerify | .promoteRejoin | .reshardCutover => true
  | .marbAdmit | .marbStallOverrun _ | .scrubComplete _ | .thermalCalibrationComplete _ | .dieResetDrainEnd _ | .dieResetAbandon _
  | .sqTail _ _ | .cqHead _ _ | .sqEnable _ _ | .cqEnable _ _ | .completionRecordWrite _ | .cqInterruptTimer _ | .progressRecordTimer _
  | .hostLinkDown | .cmdNop _ | .cancel _ | .portRelease _ | .loadProgram _ _ | .runProgram _ | .setIdentity _ | .roleInstall _ _
  | .roleRemove _ _ | .wvtInstall _ _ | .groupInstall _ _ | .groupRemove _ | .groupAdopt _ | .buddyPair _ | .holdCopy _ | .promote _ _
  | .fill _ _ | .checkpointDrain _ | .reshard _ _ _ | .march _ _ | .scrub _ | .calibrateBundleRetrain _ | .calibrateCastling _
  | .calibrateOpticalReeq _ | .calibrateThermal _ | .fuseRead _ | .dieReset _ | .powerActive _ | .powerIdle _ | .powerDieOff _
  | .powerWatch _ | .attest _ | .lifecycle _ _ => true
  | .pwcModeWrite _ | .powerTransitionStart _ | .padHoldWrite _ | .dvfsLoopTick | .droopCeilingRecovery _ | .powerMeasureTick _ _
  | .capLoopTick | .thermalTrip | .oeOvertemp _ | .oeCooled _ | .dieRailFault _ | .stackRailFault _ | .brownout _ | .brownoutRestart _
  | .wakeLightFrame _ _ _ _ | .tamperEvent _ _ _ | .vaultWipeComplete _ | .stashBudgetWrite _ _ | .hostLinkUp | .h2dSnoop _
  | .fuseReadComplete | .bootImageArrival _ _ | .aonOscillatorReturn | .droopSensorTrip _ | .lightReturn _ => true

end Sys2Proof
end

