-- ==== Sys2Proof/Tests/Slice0.lean ====
section
/-!
SUPPORT. Tests: for each statement a state and operands that meet its hypotheses (wit_), and values worked out from the spec (test_).
-/
namespace Sys2Proof.Tests
open Sys2Proof Sys2Proof.Machine

-- One theorem after the other: their kernel evaluations side by side take a thread each.
set_option Elab.async false

/-- IdleTickCountsTime: an empty queue, with a die's clock off. -/
theorem wit_IdleTickCountsTime : State.reset.pending = [] ∧ (State.reset.die 0).pwr.aclkOn = false := ⟨rfl, by decide⟩

/-- CommandsKeepQueueAndClock: a command that is no debug request; and one that answers a next state. -/
theorem wit_CommandsKeepQueueAndClock : isDebug .qcreditPeriodic = false ∧ ∃ t, exec .aonOscillatorReturn State.reset = .next t :=
  ⟨rfl, _, rfl⟩

/-- QueueDrainsInOrder: a state with two commands waiting. -/
theorem wit_QueueDrainsInOrder : ∃ s : State, s.pending.length = 2 ∧ (s.pending.all fun c => !isDebug c) = true :=
  ⟨{ State.reset with pending := [.qcreditPeriodic, .marbAdmit] }, rfl, rfl⟩

/-- StatusRegistersFollow: the state after reset, and a step from it. -/
theorem wit_StatusRegistersFollow : ∃ s t : State, s.judged = true ∧ step s = .next t := ⟨State.reset, _, by decide +kernel, rfl⟩

/-- QuietStateStaysAsItIs: the state after reset is judged and calm. -/
theorem wit_QuietStateStaysAsItIs : State.reset.judged = true ∧ State.reset.calm = true := ⟨by decide +kernel, by decide +kernel⟩

/-- A device with its pins as given. -/
def pins (ok rst : Bool) : State := { State.reset with boot := { Boot.reset with pwrOk := ok, rstN := rst } }

/-- PinsAndStraps: each edge from the level before it, with the other pin at either level; RST_N low for 4 ticks and for 3. -/
theorem wit_PinsAndStraps :
    ((pins false false).boot.pwrOk = false ∧ (pins false false).boot.vinOk = true ∧ (pins false false).boot.rstN = false) ∧
    ((pins false true).boot.pwrOk = false ∧ (pins false true).boot.vinOk = true ∧ (pins false true).boot.rstN = true) ∧
    (pins true true).boot.pwrOk = true ∧ ((pins true true).boot.rstN = true ∧ 4 ≤ 4 ∧ 3 < 4) ∧ (pins true false).boot.rstN = false := by
  decide

/-- StopKeepsOnlyTheAlwaysOnDomain: FAILED_RUN at 6 and at 7, one start before the halt and at it. -/
theorem wit_StopKeepsOnlyTheAlwaysOnDomain :
    fget ldgStartFailedRun (fsat ldgStartFailedRun 1 (fput ldgStartFailedRun 6 (0 : Quad))) = 7 ∧
    fget ldgStartFailedRun (fsat ldgStartFailedRun 1 (fput ldgStartFailedRun 7 (0 : Quad))) = 8 := by decide

/-- A device at boot step `k`, its BEGIN records written. -/
def atBoot (k : Nat) : State := { State.reset with boot := { Boot.reset with pwrOk := true, rstN := true, step := k, stepOpen := true } }

/-- BootStepsPassInOrder: the state at each step. BS-05's checks rest on cryptographic functions without a body (log entry 8), so that no
image is shown to pass them; that a source is there is shown. -/
theorem wit_BootStepsPassInOrder :
    ((atBoot 1).boot.step = 1 ∧ (atBoot 1).boot.stepOpen = true ∧ (atBoot 1).failsOf 1 0 = 0) ∧
    ((atBoot 3).failsOf 3 0 = 0 ∧ (atBoot 3).sec.fuses.lifeState ≠ 5) ∧ (atBoot 4).sec.fuses.columnsOf 4 = [] ∧
    (((atBoot 5).imageBytes (atBoot 5).imageSource).isSome = true ∧ (atBoot 5).boot.imageSrc = 0) ∧
    ({ (atBoot 7) with pwc := { Pwc.reset with trimmed := true } } : State).pwc.trimmed = true ∧
    ((atBoot 7).boot.retained ≠ stopBrownout ∧ fon tamperValid (atBoot 7).sec.tamper = false) ∧
    (fget strapDieEn (atBoot 8).boot.straps ≠ 0 ∧ (atBoot 8).instances 8 ≠ []) ∧ (atBoot 9).instances 9 ≠ [] ∧ (atBoot 10).instances 10 ≠ [] ∧
    ((atBoot 13).xMandatory = false ∧ (∀ p, (atBoot 13).portState p ≠ pstTraining)) ∧ (atBoot 14).isSpare = false := by
  decide +kernel

/-- BootStepsPassInOrder: no instance has failed, and no lane is fused bad. -/
theorem wit_BootStepsPassInOrder_fails : (∀ i, (atBoot 9).failsOf 9 i = 0) ∧ ∀ b, (atBoot 10).fusedBad b = [] := by
  refine ⟨fun i => rfl, by decide +kernel⟩

/-- LedgerLimitsRestartsAndClear: BS-01 exactly at its limit, a restart exactly when due, BS-05 waiting for the host's image, service. -/
theorem wit_LedgerLimitsRestartsAndClear :
    (let s : State := { atBoot 1 with aon := 20 * ticksPerMs }
     s.boot.step ≠ 0 ∧ s.boot.step ≠ 5 ∧ s.boot.stepOpen = true ∧ s.boot.stepBegin + s.stepLimit s.boot.step ≤ s.aon) ∧
    (let s : State := { State.reset with aon := 65536, boot := { Boot.reset with pwrOk := true, rstN := true, restartAt := some 65536 } }
     s.boot.restartAt = some 65536 ∧ 65536 ≤ s.aon ∧ s.boot.pwrOk = true ∧ s.boot.rstN = true) ∧
    (let s : State := { atBoot 5 with boot := { (atBoot 5).boot with straps := fput strapCxlEn 1 (fput strapBootsrc 1 (atBoot 5).boot.straps) } }
     s.boot.step = 5 ∧ s.imageSource = .port .host ∧ ([] : List Byte).length ≤ 64 * 2 ^ 20) ∧
    ({ State.reset with boot := { Boot.reset with inService := true } } : State).boot.inService = true := by
  decide +kernel

/-- A device in service with every die up and its clock on. -/
def serving : State := { State.reset with
  boot := { Boot.reset with pwrOk := true, rstN := true, inService := true }
  dies := Vector.replicate 4 { Die.reset with pwr := { DiePower.reset with off := false, aclkOn := true } }
  pwc := { Pwc.reset with state := 0 }
  fab := { Fabric.reset with dieState := Vector.replicate 4 0, bundles := Vector.replicate 80 { Bundle.reset with status := 0x20FF0000#32 } } }

/-- ClockLosses: a device in service, its AON oscillator running, its stacks and dies up. -/
theorem wit_ClockLosses : serving.boot.inService = true ∧ fon clkFaultAonFallback serving.pwc.clkFault = false ∧
    ((vget serving.stks 7).selfRefresh = false ∧ fon stkLost (serving.stk 7).status = false) ∧
    ((serving.die 3).pwr.aclkOn = true ∧ serving.dieServes 3 = true) := by decide +kernel

/-- AdaptiveClockLoop: four dies up in a device in service; a die at 100 periods and at 99; 65 stretched cycles and 64. -/
theorem wit_AdaptiveClockLoop :
    serving.boot.inService = true ∧ (∀ d : Fin 4, serving.dieServes d = true ∧ (serving.die d).pwr.aclkOn = true) ∧
    (100 ≤ ({ DiePower.reset with droopFree := 100 } : DiePower).droopFree ∧ ({ DiePower.reset with droopFree := 99 } : DiePower).droopFree < 100) ∧
    (64 < ({ DiePower.reset with stretched := 65 } : DiePower).stretched ∧ ({ DiePower.reset with stretched := 64 } : DiePower).stretched ≤ 64) := by
  decide +kernel

/-- PowerMeasurementAndCap: an average one above the cap, below 98 % of it, and at it; the guard's thresholds. -/
theorem wit_PowerMeasurementAndCap :
    (let s : State := { serving with pwc := { serving.pwc with power := fput powerAvg1s 2701 serving.pwc.power } }
     fget powerCap s.pwc.power < fget powerAvg1s s.pwc.power ∧ s.extremeDie true = some 0) ∧
    (100 * fget powerAvg1s serving.pwc.power < 98 * fget powerCap serving.pwc.power ∧ serving.extremeDie false = some 0) ∧
    (let s : State := { serving with pwc := { serving.pwc with power := fput powerAvg1s 2700 serving.pwc.power } }
     fget powerAvg1s s.pwc.power ≤ fget powerCap s.pwc.power ∧ 98 * fget powerCap s.pwc.power ≤ 100 * fget powerAvg1s s.pwc.power) ∧
    2850 < 2851 ∧ 2799 < 2800 := by decide +kernel

/-- ThermalAndSupplyStops: a device in service with nothing wrong; one tripped, one browned out at its limits; an engine dark. -/
theorem wit_ThermalAndSupplyStops :
    (serving.boot.inService = true ∧ serving.tampering = false) ∧
    (let s : State := { serving with pwc := { serving.pwc with tripped := true } }
     s.pwc.tripped = true ∧ s.pwc.brown = false ∧ zonesCool ⟨[95, 95, 95, 95], 95, [85], [70]⟩ = true) ∧
    (let s : State := { serving with pwc := { serving.pwc with brown := true, overVolt := true } }
     s.pwc.brown = true ∧ s.pwc.tripped = false ∧ 40000 ≤ 40000 ∧ 40000 ≤ 60000) ∧
    (serving.pwc.oeDark.getLsbD 5 = false ∧ ({ serving.pwc with oeDark := 0x20#7 } : Pwc).oeDark.getLsbD 5 = true) ∧
    ((serving.die 3).pwr.aclkOn = true ∧ serving.dieServes 3 = true) ∧ fon stkLost (serving.stk 7).status = false := by decide +kernel

/-- The device in service with PWC.MODE as given. -/
def armed (target mask : Nat) : State :=
  { serving with pwc := { serving.pwc with mode := fput modeArmed 1 (fput modeDieMask mask (fput modeTarget target 0)) } }

/-- PowerTransitionsAndPads: each target armed; an exit from DIE_OFF of die 3. -/
theorem wit_PowerTransitionsAndPads :
    (fon modeArmed (armed 0 0).pwc.mode = true ∧ fget modeTarget (armed 0 0).pwc.mode = 0 ∧ fget modeDieMask (armed 0 0).pwc.mode = 0) ∧
    (fget modeTarget (armed 1 0).pwc.mode = 1 ∧ (armed 1 0).anyProgram = false) ∧
    (fget modeTarget (armed 2 15).pwc.mode = 2 ∧ (∀ d ∈ (armed 2 15).offTargets 15, (armed 2 15).dieBusy d = false ∧ (armed 2 15).programOn d = false)) ∧
    (fget modeTarget (armed 3 0).pwc.mode = 3 ∧ (armed 3 0).pwc.cmd = none ∧ fon clkFaultAonFallback (armed 3 0).pwc.clkFault = false) ∧
    (let s : State := { serving with pwc := { serving.pwc with exiting := 8#4 } }
     s.pwc.exiting = BitVec.twoPow 4 3 ∧
     (let e := (s.modDie 3 fun x => { x with pwr := { x.pwr with off := false, aclkOn := true, stretched := 0 } }).setAclk 3 0
      let e := ({ e with pwc := { e.pwc with padHold := e.pwc.padHold &&& ~~~(padBits 3), exiting := e.pwc.exiting &&& ~~~(BitVec.twoPow 4 3) } } : State).rejoinDie 3 [] []
      e.2 = true ∧ e.1.pwc.exiting = 0)) := by decide +kernel

/-- WatchSamplesAndWake: a sample exactly due; temperatures at and below WATCH_WAKE; VIN at both ends; the timer at its sample; a frame for
all slots, with the device halted and not. -/
theorem wit_WatchSamplesAndWake :
    (let s : State := { serving with aon := 250000, pwc := { serving.pwc with state := pwWatch, watchCfg := fput watchCfgTimerSamples 1 serving.pwc.watchCfg } }
     s.pwc.state = pwWatch ∧ s.pwc.watchAt + s.watchPeriod ≤ s.aon ∧ s.boot.wakeLatch = none ∧ s.tampering = false ∧
     zoneAtLeast ⟨[80], 0, [], []⟩ (fget thermCfgWatchWake s.pwc.thermCfg) = true ∧
     zoneAtLeast ⟨[79], 0, [], []⟩ (fget thermCfgWatchWake s.pwc.thermCfg) = false ∧
     (decide (39999 < 40000 ∨ 60000 < 39999) || !true) = true ∧ (decide (60000 < 40000 ∨ 60000 < 60000) || !true) = false ∧
     fget watchCfgTimerSamples s.pwc.watchCfg ≠ 0 ∧ fget watchCfgTimerSamples s.pwc.watchCfg ≤ s.pwc.watchTaken + 1 ∧
     fget watchCfgTimerSamples serving.pwc.watchCfg = 0) ∧
    (serving.boot.pwrOk = true ∧ serving.haltedForWake = false ∧
     ({ serving with boot := { serving.boot with ldgStart := fput ldgStartHalted 1 0 } } : State).haltedForWake = true) := by decide +kernel

/-- A program that runs on die 0 from address 0x1000, whose word at PC is `w`. -/
def running (w : List Byte) : State :=
  { serving with dies := vmod serving.dies 0 fun x => { x with
      spad := x.spad.wrs 0x1100 w
      seq := { x.seq with prog := some ⟨0, 0x1000, 8, 0, []⟩, pc := 0x110 } } }

/-- The bytes of an instruction word with an opcode and nothing else. -/
def opWord (opc : Nat) : List Byte := List.replicate 15 0 ++ [BitVec.ofNat 8 opc]

/-- What DispatchQueuesOrControls asks of a state whose next instruction has the opcode, with the queues of the die as they are. -/
def dispatchable (opc : Nat) (k : OpClass) : Bool :=
  let s := running (opWord opc)
  let r := ((s.upset []).readSpad 0 (collided 0 []) (16 * (s.die 0).seq.pc.toNat) 16).2
  let q : QInstr := ⟨BitVec.ofNat 128 (leNat r.data), (s.die 0).seq.pc, (s.die 0).seq.issued⟩
  s.dieServes 0 && !(s.die 0).hubClkLost && !(s.die 0).seq.stopped && inImage ⟨0, 0x1000, 8, 0, []⟩ (s.die 0).seq.pc && !r.bad &&
    decide (opClass q.opc = k) && q.opc == opc && !ctlBad q.n && !q.wen && !q.pen && (s.die 0).quiet

/-- DispatchQueuesOrControls: a word of each class, and of each control instruction; a PC outside the image; a full queue. -/
theorem wit_DispatchQueuesOrControls :
    dispatchable 0x20 .matrix = true ∧ dispatchable 0x40 (.engine .vxe 16) = true ∧ dispatchable 0x60 (.engine .mov 32) = true ∧
    dispatchable 0x70 (.engine .trn 8) = true ∧ dispatchable 0x80 (.engine .rng 8) = true ∧ dispatchable 0x21 .reserved = true ∧
    (∀ i : Fin 7, dispatchable i.1 .control = true) ∧ inImage ⟨0, 0x1000, 8, 0, []⟩ 0x118 = false ∧
    4 ≤ (List.replicate 4 (⟨0, 0, 0⟩ : QInstr)).length := by decide +kernel

/-- Descriptors in die 0's table: 0 a T16 vector at 0; 1 a T16 vector at 0x1000; 2 a W32 vector at 0x2000; 3, 4 and 5 TL64 vectors at
0x4000, 0x8000 and 0xC000; 6 an I4 vector at 0x3000 (spec 05 Table 5-2). -/
def tableState (e : Engine) (bits : BitVec 128) : State :=
  { serving with dies := vmod serving.dies 0 fun x => { x with
      spad := ⟨[(33, 0x10), (65, 0x20), (82, 1), (97, 0x40), (114, 8), (129, 0x80), (146, 8), (161, 0xC0), (178, 8), (193, 0x30), (210, 5)], []⟩
      seq := x.seq.setQueue e [⟨bits, 0, 0⟩] } }

/-- A vector instruction's word: opcode, FN, N less one, and the indices DD, DS1, DS2. -/
def vecBits (opc fn n dd ds1 ds2 : Nat) : BitVec 128 :=
  BitVec.ofNat 128 (opc * 2 ^ 120 + fn * 2 ^ 96 + n * 2 ^ 84 + dd * 2 ^ 60 + ds1 * 2 ^ 48 + ds2 * 2 ^ 36)

/-- 0 where the instruction runs from `tableState`, 1 where it is illegal, 2 where a parameter is poisoned. -/
def startCode (e : Engine) (bits : BitVec 128) (marks : List (Nat × Mark)) (body : Fin 4 → QInstr → List Nat → State → Start) : Nat :=
  let s := tableState e bits
  let s := s.modDie 0 fun x => { x with spad := { x.spad with marks := marks } }
  let q : QInstr := ⟨bits, 0, 0⟩
  if !s.dieServes 0 || !(s.die 0).waitMet q then 9
  else match body 0 q (collided 0 []) ((s.upset []).modDie 0 fun x => { x.takeWait q with seq := (x.takeWait q).seq.setQueue e [] }) with
    | .run _ _ => 0
    | .illegal _ => 1
    | .poisoned _ => 2
    | _ => 9

/-- EnginesStartTheirInstructions: each vector instruction running. -/
theorem wit_EnginesStartTheirInstructions_vxe :
    startCode .vxe (vecBits 0x40 0 0 0 0 0) [] vewBody = 0 ∧ startCode .vxe (vecBits 0x41 0 0 0 0 0) [] vcvtBody = 0 ∧
    startCode .vxe (vecBits 0x42 0 255 3 4 5) [] vtaddBody = 0 ∧ startCode .vxe (vecBits 0x43 0 0 1 0 0) [] vredBody = 0 ∧
    startCode .vxe (vecBits 0x44 0 0 1 0 2) [] vpermBody = 0 ∧ startCode .vxe (vecBits 0x44 1 0 1 0 2) [] vpermBody = 0 ∧
    startCode .vxe (vecBits 0x45 0 0 0 1 0) [] voptBody = 0 ∧ startCode .vxe (vecBits 0x45 1 0 0 1 0) [] voptBody = 0 := by decide +kernel

/-- EnginesStartTheirInstructions: each instruction of MOV, TRN and RNG running. -/
theorem wit_EnginesStartTheirInstructions_others :
    startCode .mov (vecBits 0x60 0 0 1 0 0) [] copyBody = 0 ∧ startCode .mov (vecBits 0x60 1 0 1 0 0) [] fillBody = 0 ∧
    startCode .mov (vecBits 0x60 2 0 1 0 0) [] hubopBody = 0 ∧ startCode .trn (vecBits 0x70 0 0 1 0 0) [] trnBody = 0 ∧
    startCode .trn (vecBits 0x70 1 0 1 0 0) [] trnBody = 0 ∧ startCode .trn (vecBits 0x70 2 0 1 0 0) [] trnBody = 0 ∧
    startCode .rng (vecBits 0x80 0 0 2 0 0) [] rngBody = 0 ∧ startCode .rng (vecBits 0x80 1 0 6 0 0) [] rngBody = 0 ∧
    startCode .rng (vecBits 0x80 2 0 2 0 0) [] rngBody = 0 := by decide +kernel

/-- EnginesStartTheirInstructions: a reserved bit, and a poisoned descriptor. -/
theorem wit_EnginesStartTheirInstructions_faults :
    startCode .vxe (vecBits 0x40 0 0 0 0 0 + 1) [] vewBody = 1 ∧ startCode .vxe (vecBits 0x40 0 0 0 0 0) [(0, .poison)] vewBody = 2 := by
  decide +kernel

/-- A device whose die 0 has a matrix instruction with the word at the head of its queue, and zero descriptors. -/
def matrixState (bits : BitVec 128) : State :=
  { serving with dies := vmod serving.dies 0 fun x => { x with seq := { x.seq with mxaQ := [⟨bits, 0, 0⟩] } } }

/-- An instruction in flight whose epilogue has run. -/
def epiDone : MxaFlight := ⟨⟨0x20#128 <<< 120, 0, 7⟩, 1, 1, 0, 0, false, none, some ⟨0, none, 0, false, false, none⟩, none⟩

/-- MatrixInstructionsRunAndComplete: a T16 by T16 multiplication of one term, legal and with a reserved bit; one in flight on bank 0. -/
theorem wit_MatrixInstructionsRunAndComplete :
    (let s := matrixState (0x20#128 <<< 120)
     let q : QInstr := ⟨0x20#128 <<< 120, 0, 0⟩
     let r := (s.upset []).readDescs 0 (collided 0 []) (mmulDescs (mmulOp q))
     s.dieServes 0 = true ∧ mmulWaits (s.die 0) (mmulOp q) = false ∧ (s.die 0).waitMet q = true ∧ mmulBad (mmulOp q) = false ∧
     (match r.2 with
       | some (some ds) => match r.1.mmulCheck 0 (mmulOp q) ds with
         | some (a, b, _, _) => !r.1.rangesWait (operandRanges 0 1 a ++ operandRanges 0 1 b)
         | none => false
       | _ => false) = true) ∧
    mmulBad (mmulOp ⟨(0x20#128 <<< 120) + (1#128 <<< 48), 0, 0⟩) = true ∧
    (let l := [epiDone]
     l.find? (fun f => (mmulBanks (mmulOp f.instr)).head? == some 0) = some epiDone ∧
     l.find? (fun g => g.instr.issue == epiDone.instr.issue) = some epiDone ∧ epiDone.epi = some ⟨0, none, 0, false, false, none⟩ ∧
     (serving.fab.pendingWrites.any fun w => w.writer == .mxa 0) = false) := by decide +kernel

/-- CompletionsWaitsAndSemaphores: a vector instruction in flight that raised nothing, one with a trap on INVALID, one with a refused write;
a wait exactly at its limit; a semaphore at the largest sum, and one past it. -/
theorem wit_CompletionsWaitsAndSemaphores :
    (let f := Flight.new ⟨vecBits 0x40 0 0 0 0 0, 0, 0⟩
     f.replyDue = false ∧ f.lost = none ∧ f.stat &&& flSkipped = 0#8 ∧ f.reject = none ∧ trapped (vecOp f.instr).trap f.stat = 0#8 ∧
     (serving.fab.pendingWrites.any fun w => w.writer == .engine 0 .vxe 0) = false) ∧
    (let f := { Flight.new ⟨vecBits 0x40 0 0 0 0 0 + (8#128 <<< 76), 0, 0⟩ with stat := flInvalid }
     f.reject = none ∧ trapped (vecOp f.instr).trap f.stat ≠ 0#8 ∧ f.stat &&& flSkipped = 0#8) ∧
    (let s : State := { matrixState 0 with aon := 10 }
     let w : SemWait := ⟨3, 4, true⟩
     let p : DieProgram := ⟨0, 0, 1, 6, []⟩
     p.waitLimit ≠ 0 ∧ w.since + p.waitLimit ≤ s.aon ∧ w.mxa = true ∧ (s.die 0).seq.mxaQ.head? = some ⟨0, 0, 0⟩ ∧ (s.die 0).seq.stopped = false) ∧
    (serving.twinStatus 0 = none ∧ (serving.die 0).semPoisoned 5 = false ∧
     (vget (serving.die 0).sems 5).toNat + (0xFFFFFFFF#32).toNat < 2 ^ 32 ∧ 2 ^ 32 ≤ (vget (vset (serving.die 0).sems 5 1#32) 5).toNat + (0xFFFFFFFF#32).toNat) := by
  decide +kernel

/-- MemoryUpkeep: a corrected word, in the scratchpad and in the hub; one that was not; a scrub at the first and at the last group; a window
that has ended, and one that has not. -/
theorem wit_MemoryUpkeep :
    (let r : Ram := ⟨[], [(7, .ce true)]⟩
     r.mark 7 = some (.ce true) ∧ r.mark 8 ≠ some (.ce true)) ∧
    (fget scrubPeriodH (serving.stk 7).scrub ≠ 0 ∧ fon stkLost (serving.stk 7).status = false ∧ serving.dieServes (dieIdx (7 / 2)) = true ∧
     (serving.stk 7).scrubPos + 1 < stackGroups) ∧
    stackGroups ≤ ({ (serving.stk 7) with scrubPos := stackGroups - 1 } : Stack).scrubPos + 1 ∧
    ((serving.stk 0).eraseWin < ({ serving with aon := 2 ^ 60 } : State).eraseWindow ∧ serving.eraseWindow ≤ (serving.stk 0).eraseWin) := by
  decide +kernel

/-- A device in service with the host link up. -/
def linked : State := { serving with host := { serving.host with linkUp := true } }

/-- The result of an HDM decode as a code: 0 outside, 1 nothing, 2 a twin region, 3 stack memory. -/
def hdmCode (a : Nat) : Nat := match hdmOf a with
  | .outside => 0
  | .nothing => 1
  | .twin _ _ _ => 2
  | .dev => 3

/-- HostMemoryAccesses: the first and the last byte of stack memory, the first byte beyond it, a twin region, all with the link up; a read
that gives data; a line that the host holds. -/
theorem wit_HostMemoryAccesses :
    linked.host.linkUp = true ∧ hdmCode 0 = 3 ∧ hdmCode (2 ^ 39 - 1) = 3 ∧ hdmCode (2 ^ 39) = 2 ∧ hdmCode (2 ^ 39 + 0x2000000) = 1 ∧
    (linked.fab.pendingWrites.any fun w => lineOf 0 ≤ w.line && w.line ≤ lineOf (0 + 64 - 1)) = false ∧
    linked.fab.hostFilter.length < hostFilterSize ∧
    (let r := (linked.upset []).readDev 0 64
     r.2.bad = false ∧ r.2.fail = none) ∧
    (let s : State := { linked with stks := vmap linked.stks fun _ x => { x with mem := ⟨[], [(0, .poison)]⟩ } }
     ((s.upset []).readDev 0 64).2.bad = true) ∧
    (let s : State := { linked with fab := { linked.fab with hostFilter := [⟨5, false⟩] } }
     (s.fab.hostFilter.any fun x => x.line == 5) = true) ∧ linked.twinStatus 0 = none := by decide +kernel

/-- RemoteCachesFollowHomes: a line on its way with and without an invalidation, an invalidation alone, and none. -/
theorem wit_RemoteCachesFollowHomes :
    (let x : Die := { Die.reset with fills := [⟨9, [], false⟩] }
     (x.fills.find? fun c => c.line == 9).isSome = true ∧ x.invals.contains 9 = false ∧ x.cache.length < cacheLines) ∧
    (let x : Die := { Die.reset with fills := [⟨9, [], false⟩], invals := [9] }
     (x.fills.find? fun c => c.line == 9).isSome = true ∧ x.invals.contains 9 = true) ∧
    (let x : Die := { Die.reset with invals := [9] }
     x.invals.contains 9 = true ∧ (x.fills.any fun c => c.line == 9) = false) ∧
    (∀ d : Fin 4, (serving.die d).invals.contains 9 = false) := by decide +kernel

/-- MemoryReadsAfterWrites: a memory with a byte and a mark. -/
theorem wit_MemoryReadsAfterWrites : (⟨[(3, 1)], [(0, .poison)]⟩ : Ram).wf = true := by decide

/-- BundleEntriesAndMargins: a carrying bundle with its run at 15 and at 16 failures; a window that has ended; AUTO off. -/
theorem wit_BundleEntriesAndMargins :
    (serving.bun 79).carries = true ∧ (serving.bun 79).rxNext = 0 ∧
    (({ (serving.bun 79) with failing := 15 } : Bundle).failing < 16 ∧ 16 ≤ ({ (serving.bun 79) with failing := 16 } : Bundle).failing) ∧
    (serving.bun 0).crc.win < ({ serving with aon := 2 ^ 60 } : State).crcWin ∧
    fon castleAuto (fput castleAuto 0 serving.fab.castleCfg) = false := by decide +kernel

/-- A device in which an activity of a kind runs. -/
def maintained (k : ActKind) : State := { serving with marb := { serving.marb with running := [⟨0, k, none, [], []⟩] } }

/-- CastlingAndRetraining: a castling and a retraining admitted on bundle 79, with a good spare and without one; a swap switched, its check
failing with another spare left and with none. -/
theorem wit_CastlingAndRetraining :
    ((maintained (.castle 79 5)).bundleAct 79 = some ⟨0, .castle 79 5, none, [], []⟩ ∧ (serving.bun 79).cast = none ∧
     (serving.bun 79).carries = true ∧ (serving.bun 79).nextSpare 0 = some 0 ∧
     ({ (serving.bun 79) with laneMap := 0xFEFEFEFE#32 } : Bundle).nextSpare 0 = none) ∧
    (let x := (serving.bun 79).setSt bsCastling
     x.st = bsCastling ∧ (x.setSpare 0 laneBad).nextSpare 0 = some 1 ∧ (x.setSpare 3 laneBad).nextSpare 3 = none) ∧
    ((maintained (.retrain 79)).bundleAct 79 = some ⟨0, .retrain 79, none, [], []⟩ ∧ (serving.bun 79).st ≠ bsRetrain) ∧
    ((serving.bun 79).setSt bsRetrain).st = bsRetrain := by decide +kernel

/-- ClockLossAndFencing: all bundles of die 3, and none; a fence that holds the die. -/
theorem wit_ClockLossAndFencing :
    (serving.dieServes 3 = true ∧
     (let enabled := (allFin 80).filter fun b =>
        decide (b.1 / 16 = 3) && decide ((serving.bun b).st ≠ bsOff ∧ (serving.bun b).st ≠ bsDisabled ∧ (serving.bun b).st ≠ bsFenced)
      enabled ≠ [] ∧ (∀ b ∈ enabled, b ∈ allFin 80) ∧ ∀ b ∈ enabled, b ∉ ([] : List (Fin 80)))) ∧
    (serving.dieSt 3 ≠ dsOff ∧ serving.dieSt 3 ≠ dsExcluded) ∧
    (let s : State := { serving with fab := { serving.fab with fences := vset serving.fab.fences 3 (some ⟨1, true, false⟩) } }
     vget s.fab.fences 3 = some ⟨1, true, false⟩) := by decide +kernel

/-- A device whose port 23 is in a state, its status register otherwise zero. -/
def portAt (st : Nat) : State := { serving with ports := vmod serving.ports 23 fun x => { x with status := fput pstState st x.status } }

/-- A flit with a head and an empty body, its CRC good. -/
def goodFlit (h : FlitHead) : List Byte := flitBytes h (List.replicate 244 0)

/-- FlitsInBothDirections: what a port sends has a good CRC. -/
theorem wit_FlitsInBothDirections_good (h : FlitHead) : flitGood (goodFlit h) = true := flitGood_flitBytes h _

/-- FlitsInBothDirections: an OFF port, an ACTIVE one; a flit that is no flit; good DATA flits with the expected number, 1 and 511 ahead, and
512 behind; a CTL flit due, a flit to replay, a full replay buffer, and nothing to send. -/
theorem wit_FlitsInBothDirections :
    (portAt pstOff).portState 23 = pstOff ∧ ((portAt pstActive).portState 23 ≠ pstOff ∧ (portAt pstActive).portState 23 ≠ pstLost) ∧
    flitGood [] = false ∧
    (let ok := fun (n : Nat) (lo hi : Nat) =>
      let f := goodFlit ⟨n, 0, 0, 0, false, 0, ftFirst, true⟩
      let h := FlitHead.parse f
      !h.nak && h.type == ftFirst && (fin? 8 h.vc).isSome && h.seq == n && decide (lo ≤ (n + 65536 - 0) % 65536 ∧ (n + 65536 - 0) % 65536 ≤ hi)
     (portAt pstActive).takesData 23 = true ∧ ((portAt pstActive).acked 23 0).takesData 23 = true ∧ (((portAt pstActive).acked 23 0).port 23).rx.expect = 0 ∧
     ok 0 0 0 = true ∧ ok 1 1 511 = true ∧ ok 511 1 511 = true ∧ ok 65024 65024 65535 = true) ∧
    ((portAt pstActive).port 23).tx.flits % 4096 ≠ 4095 ∧ (portAt pstActive).carries 23 = true ∧ (portAt pstRetrain).carries 23 = false ∧
    replayEntries ≤ 512 ∧
    (((portAt pstActive).port 23).choose false).isNone = true ∧
    (({ (portAt pstActive).port 23 with
        cfg := 0x2040FF42#32
        phy := { PortPhy.reset with vcs := 0xFF, partner := some ⟨0, 0xFF, 4, 0, 0xFF, List.replicate 8 1000⟩, maxMsg := 4 }
        tx := { LinkTx.reset with queues := (vset LinkTx.reset.queues 0 [⟨⟨Header.parse (List.replicate 64 0), []⟩, .mcp⟩]) } } : Port).choose false).isSome = true := by
  decide +kernel

/-- ACTIVE port 23 with a control flit waiting. -/
def withCtl (b : List Byte) : State := (portAt pstActive).modRx 23 fun r => { r with ctlIn := [b] }

/-- ControlFlitsActOnce: a flit of each subtype; FFE of the last tap of the last wavelength; notices of all wavelengths, of four, of none. -/
theorem wit_ControlFlitsActOnce :
    ((withCtl [1]).takeCtl 23 ctlSubParam).isSome = true ∧
    (let r := ((withCtl [2]).takeCtl 23 ctlSubSync)
     r.isSome = true ∧ (((withCtl [2]).port 23).tx.heldFrom 0).isSome = true ∧ (withCtl [2]).carries 23 = true) ∧
    (((withCtl [3, 7, 4, 1]).takeCtl 23 ctlSubFfe).isSome = true ∧ byteAt [3, 7, 4, 1] 1 ≤ 7 ∧ byteAt [3, 7, 4, 1] 2 ≤ 4) ∧
    (((withCtl [4, 0, 0]).takeCtl 23 ctlSubLambda).isSome = true ∧ min 2 (byteAt [4, 0, 0] 2) ≤ fget pstRateAct ((withCtl [4, 0, 0]).port 23).status ∧
     chooseLambdas 0 = 0 ∧ chooseLambdas 0xFF = 0xFF ∧ chooseLambdas 0x7F ≠ 0 ∧ chooseLambdas 0x7F ≠ 0xFF) ∧
    ((withCtl [5]).takeCtl 23 ctlSubProbe).isSome = true ∧ ((withCtl [6]).takeCtl 23 ctlSubEcho).isSome = true := by decide +kernel

/-- Port 23 in training, with all wavelengths good and a partner known; its EXPECT is the partner's position or another. -/
def training (expect : Nat) : State := (portAt pstTraining).modPort 23 fun x => { x with
  partner := (fput partnerExpect expect x.partner)
  phy := { x.phy with txGood := 0xFF, rxGood := 0xFF, partner := some ⟨7, 0xFF, 4, 0, 0xFF, []⟩ } }

/-- TrainingAndRetrainingOfPorts: ports OFF and enabled; training with all, with four and with three wavelengths, bound and misbound; a step
timeout; retraining at the first and at the last rate; a lost port whose wait has just passed. -/
theorem wit_TrainingAndRetrainingOfPorts :
    (fon portEnable 0x2040FF42#32 = true ∨ fon portEnable 0x2040FF40#32 = false) ∧
    (portAt pstOff).portState 23 = pstOff ∧ ((portAt pstActive).portOn 23 = true ∧ (portAt pstActive).portState 23 ≠ pstOff) ∧
    ((training 7).portState 23 = pstTraining ∧ chooseLambdas (0xFF &&& 0xFF) false ≠ 0 ∧ chooseLambdas (0x0F &&& 0xFF) false ≠ 0 ∧
      chooseLambdas (0x07 &&& 0xFF) false = 0) ∧
    (let up := fun (x : Nat) => ((training x).modPort 23 fun y => { y with
        partner := (fput partnerSeen 7 y.partner), phy := { y.phy with txLambda := 0xFF, rxLambda := 0xFF, light := true } }).misbound 23
     up 7 = false ∧ up 8 = true) ∧
    ((portAt pstRetrain).portState 23 = pstRetrain ∧ ((portAt pstRetrain).port 23).phy.partner = none ∧
      fget pstRateAct ((portAt pstRetrain).port 23).status < 2 ∧
      2 ≤ fget pstRateAct (fput pstRateAct 2 ((portAt pstRetrain).port 23).status)) ∧
    ((portAt pstLost).portState 23 = pstLost ∧ (portAt pstLost).portOn 23 = true ∧ ((portAt pstLost).port 23).phy.reacqAt ≤ (portAt pstLost).aon ∧
      (portAt pstLost).pwc.oeDark.getLsbD (23 / 4) = false) := by decide +kernel

/-- A header with a kind and a VC, and zeros. -/
def header (kind vc : Nat) : Header := { Header.parse (List.replicate 64 0) with kind := kind, vc := vc }

/-- ACTIVE port 23 with messages delivered. -/
def delivered (l : List Msg) : State := (portAt pstActive).modRx 23 fun r => { r with delivered := l }

/-- PortWindowsAndHousekeeping: each clause's state: 2^16 flits, the oldest flit at its time, a NACK with credit, a mark 2^20 ticks old, a window
past, a message held since before the grace time, a NACK for FWD_ACT, a management message. -/
theorem wit_PortWindowsAndHousekeeping :
    (portAt pstActive).carries 23 = true ∧ 0 + 65536 ≤ ({ LinkRx.reset with flits := 65536 } : LinkRx).flits ∧
    2 * (PortPhy.reset).rtt + 1000 ≤ 40 * (25 - 0) ∧
    ({ Port.reset with phy := { PortPhy.reset with vcs := 0xFF, partner := some ⟨0, 0xFF, 4, 0, 0xFF, List.replicate 8 8⟩ } } : Port).credit 5 ≠ 0 ∧
    0 + 1048576 ≤ 1048576 ∧ ((portAt pstActive).port 23).weight.win ≠ ({ portAt pstActive with aon := 2 ^ 60 } : State).weightWin ∧
    ({ portAt pstActive with aon := 2 ^ 60 } : State).inGrace 23 0 = false ∧
    (let m : Msg := ⟨header kNack 5, [BitVec.ofNat 8 kFwdAct]⟩
     ((delivered [m]).takeMsg 23 kNack).isSome = true) ∧
    (let m : Msg := ⟨header 0 vcMgt, []⟩
     ((delivered [m]).port 23).rx.delivered.find? (fun m => decide (m.hdr.vc = vcMgt)) = some m) := by decide +kernel

/-- PortWindowsAndHousekeeping: a NACK payload that names FWD_ACT. -/
theorem wit_PortWindowsAndHousekeeping_nack : ∃ l : List Byte, nkKind l = kFwdAct := ⟨List.replicate 40 (BitVec.ofNat 8 kFwdAct), by decide +kernel⟩

/-- A role of stage 3 valid in slot 0, with links both ways. -/
def roled (s : State) : State := { s with
  job := { s.job with roles := (vset s.job.roles 0 (fput roleValid 1 (fput roleStage 3 0))) }
  sle := { s.sle with up := (vset s.sle.up 0 { StageLink.reset with reg := fput sleState lkUp StageLink.reset.reg })
                      down := (vset s.sle.down 0 { StageLink.reset with reg := fput sleState lkUp StageLink.reset.reg }) } }

/-- A queue entry of micro-batch 0 of step 0, open. -/
def openEntry : QEntry := ⟨0, 0, 0, 0, false, false, 0, none, none, none⟩

/-- A message of a kind on a VC for stage 3, with flags, offset and payload, delivered on port 23 to a device whose role 0 has an open entry. -/
def staged (kind vc : Nat) (flags : BitVec 8) (off : Nat) (pay : List Byte) : State :=
  (roled (delivered [⟨{ header kind vc with stage := 3, flags := flags, offset := off }, pay⟩])).modMq 0 fun q =>
    { q with fq := [openEntry], bq := [openEntry] }

/-- Whether a segment on port 23 finds role 0, passes its epoch check and has an open entry. -/
def segmentReady (s : State) (k : Nat) (d : Dir) : Bool := match s.takeMsg 23 k with
  | some (m, t) => decide (t.epochCheck m.hdr = .pass) && t.roleOf m.hdr.stage == some 0 &&
      !t.mbq.dead.contains ⟨0, d, m.hdr.step, m.hdr.mbId⟩ && (((t.mq 0).queue d).find? fun x => x.order.isNone && x.step == m.hdr.step &&
        x.mb == m.hdr.mbId && x.eval == m.hdr.flags.getLsbD hfEval) == some openEntry && decide (0 ≤ epochDiff m.hdr.step (t.mq 0).step)
  | none => false

/-- SegmentsFillQueueEntries: a first segment, a whole payload, and one beyond the size, both ways; a drop, a QCREDIT, and its tick. -/
theorem wit_SegmentsFillQueueEntries :
    segmentReady (staged kFwdAct vcFwd 0 0 [1]) kFwdAct .fwd = true ∧
    segmentReady (staged kBwdGrad vcBwd (BitVec.twoPow 8 hfLast) 0 [1]) kBwdGrad .bwd = true ∧
    segmentReady (staged kFwdAct vcFwd 0 (2 ^ 20) [1]) kFwdAct .fwd = true ∧
    (fget payEntryMib ((staged kFwdAct vcFwd 0 0 [1]).mq 0).fpayNow = 1 ∧ fget payEntryMib ((staged kFwdAct vcFwd 0 0 [1]).mq 0).bpayNow = 1) ∧
    (match (staged kMbDrop vcFwd 0 0 []).takeMsg 23 kMbDrop with
      | some (m, t) => decide (t.epochCheck m.hdr = .pass) && t.roleOf m.hdr.stage == some 0
      | none => false) = true ∧
    ((delivered [⟨header kQcredit vcMgt, [0, 0, 0, 0]⟩]).takeMsg 23 kQcredit).isSome = true ∧ serving.aon % 16384 = 0 := by decide +kernel

/-- A message of die 0 to the micro-batch queue manager: its function, bytes 2 and 3, and what follows. -/
def hubop (unit fn a b : Nat) (rest : List Byte) : HubMsg :=
  ⟨0, unit, [BitVec.ofNat 8 unit, BitVec.ofNat 8 fn, BitVec.ofNat 8 a, BitVec.ofNat 8 b] ++ rest ++ List.replicate (28 - rest.length) 0, 0, 0⟩

/-- A device with that message waiting and slot 15 in a state, with a stash record of one extent. -/
def slotted (m : HubMsg) (st : Nat) (stash : Option Nat) : State :=
  let s : State := { serving with hubMsgs := [m] }
  (s.modMbq fun x => { x with records := [⟨0, .opened, 0, 0, 0, 0, 0, [0], 0, 0⟩] }).modSlot 15 fun x => { x with state := st, stash := stash }

/-- Whether a message of a function for slot 15 reaches its arguments. -/
def slotReady (s : State) (fn : Nat) : Bool := match s.hubMsg? 0 unitMbq fn with
  | some m => fin? 16 (byteAt m.bytes 2) == some 15 && (s.slot 15).state != slDropped && (s.slot 15).cause == 0 && (s.slot 15).firsts.isEmpty &&
      !(s.readHub (s.slotBase + 64 * 15) 64).2.bad
  | none => false

/-- StageUnitsAnswerHubops: a TAKE each way, and one with a reserved byte. -/
theorem wit_StageUnitsAnswerHubops_take :
    (let s := slotted (hubop unitMbq 1 0 0 []) slFwdWait none
     (s.hubOdd? 0 unitMbq [1, 2, 3, 4, 5, 6, 7]).isNone = true ∧ s.hubMsg? 0 unitMbq 1 = some (hubop unitMbq 1 0 0 []) ∧
     fin? 4 (byteAt (hubop unitMbq 1 0 0 []).bytes 2) = some 0 ∧ allZero ((hubop unitMbq 1 0 0 []).bytes.drop 4) = true ∧
     (∀ j, (s.slot j).state = slFwdWait ∧ (s.slot j).role = 0 ↔ j = 15) ∧ ∀ j, (s.slot j).state ≠ slFwdRun) ∧
    (let s := slotted (hubop unitMbq 1 0 1 []) slBwdWait none
     (∀ j, (s.slot j).state = slBwdWait ∧ (s.slot j).role = 0 ↔ j = 15) ∧ ∀ j, (s.slot j).state ≠ slBwdRun) ∧
    allZero ((hubop unitMbq 1 0 0 [1]).bytes.drop 4) = false := by decide +kernel

/-- StageUnitsAnswerHubops: FWD_DONE, BWD_DONE, STASH_ALLOC and STASH_MAP of one extent at offset 0x800, and DROP, of slot 15. -/
theorem wit_StageUnitsAnswerHubops_slots :
    (let s := slotted (hubop unitMbq 2 15 0 []) slFwdRun (some 0)
     slotReady s 2 = true ∧ s.doneError (s.slot 15) .fwd (hubop unitMbq 2 15 0 []).bytes = none) ∧
    (let s := slotted (hubop unitMbq 3 15 0 []) slBwdRun (some 0)
     slotReady s 3 = true ∧ s.doneError (s.slot 15) .bwd (hubop unitMbq 3 15 0 []).bytes = none) ∧
    (let m := hubop unitMbq 4 15 0 [1, 0, 0, 0, 0, 8, 0, 0]
     slotReady (slotted m slFwdRun (some 0)) 4 = true ∧ allZero (m.bytes.drop 12) = true ∧ leAt m.bytes 4 4 = 1 ∧ leAt m.bytes 8 4 = 0x800 ∧
     0x800 + 8 * 1 ≤ spadSize - twinBase) ∧
    (let m := hubop unitMbq 5 15 0 [0, 0, 0, 0, 1, 0, 0, 0, 0, 8, 0, 0]
     let s := slotted m slFwdRun (some 0)
     slotReady s 5 = true ∧ allZero (m.bytes.drop 16) = true ∧ (s.slot 15).running = true ∧ leAt m.bytes 8 4 = 1 ∧ leAt m.bytes 12 4 = 0x800 ∧
     (s.mbq.records.find? fun r => some r.idx == (s.slot 15).stash).isSome = true ∧ (s.readDev (s.linkAddr 0) 4).2.bad = false) ∧
    (let s := slotted (hubop unitMbq 6 15 0 []) slBwdRun none
     slotReady s 6 = true ∧ (s.slot 15).running = true) := by decide +kernel

/-- StageUnitsAnswerHubops: extents are free in the area of role 0's die; an evaluation of one micro-batch at a first stage. -/
theorem wit_StageUnitsAnswerHubops_rest :
    (let s := serving.modMbq fun x => { x with area := vset x.area 0 0x00010001#32 }
     (s.freeExtents 0 0).head?.isSome = true) ∧
    (let m := hubop unitMbq 7 0 0 [0, 0, 0, 0, 1, 0, 0, 0]
     let s : State := { serving with hubMsgs := [m], job := { serving.job with roles := (vset serving.job.roles 0 (fput roleValid 1 0)) } }
     s.hubMsg? 0 unitMbq 7 = some m ∧ allZero (m.bytes.drop 12) = true ∧ fin? 4 (byteAt m.bytes 2) = some 0 ∧ s.roleUsed 0 = true ∧
     (s.link 0 .bwd).exists_ = false ∧ leAt m.bytes 8 4 = 1 ∧ 1 ≤ (s.freeIdx 0 .fwd).length) := by decide +kernel

/-- A tensor group of ranks 0 and 1, of role 0, of which this device is `rank`; port 23 leads both ways. -/
def tGroup (rank : Nat) : GroupEntry := ⟨0, 1, 0, vcMgt, 0, 23, 23, 0, 0, rank, 0, [⟨0, true⟩, ⟨1, true⟩]⟩

/-- A state in which that group is active in slot 5, and tensor 0 has version 0 committed in WVT entry 0, of role 0's range. -/
def versioned (s : State) (rank : Nat) (st : BufState) : State := { s with
  job := { s.job with groups := vmod s.job.groups 5 fun x => { x with active := some (tGroup rank) } }
  wvt := { s.wvt with
    ranges := vset s.wvt.ranges 0 (fput rangeCount 1 (0 : Word))
    entries := [(0, ⟨0, 1, [⟨0, 0, 0, 0, 0, .committed⟩, ⟨0, 0, 0, 0, 0, st⟩]⟩)] } }

/-- An output of one segment on role 0's link down, not yet sent. -/
def outputOne : Output := ⟨.fwdAct, 0, 0, 0, false, none, false, 0, 64, 65536, 0, [], [], false, false, false, false, none⟩

/-- A GATHER of `n` bytes from rank 1 of group slot 5, of tensor entry 0, to address 0. -/
def gatherMsg (n : Nat) : HubMsg := hubop unitWvt 3 0 0 ([0, 0, 0, 0, 5, 0xFF, 1, 0] ++ natLe 8 0 ++ natLe 8 0 ++ natLe 4 n)

/-- A state in which die 0 gathers 64 bytes over port 23 and a message of a kind waits there. -/
def gathering (k : Nat) (path : Nat) (pay : List Byte) : State :=
  let s := versioned (delivered [⟨header k vcMgt, pay⟩]) 0 .empty
  { s with wvt := { s.wvt with gathers := vset s.wvt.gathers 0 (some ⟨gatherMsg 64, 0, path, 23, 0, 0, 0⟩) } }

/-- StageLinksShardsAndSparseBlocks: an output to send on a link with port 23 and credit. -/
theorem wit_StageLinksShardsAndSparseBlocks_send :
    (let s := (roled (portAt pstActive)).modLink 0 .fwd fun x => { x with
        reg := fput slePort0 23 x.reg, partnerGranted := 1, outputs := [outputOne] }
     (s.link 0 .fwd).state = lkUp ∧ (s.linkPorts (s.link 0 .fwd)).isEmpty = false ∧ (s.link 0 .fwd).nextOutput = some outputOne) := by
  decide +kernel

/-- StageLinksShardsAndSparseBlocks: a SHARD_REQ for this rank, one for the other with its port in use and out, SHARD_DATA short of the last byte
and with it on either path, and SHARD_FAIL. -/
theorem wit_StageLinksShardsAndSparseBlocks_shards :
    (let s := versioned (delivered [⟨header kShardReq vcMgt, natLe 32 (2 ^ 128 * 64)⟩]) 0 .empty
     (match s.takeMsg 23 kShardReq with
      | some (m, t) => (match t.shardFor m.hdr.group m.payload with
          | .here => true
          | _ => false) && (t.liveTensor (bytesWord m.payload 0) m.hdr.wver).isSome && !(t.readDev 0 64).2.bad && (t.readDev 0 64).2.fail.isNone
      | none => false) = true) ∧
    (let s := versioned (delivered [⟨header kShardReq vcMgt, natLe 32 (2 ^ 128 * 64)⟩]) 1 .empty
     (match s.takeMsg 23 kShardReq with
      | some (m, t) => (match t.shardFor m.hdr.group m.payload with
          | .away g => t.usablePort (g.portTo 0) == some 23
          | _ => false)
      | none => false) = true) ∧
    (versioned (portAt 5) 1 .empty).usablePort 23 = none ∧
    (let s := gathering kShardData 0 [1]
     (match s.takeMsg 23 kShardData with
      | some (m, t) => (match t.asker 23 m.hdr.wver (some m.hdr.offset) with
          | some (.die _ g) => decide (g.got + m.payload.length < gaBytes g.msg) && (t.writeDev .hub (gaDest g.msg) (m.payload.map some)).2.isNone
          | _ => false)
      | none => false) = true) ∧
    (gaBytes (gatherMsg 64) ≤ 0 + (List.replicate 64 (0#8 : Byte)).length) ∧
    (let s := gathering kShardFail 1 []
     (match s.takeMsg 23 kShardFail with
      | some (m, t) => (t.asker 23 m.hdr.wver none).isSome
      | none => false) = true) := by decide +kernel

/-- StageLinksShardsAndSparseBlocks: a block of one byte, whole and not, and one beyond the limit. -/
theorem wit_StageLinksShardsAndSparseBlocks_blocks :
    (let s := versioned (delivered [⟨{ header kSpBlock vcMgt with flags := BitVec.twoPow 8 hfLast }, [1]⟩]) 0 .empty
     (match s.takeMsg 23 kSpBlock with
      | some (m, t) => (t.activeGroup m.hdr.group).isSome && m.hdr.flags.getLsbD hfLast && decide (m.hdr.offset + m.payload.length ≤ 1024) &&
          decide (0 < m.hdr.offset + m.payload.length)
      | none => false) = true) ∧
    fget spbufLimitKib (fput spbufLimitKib 1 (0 : Quad)) = 1 ∧ (some 1 : Option Nat).any (coversBelow [(0, 1)]) = true ∧
    (some 2 : Option Nat).any (coversBelow [(0, 1)]) = false ∧ fin? 4 (tGroup 0).role = some 0 := by decide +kernel

/-- SlotsBindAndFree: a free slot and a complete forward entry, and slot 3 stashed, done and dropped, with its output acknowledged. -/
theorem wit_SlotsBindAndFree :
    (let s := (roled serving).modMq 0 fun q => { q with cfgNow := fput rcfgWarmup 1 (fput rcfgMbPerStep 1 q.cfgNow), fq := [{ openEntry with generated := true, total := some 0, order := some 0 }] }
     let g := forEach (allFin 4) State.generate s
     (∃ i, (g.slot i).state = slFree) ∧ (firstSome g.candidates fun c => g.tryHead 0 c.1 c.2.1 c.2.2).isSome = true) ∧
    (let s := serving.modSlot 3 fun x => { x with acked := true, state := slStashed }
     (s.slot 3).acked = true ∧ (s.slot 3).state = slStashed ∧ s.stashQuiet (s.slot 3) = true) ∧
    (let s := serving.modSlot 3 fun x => { x with acked := true, state := slDone }
     (s.slot 3).acked = true ∧ (s.slot 3).state = slDone) ∧
    ((serving.modSlot 3 fun x => { x with state := slDropped }).slot 3).state = slDropped := by decide +kernel

/-- WeightVersionsAnswerHubops: a LOOKUP that finds version 0 and one that finds no entry; OPEN_PENDING with an empty buffer and without; GATHER of a
live version, of none and of no bytes; a gather whose limit has passed. -/
theorem wit_WeightVersionsAnswerHubops :
    (let s := { versioned serving 0 .empty with hubMsgs := [hubop unitWvt 1 0 0 []] }
     s.hubOdd? 0 unitWvt [1, 2, 3, 4] = none ∧ s.hubMsg? 0 unitWvt 1 = some (hubop unitWvt 1 0 0 []) ∧
     allZero ((hubop unitWvt 1 0 0 []).bytes.drop 8) = true ∧ ((sget s.wvt.entries 0).map fun x =>
       x.bufs.findIdx? fun y => y.version == 0 && y.st != .empty) = some (some 0) ∧ sget s.wvt.entries 1 = none) ∧
    (let s := { roled (versioned serving 0 .empty) with hubMsgs := [hubop unitWvt 2 0 0 []] }
     s.hubMsg? 0 unitWvt 2 = some (hubop unitWvt 2 0 0 []) ∧ allZero ((hubop unitWvt 2 0 0 []).bytes.drop 3) = true ∧
     fin? 4 (byteAt (hubop unitWvt 2 0 0 []).bytes 2) = some 0 ∧ s.roleUsed 0 = true ∧ (vget s.wvt.pendingVer 0).isSome = false ∧
     (s.wvt.entriesOf 0).any (fun e => e.bufs.all fun b => b.st != .empty) = false ∧
     ((versioned serving 0 .old).wvt.entriesOf 0).any (fun e => e.bufs.all fun b => b.st != .empty) = true) ∧
    (let m := gatherMsg 64
     let s := { versioned serving 0 .empty with hubMsgs := [m] }
     s.hubMsg? 0 unitWvt 3 = some m ∧ s.gather? 0 = none ∧ ((sget s.wvt.entries (gaEntry m)).map fun x => x.live (gaVersion m)) = some true ∧
     s.entry (gaTSlot m) = some (tGroup 0) ∧ gaDest m + gaBytes m ≤ devSize ∧ gaRank m < 2 ∧ gaRank m ≠ (tGroup 0).rank ∧ gaDSlot m = 0xFF ∧
     gaBytes m ≠ 0 ∧ gaBytes (gatherMsg 0) = 0 ∧ (⟨0, 0, []⟩ : WvtEntry).live 0 = false) ∧
    (let s := { gathering kShardFail 0 [] with aon := 2 ^ 40 }
     ∃ g, s.gather? 0 = some g ∧ g.since + max 1 (fget wvtGatherLimit s.wvt.cfg) ≤ s.aon) := by
  refine ⟨by decide +kernel, by decide +kernel, by decide +kernel, ⟨_, rfl, by decide +kernel⟩⟩

/-- Whether a message of a kind waits on port 23 and meets a condition with the state after it is taken. -/
def taken (s : State) (k : Nat) (f : Msg → State → Bool) : Bool := match s.takeMsg 23 k with
  | some (m, t) => f m t
  | none => false

/-- A chain of one group of two members on port 23, active in slot 5, this device of rank 0; version 1 of role 0 pending. -/
def voting (s : State) : State :=
  let s := versioned s 0 .pending
  { s with
    job := { s.job with groups := vmod s.job.groups 5 fun x => { x with
      active := some { tGroup 0 with axis := 0, parent := 0xFF, vc := vcCtl }, status := fput grpState 1 x.status } }
    wvt := { s.wvt with pendingVer := vset s.wvt.pendingVer 0 (some (1 : Word)) } }

/-- A VOTE of role 0 on slot 5, YES, for step 1, its record at offset 0x800. -/
def voteMsgOf : HubMsg := hubop unitWvt 4 0 5 ([1, 0, 0, 0, 1, 0, 0, 0] ++ natLe 8 7 ++ natLe 4 0x800)

/-- A vote of role 0 for step 1 cast at tick 0, a decision held or not. -/
def voted (s : State) (held : Option DecisionRec) : State :=
  (voting s).modRv 0 fun v => { v with args := some (parseVoteArgs voteMsgOf.bytes), wver := 1, votedAt := some 0, held := held }

/-- A decision for step 1, version 1, at attempt 0. -/
def decided : DecisionRec := ⟨1, 1, true, 0, 0, 0, 0, 2, 2⟩

/-- CommitVotes: a VOTE that is accepted; a record and a malformed one. -/
theorem wit_CommitVotes_cast :
    (let s := { voting serving with hubMsgs := [voteMsgOf] }
     let a := parseVoteArgs voteMsgOf.bytes
     s.hubMsg? 0 unitWvt 4 = some voteMsgOf ∧ voteReserved voteMsgOf.bytes = false ∧ fin? 4 (byteAt voteMsgOf.bytes 2) = some 0 ∧
     vget s.wvt.pendingVer 0 = some 1 ∧ (s.rv 0).holds a.step = false ∧ s.voteSlotOk 0 a.slot = true ∧ twinOffOk a.drec 32 32 = true) ∧
    (let s := voting (delivered [⟨header kVote vcCtl, (⟨1, 1, 0, 0, 7, 7⟩ : VoteRec).bytes⟩])
     taken s kVote fun m t => t.epochCheck m.hdr = .pass && (parseVote m.payload).isSome && (t.voteRole m.hdr).isSome) ∧ parseVote [] = none := by decide +kernel

/-- CommitVotes: a decision not held, and one held; the vote limit at the anchor; a wait that has passed; a request answered. -/
theorem wit_CommitVotes_decide :
    (let s := voted (delivered [⟨header kDecision vcCtl, decided.bytes⟩]) none
     taken s kDecision fun m t => t.epochCheck m.hdr = .pass && parseDecision m.payload = some decided && (t.voteRole m.hdr).map (·.1) = some 0 &&
       (t.rv 0).held = none && (t.rv 0).args.map (fun a => epochDiff decided.step a.step) = some 0 && (t.rv 0).attempt ≤ decided.attempt) ∧
    ((voted serving (some decided)).rv 0).held = some decided ∧
    (let s := { voted serving none with aon := 2 ^ 40 }
     (s.rv 0).votedAt = some 0 ∧ isAnchor (s.voteChain 0) = true ∧ 0 + 1024 * max 1 (fget frCfgVoteLimit s.fr.cfg) ≤ s.aon ∧
     (s.rv 0).args.isSome = true ∧ (s.rv 0).askedAt + 1024 * max 1 (fget frCfgDecideWait s.fr.cfg) ≤ s.aon) ∧
    (let s := voted (delivered [⟨header kDecisionReq vcCtl, [1, 0, 0, 0, 0, 0, 0, 0]⟩]) (some decided)
     taken s kDecisionReq fun m t => t.epochCheck m.hdr = .pass && m.payload.length = 8 && allZero (m.payload.drop 5) &&
       (t.voteRole m.hdr).map (·.1) = some 0 && (t.rv 0).held = some decided && decided.step = bytesWord m.payload 0 &&
       decided.attempt = byteAt m.payload 4) := by decide +kernel

/-- A job of slot 0 in progress or not, on unit 0. -/
def jobOf (run : Option JobRun) : TlyJob := ⟨0, [], { parseJob [] with slot := 5, margin := 8 }, [(0, 1)], none, run, none, []⟩

/-- A run of step 0. -/
def runOf : JobRun :=
  ⟨0, false, 0, some 0, false, [], [], [], [], [], 0, false, false, false, 0, 0xFFFF, none, none, false, [], [], false⟩

/-- A state with job 7 in the table and a message of die 0 to tally engine 0. -/
def tallying (m : HubMsg) (run : Option JobRun) : State :=
  let s := voting { serving with hubMsgs := [m] }
  { s with tly := { s.tly with jobs := vset s.tly.jobs 7 (some (jobOf run)) } }

/-- The descriptor of ARM in hub memory at 0x1000: slot 5, ALLREDUCE, margin 8, one tensor, its record at 0x800. -/
def armDesc : List Byte :=
  [5, 0, 0x08, 0] ++ natLe 4 1 ++ natLe 4 0 ++ natLe 2 1 ++ natLe 2 0 ++ natLe 8 0x10000 ++ natLe 8 0x20000 ++ natLe 8 0x30000 ++
  natLe 8 0x40000 ++ natLe 8 0 ++ natLe 8 0 ++ natLe 8 0 ++ natLe 4 0x800 ++ List.replicate 52 0

/-- TallyJobsArmStartAndDisarm: an ARM whose descriptor passes; the job in progress. -/
theorem wit_TallyJobsArmStartAndDisarm_arm :
    (let m := hubop 0 1 7 0 ([0, 0, 0, 0] ++ natLe 4 0x1000)
     let s := (tallying m none).putHub 0x1000 armDesc
     let s := { s with ports := vmod s.ports 23 fun x => { x with phy := { x.phy with maxMsg := 2 } } }
     (firstSome [0, 1, 2, 3] fun u => s.hubOdd? 0 u [1, 2, 3]) = none ∧ s.tlyMsg? 0 1 = some m ∧ allZero (slice m.bytes 3 5) = true ∧
     allZero (m.bytes.drop 12) = true ∧ fin? 64 (byteAt m.bytes 2) = some 7 ∧ (s.tjob 7).any (·.busy) = false ∧
     (match s.readJob m.unit (leAt m.bytes 8 4) with
      | (_, .ok _) => true
      | (_, .error _) => false) = true) ∧
    (((tallying (hubop 0 1 7 0 []) (some runOf)).tjob 7).any (·.busy) = true) := by decide +kernel

/-- TallyJobsArmStartAndDisarm: a START of an idle job whose role has finished the step, one of an entry not armed, and one that a re-shard of
slot 5 holds; DISARM of an idle job and of one in progress. -/
theorem wit_TallyJobsArmStartAndDisarm_start :
    (let m := hubop 0 2 7 0 (natLe 4 0 ++ natLe 4 1)
     let s := (tallying m none).modMq 0 fun q => { q with stepStat := fput stepStep 1 q.stepStat }
     s.tlyMsg? 0 2 = some m ∧ byteAt m.bytes 3 = 0 ∧ allZero (m.bytes.drop 12) = true ∧ fin? 64 (byteAt m.bytes 2) = some 7 ∧
     s.tjob 8 = none ∧ s.tjob 7 = some (jobOf none) ∧ (s.reshardHolds (jobOf none) (bytesWord m.bytes 4)).isNone = true ∧
     s.jobRole (jobOf none) = some 0 ∧ s.roleFinished 0 (bytesWord m.bytes 4) = true ∧ (jobOf none).busy = false ∧
     (let s : State := { s with tly := { s.tly with reshards := [⟨0, BitVec.twoPow 64 5, [], [], []⟩] } }
      (s.reshardHolds (jobOf none) (bytesWord m.bytes 4)).isSome = true)) ∧
    (let m := hubop 0 3 7 0 []
     (tallying m none).tlyMsg? 0 3 = some m ∧ allZero (m.bytes.drop 3) = true ∧ (tallying m (some runOf)).tjob 7 = some (jobOf (some runOf)) ∧
     (jobOf (some runOf)).busy = true) := by decide +kernel

/-- A pre-roll segment of job 0, level 0, block 0: 576 bytes. -/
def preSegment : List Byte := [0, 0, 0, 0, 0, 0, 0, 0, 1, 0x08] ++ List.replicate 566 0

/-- 0 where a segment of a kind is of a job's current step, 1 where it was seen, 2 where no job has it, 3 where it is malformed. -/
def segmentCode (k : Nat) (run : JobRun) (pay : List Byte) (job : Bool) : Nat :=
  let s := voting (delivered [⟨header k vcCtl, pay⟩])
  let s := if job then { s with tly := { s.tly with jobs := vset s.tly.jobs 7 (some { jobOf (some run) with desc := { parseJob [] with slot := 5 } }) } } else s
  match s.takeMsg 23 k with
  | none => 9
  | some (m, t) =>
    if t.epochCheck m.hdr ≠ .pass then 9
    else match parseSeg (k == kTallyCopy) m.payload with
    | none => 3
    | some g => match t.jobFor g.job g.level m.hdr.group with
      | none => 2
      | some j => match t.trun j with
        | none => 9
        | some r => if m.hdr.step ≠ r.step then (if epochDiff m.hdr.step r.step < 0 then 4 else 9) else if r.seen.contains (g.key (k == kTallyCopy)) then 1 else 0

/-- TallySegmentsAndDeadlines: each case of a TALLY segment, and a TALLY_COPY segment. -/
theorem wit_TallySegmentsAndDeadlines :
    segmentCode kTally runOf preSegment true = 0 ∧ segmentCode kTally { runOf with seen := [⟨false, 2, 0, 0, 0⟩] } preSegment true = 1 ∧
    segmentCode kTally runOf preSegment false = 2 ∧ segmentCode kTally runOf [] true = 3 ∧
    segmentCode kTally { runOf with step := 1 } preSegment true = 4 ∧ segmentCode kTallyCopy runOf preSegment true = 0 := by decide +kernel

/-- TallySegmentsAndDeadlines: a window that has closed; no message. -/
theorem wit_TallySegmentsAndDeadlines_window :
    (let t : TlyJob := { jobOf (some runOf) with desc := { parseJob [] with slot := 5, deadline := 1 } }
     t.run = some runOf ∧ t.desc.op = opAllreduce ∧ t.desc.deadline ≠ 0 ∧ runOf.started = false ∧ runOf.absent = false ∧
     runOf.recorded = false ∧ runOf.openAt = some 0 ∧ 0 + t.desc.deadline ≤ 1) ∧ (serving.takeMsg 23 kTally).isNone = true := by decide +kernel

/-- A device that holds copies for position 0 on port 23, one slot, an area of 2^20 bytes, with a message waiting there. -/
def holding (k : Nat) (pay : List Byte) : State :=
  let s := delivered [⟨header k vcFill, pay⟩]
  s.modFr fun x => { x with hold := fput holdPort 23 (fput holdState 1 (fput holdSlots 1 (0 : Quad))), holdBytes := 2 ^ 20 }

/-- The answer to a pairing of a handle 9 over port 23, with or without the override. -/
def pairing (override : Bool) (pay : List Byte) : State :=
  (holding kPairAck pay).modFr fun x => { x with pairing := some ⟨9, 23, 1, override⟩ }

/-- CopiesPairAndArrive: PAIR that fits; PAIR_ACK with OK and with a refusal, with and without the override. -/
theorem wit_CopiesPairAndArrive_pair :
    taken (holding kPair (List.replicate 5 0 ++ [1] ++ List.replicate 26 0)) kPair (fun m t => m.payload.length == 32 &&
      allZero (slice m.payload 6 2) && allZero (m.payload.drop 16) && t.holdsFor 23 && fget holdOwner t.fr.hold == leAt m.payload 0 4 &&
      decide (byteAt m.payload 5 * leAt m.payload 8 8 ≤ t.fr.holdBytes)) = true ∧
    taken (pairing true (List.replicate 32 0)) kPairAck (fun m t => m.payload.length == 32 && allZero (m.payload.drop 12) &&
      decide (bytesHalf m.payload 0 = stOk) && decide (t.fr.pairing = some ⟨9, 23, 1, true⟩)) = true ∧
    bytesHalf ([1, 0, 0, 0] : List Byte) 0 ≠ stOk ∧ byteAt (List.replicate 32 (0 : Byte)) 2 = 0 := by decide +kernel

/-- CopiesPairAndArrive: a record's and a buffer's segment of one byte, and COPY_DONE's first and last. -/
theorem wit_CopiesPairAndArrive_copy :
    (let seg := fun (cls kind : Nat) => natLe 1 cls ++ [0] ++ natLe 1 kind ++ List.replicate 17 0 ++ natLe 4 1 ++ List.replicate 8 0 ++ [7]
     let ok := fun (cls kind : Nat) => taken (holding kCopyData (seg cls kind)) kCopyData (fun m t => decide (32 ≤ m.payload.length) &&
      allZero (slice m.payload 24 8) && leAt m.payload 20 4 == (m.payload.drop 32).length && decide (byteAt m.payload 1 < 4) &&
      decide (byteAt m.payload 3 < max 1 (fget holdSlots t.fr.hold)) && t.holdsFor 23 && byteAt m.payload 0 == cls && byteAt m.payload 2 == kind)
     ok 1 0 = true ∧ ok 2 3 = true) ∧ (delivered []).holdsFor 23 = false ∧
    taken (holding kCopyDone []) kCopyDone (fun _ t => t.holdsFor 23) = true := by decide +kernel

/-- A promotion with handle 9 to position 3, over port 23 from position 1. -/
def promoOf (phase : Nat) (wait : FillWait) (todo : List FillRange) : Promotion :=
  ⟨9, false, phase, 3, noPos, noPos, [⟨1, 23, 1⟩], 0, wait, [], [], false, false, [], todo, [], 0, 0, 0, false, 0⟩

/-- A promotion under way, with a message waiting on port 23. -/
def promoting (p : Promotion) (k : Nat) (pay : List Byte) : State :=
  (holding k pay).modFr fun x => { x with promotion := some p }

/-- FILL_DATA's payload: class, kind, offset 0 and bytes. -/
def fillSegment (cls kind n : Nat) : List Byte :=
  natLe 1 cls ++ [0] ++ natLe 1 kind ++ List.replicate 17 0 ++ natLe 4 n ++ List.replicate 8 0 ++ List.replicate n 7

/-- A range of one byte of kind 1, of tensor 0. -/
def rangeOf : FillRange := ⟨fillBuffer, 0, 0, 1, 0, 0, 0, 1, 0, 0, []⟩

/-- FillsServeAndArrive: a request for a record and for a buffer; for digests. -/
theorem wit_FillsServeAndArrive_requests :
    (let ok := fun (cls kind : Nat) => taken (holding kFillReq (natLe 1 cls ++ [0] ++ natLe 1 kind ++ List.replicate 29 0)) kFillReq (fun m _ =>
        m.payload.length == 32 && byteAt m.payload 3 == 0 && allZero (m.payload.drop 28) && decide (1 ≤ fqCls m.payload) &&
        decide (fqCls m.payload ≤ 5) && decide (fqRole m.payload ≤ 3) && fqCls m.payload == cls && fqKind m.payload == kind)
     ok fillRecord 0 = true ∧ ok fillBuffer 3 = true) ∧ fillRecord ≠ fillBuffer ∧
    taken (holding kDigestReq (List.replicate 4 0 ++ [15] ++ List.replicate 27 0)) kDigestReq (fun m _ =>
      m.payload.length == 32 && decide (byteAt m.payload 4 < 16) && allZero (m.payload.drop 5)) = true := by decide +kernel

/-- FillsServeAndArrive: a segment of the record; one of a range, and one too long; a failure; the limit; digests. -/
theorem wit_FillsServeAndArrive_data :
    (let ok := fun (p : Promotion) (cls kind n : Nat) => taken (promoting p kFillData (fillSegment cls kind n)) kFillData (fun m t =>
        decide (32 ≤ m.payload.length) && allZero (slice m.payload 24 8) && byteAt m.payload 3 == 0 &&
        leAt m.payload 20 4 == (m.payload.drop 32).length && decide (t.fr.promotion = some p) && p.onPort 23 && fqCls m.payload == cls &&
        leAt m.payload 12 8 == 0 && fqKind m.payload == kind && fqId m.payload == 0)
     ok (promoOf 3 .record []) fillRecord 0 1 = true ∧ ok (promoOf 4 .range [rangeOf]) fillBuffer 1 1 = true ∧
     ok (promoOf 4 .range [rangeOf]) fillBuffer 1 2 = true) ∧
    taken (promoting (promoOf 4 .range [rangeOf]) kFillFail (List.replicate 32 0)) kFillFail (fun m t =>
      m.payload.length == 32 && allZero (m.payload.drop 12) && t.fr.promotion.isSome) = true ∧
    (let s := { promoting (promoOf 4 .range [rangeOf]) kFillFail [] with aon := 2 ^ 60 }
     0 + 2 ^ 14 * max 1 (fget frCfgFillLimit s.fr.cfg) ≤ s.aon) := by decide +kernel

/-- DIGEST_DATA of one section, of role 0, with an empty table. -/
def digestSection : List Byte := [1] ++ List.replicate 15 0 ++ List.replicate 32 0

/-- FillsServeAndArrive: the last segment of DIGEST_DATA of one section. -/
theorem wit_FillsServeAndArrive_digests :
    (let s := (promoting (promoOf 2 .digests []) kDigestData []).modRx 23 fun r => { r with
        delivered := [⟨{ header kDigestData vcFill with flags := BitVec.twoPow 8 hfLast }, digestSection⟩] }
     taken s kDigestData (fun m t => (t.fillFrom 23 .digests).isSome && m.hdr.flags.getLsbD hfLast &&
      (match joined [] m with
        | some all => (match parseDigestData all with
          | some l => !l.isEmpty
          | none => false)
        | none => false)) = true) := by decide +kernel

/-- An identity record of position 3 with no role, entry, group or job, as bytes. -/
def emptyRecord : List Byte := (⟨3, List.replicate 4 (parseIdRole []), [0, 0, 0, 0], 0, [], [], []⟩ : IdRecord).bytes

/-- PromotionPhasesAndCutover: a promotion in each phase: its source up; located; with its record; filled; verified. -/
theorem wit_PromotionPhasesAndCutover_promote :
    (let s := (promoting (promoOf 1 .idle []) kFillReq []).modPort 23 fun x => { x with partner := fput partnerSeen 1 x.partner }
     (promoOf 1 .idle []).sources.any (fun x => s.sourceUp x) = true ∧ (promoOf 2 .idle []).wait = .idle) ∧
    (match parseIdRecord emptyRecord with
      | some x => (serving.recordLacks x).isNone && (let p := { promoOf 4 .idle [] with record := emptyRecord }
          p.filled.length == (p.ranges x).length && p.filled.all (fun f => p.matches_ x f) && !p.verified && p.todo.isEmpty)
      | none => false) = true := by decide +kernel

/-- PromotionPhasesAndCutover: what a record lacks where a die it names is out; a re-shard of no slot, whose lists are empty, and one whose staged
group is missing. -/
theorem wit_PromotionPhasesAndCutover_cutover :
    (let r : Reshard := ⟨9, BitVec.twoPow 64 5, [], [], []⟩
     let s : State := { serving with
       tly := { serving.tly with reshards := [r] }
       job := { serving.job with groups := vmod serving.job.groups 5 fun x => { x with
         staged := some { tGroup 0 with axis := 0, parent := 0xFF, vc := vcCtl } } } }
     (s.tly.reshards.find? fun r => s.oldSteps r.slots == 0) = some r ∧ s.adoptError r.slots = none ∧
     (match ((s.adoptGroups r.slots).rearmed r.rearm).2 with
      | .ok _ => true
      | .error _ => false) = true ∧ (s.doMoves (parseMoves (r.moves.length / 32) r.moves)).2 = none) ∧
    (serving.adoptError 1).isSome = true ∧
    (match (serving.rearmed [0, 1, 0, 0, 0, 0, 0, 0]).2 with
      | .ok _ => false
      | .error _ => true) = true := by decide +kernel

/-- ArbiterAdmitsInOrder: two activities that share nothing; a request that may not run, one that meets a running one, one that may be admitted. -/
theorem wit_ArbiterAdmitsInOrder :
    (let s := maintained (.fuse 0 0)
     let s := s.modMarb fun m => { m with running := m.running.map fun a => { a with resources := [(codeSec, 0)] } }
     s.heldSets = [[(codeSec, 0)]] ∧ s.actRefusal (.fuse 1 0) = none ∧ s.blocked [(codeSec, 0)] [] [] ≠ none ∧
     s.blocked [(0x1000, 0)] (s.actBudgets (.fuse 1 0)) [] = none ∧
     ({ s with fab := { s.fab with dieState := vset s.fab.dieState 1 (fput dieState dsOff (0 : Word)) } } : State).actRefusal (.dieReset 1) ≠ none) := by decide +kernel

/-- A maintenance activity of a kind runs as number 0, for the command of handle 9. -/
def commanded (k : ActKind) : State := { serving with marb := { serving.marb with running := [⟨0, k, some 9, [], []⟩] } }

/-- MaintenanceActivitiesEnd: each activity running, for a command; failures of a march; a stack that is lost. -/
theorem wit_MaintenanceActivitiesEnd :
    (commanded (.march 0 true false [] 0 0)).act? 0 = some ⟨0, .march 0 true false [] 0 0, some 9, [], []⟩ ∧
    fin? 4 0 = some 0 ∧ fin? 4 4 = none ∧ firstFail [] = none ∧ (firstFail [⟨0, 0, 0, []⟩]).isSome = true ∧
    (commanded (.scrub 1)).act? 0 = some ⟨0, .scrub 1, some 9, [], []⟩ ∧ serving.stackGone 0 = false ∧
    (serving.modStk 0 fun x => { x with status := fput stkLost 1 x.status }).stackGone 0 = true ∧
    (commanded (.thermal 0)).act? 0 = some ⟨0, .thermal 0, some 9, [], []⟩ ∧
    (commanded (.fuse 0 0x1000)).marb.running = [⟨0, .fuse 0 0x1000, some 9, [], []⟩] ∧
    (commanded (.castle 3 1)).act? 0 = some ⟨0, .castle 3 1, some 9, [], []⟩ ∧ (commanded (.retrain 3)).act? 0 = some ⟨0, .retrain 3, some 9, [], []⟩ ∧
    (commanded (.reeq 3)).act? 0 = some ⟨0, .reeq 3, some 9, [], []⟩ := by decide +kernel

/-- A reset of die 2 under way, drained or not. -/
def resetting (drained : Bool) : State := { serving with fab := { serving.fab with resets := vset serving.fab.resets 2 (some ⟨9, 0, 0, 0, true, drained⟩) } }

/-- DieResetDrainsAndRejoins: a drain with nothing waiting and with a write of the die waiting; one 1 ms old; a drained die. -/
theorem wit_DieResetDrainsAndRejoins :
    (vget (resetting false).fab.resets 2).map (·.drained) = some false ∧ (resetting false).dieBusy 2 = false ∧
    0 + ticksPerMs ≤ ({ resetting false with aon := ticksPerMs } : State).aon ∧ (vget (resetting true).fab.resets 2).map (·.drained) = some true ∧
    (let s := resetting false
     ({ s with fab := { s.fab with pendingWrites := [⟨0, [], false, .mxa 2, true, false⟩] } } : State).dieBusy 2 = true) := by decide +kernel

/-- Ring 3 enabled with CQ 0, of 16 entries, two descriptors submitted, and the link up. -/
def ringed : State := { linked with host := { linked.host with
  sqs := vmod linked.host.sqs 3 fun r => { r with cfg := fflag sqCfgEnable true (fput sqCfgLog2size 4 (fput sqCfgCq 0 r.cfg)), tail := 2 }
  cqs := vmod linked.host.cqs 0 fun r => { r with cfg := fflag cqCfgEnable true (fput cqCfgLog2size 4 r.cfg) } } }

/-- HostRingsMove: enabling with the CQ enabled and not; disabling with the CQ in use and not; tails of 15 and 16; a head; a fetch; a NOP and a
reserved opcode; the link. -/
theorem wit_HostRingsMove :
    (ringed.sq 5).on = false ∧ (let v : Word := fflag sqCfgEnable true (fput sqCfgLog2size 4 0)
      fon sqCfgEnable v = true ∧ 4 ≤ fget sqCfgLog2size v ∧ fget sqCfgLog2size v ≤ 16 ∧
      (ringed.cq ((ringed.modSq 5 fun r => { r with cfg := v }).sq 5).cqOf).on = true ∧ (linked.cq 0).on = false) ∧
    (ringed.cq 0).on = true ∧ fon cqCfgEnable 0#32 = false ∧ ringed.cqInUse 0 = true ∧ ringed.cqInUse 1 = false ∧
    (let v : Word := fflag cqCfgEnable true (fput cqCfgLog2size 16 0)
     fon cqCfgEnable v = true ∧ 4 ≤ fget cqCfgLog2size v ∧ fget cqCfgLog2size v ≤ 16) ∧
    (ringed.sq 3).on = true ∧ (ringed.sq 3).stopped = false ∧ (15#16).toNat < (ringed.sq 3).size ∧ (ringed.sq 3).size ≤ (16#16).toNat ∧
    (0#16).toNat < (ringed.cq 0).size ∧ ringed.host.linkUp = true ∧
    (let c := fun (n : Nat) => (⟨0, 0, BitVec.ofNat 512 n, .accepted, 0, 0, 0, 0⟩ : Command)
     decodeBad (c 0) = none ∧ decodeBad (c 3) = some dtOpcode) := by decide +kernel

/-- HostRingsMove: the port brought up in a device in service. -/
theorem wit_HostRingsMove_up :
    (let s : State := { serving with boot := { serving.boot with xUp := true }, pwc := { serving.pwc with oeDark := 0 } }
     s.boot.xUp = true ∧ s.pwc.state ≤ 1 ∧ s.pwc.oeDark.getLsbD 6 = false) := by decide +kernel

/-- A final record and a progress record of handle 9. -/
def recordOf (progress : Bool) : HostRecord := ⟨9, stOk, 0, 0, 0, 0, List.replicate 12 0, !progress, false, progress⟩

/-- CQ 0 with a record waiting, its tail and head. -/
def recorded (x : HostRecord) (tail head : Nat) : State := { ringed with host := { ringed.host with
  cqs := vmod ringed.host.cqs 0 fun r => { r with held := [x], tail := tail, head := head } } }

/-- A state whose one outstanding command has handle 9, an opcode, a state, and further descriptor bits. -/
def outstanding (opc : Nat) (st : CmdState) (args : Nat) : State := { linked with host := { linked.host with
  cmds := [⟨9, 0, BitVec.ofNat 512 (opc + args), st, 0, 0, 0, 0⟩] } }

/-- RecordsAndInterrupts: a record with room at the last entry; a progress record with 3 of 16 entries free; a full ring; a timer; progress due. -/
theorem wit_RecordsAndInterrupts :
    (let s := recorded (recordOf false) 15 8
     (s.cq 0).held = [recordOf false] ∧ (s.cq 0).on = true ∧ s.host.linkUp = true ∧ ((s.cq 0).tail + 1) % (s.cq 0).size ≠ (s.cq 0).head) ∧
    (let r := (recorded (recordOf true) 13 0).cq 0
     4 * (r.size - (r.tail + r.size - r.head) % r.size) ≤ r.size) ∧
    (let r := (recorded (recordOf false) 15 0).cq 0
     (r.tail + 1) % r.size = r.head) ∧
    (let s := { ringed with aon := 100, host := { ringed.host with
       cqs := vmod ringed.host.cqs 0 fun r => { r with cfg := fput cqCfgThresh 2 (fput cqCfgTimer 1 r.cfg), r := 1, first := some 0 } } }
     (s.cq 0).first = some 0 ∧ (s.cq 0).on = true ∧ fget cqCfgThresh (s.cq 0).cfg ≠ 0 ∧ fget cqCfgTimer (s.cq 0).cfg ≠ 0 ∧ (s.cq 0).r ≠ 0 ∧
     0 + 25 * fget cqCfgTimer (s.cq 0).cfg ≤ s.aon) ∧
    (∀ st : CmdState, st = .queued ∨ st = .running → ((outstanding 0x41 st 0).cmd? 9).map (fun c => (c.st, c.opc, isLong c.opc)) = some (st, 0x41, true)) ∧
    (isLong 0x32 = true ∧ isLong 0x35 = true ∧ (promoting (promoOf 1 .idle []) kFillReq []).fr.promotion.map (·.handle) = some 9) := by
  refine ⟨by decide +kernel, by decide +kernel, by decide +kernel, by decide +kernel, ?_, by decide +kernel⟩
  rintro st (rfl | rfl) <;> decide +kernel

/-- A command of handle 9 that may start: its opcode and arguments, placed at descriptor byte 8 and on. -/
def accepted (opc args : Nat) : State := outstanding opc .accepted (args * 2 ^ 64)

/-- The arguments of the command of handle 9, once it starts. -/
def started (s : State) (opc : Nat) (f : Command → State → Bool) : Bool := match s.begins 9 opc with
  | some c => f c (s.running 9)
  | none => false

/-- CommandsOfProgramsAndIdentity: each command starting; a target queued and none; port 23 quarantined; a die that serves; no role. -/
theorem wit_CommandsOfProgramsAndIdentity :
    started (accepted 0 0) 0 (fun _ _ => true) = true ∧
    (let s := accepted 1 4
     let s : State := { s with host := { s.host with cmds := s.host.cmds ++ [⟨4, 0, 0x41, .queued, 1, 0, 0, 0⟩, ⟨5, 0, 0, .running, 2, 0, 0, 0⟩] } }
     started s 1 (fun c t => match t.cmd? (BitVec.ofNat 64 (c.arg 8 8)), t.cmd? 5 with
      | some x, some y => (t.cancelTarget x).isSome && (t.cancelTarget y).isNone
      | _, _ => false) = true) ∧
    (let s := accepted 2 23
     let s : State := { s with ports := vmod s.ports 23 fun x => { x with status := fput pstState pstQuarantined x.status } }
     started s 2 (fun c t => port? (c.arg 8 1) == some 23 && t.portState 23 == pstQuarantined && t.portState 22 != pstQuarantined) = true) ∧
    started (accepted 0x11 (1 + 0x100 * 2 ^ 64)) 0x11 (fun c t => maskDies (c.arg 8 1) == [0] && c.arg 16 4 == 256 && t.dieServes 0 &&
      decide (256 + 256 ≤ spadSize)) = true ∧
    started (accepted 0x20 7) 0x20 (fun c t => c.arg 8 4 != 0xFFFFFFFF && !((allFin 4).any (fun r => t.roleUsed r) ||
      (allFin 64).any fun i => (t.grp i).active.isSome || (t.grp i).staged.isSome)) = true := by decide +kernel

/-- An image of one instruction of zeros, with its CRC (spec 06 Table 6-5). -/
def imageOf : List Byte := natLe 4 imageMagic ++ natLe 4 1 ++ natLe 8 0 ++ natLe 4 1114675946 ++ List.replicate 252 0

/-- CommandsOfProgramsAndIdentity: LOAD_PROGRAM of 272 bytes to die 0 at 0x100, and RUN_PROGRAM on a die that is off. -/
theorem wit_CommandsOfProgramsAndIdentity_load :
    started (accepted 0x10 ((1 + 0x100 * 2 ^ 32 + 272 * 2 ^ 64) * 2 ^ 64)) 0x10 (fun c t =>
      let ds := maskDies (c.arg 16 1)
      ds == [0] && c.arg 20 4 % 256 == 0 && c.arg 24 4 == 272 && (ds.all fun d => (t.imagesOn d).all fun x => !rangesMeet 256 272 x.1 x.2) &&
      (firstSome ds fun d => t.twinStatus d).isNone && decide (256 + 272 ≤ spadSize) && !rangesMeet 256 272 twinBase 2048 &&
      (match t.source (c.arg 8 8) 272 (some imageOf) with
        | (_, .ok b) => imageBad b 272 == none
        | _ => false)) = true ∧
    ({ serving with fab := { serving.fab with dieState := vset serving.fab.dieState 1 (fput dieState dsOff (0 : Word)) } } : State).dieServes 1 = false := by
  decide +kernel

/-- A role block of stage 3 without links: the reset configuration with one micro-batch a step, epoch 1. -/
def roleBlock : List Byte :=
  natLe 16 0xFFFFFFFF ++ natLe 16 0xFFFFFFFF ++ natLe 8 0x0420000000010001 ++ natLe 8 0x401 ++ natLe 8 0x401 ++ natLe 4 0 ++
  natLe 8 (2 ^ 32 + 2 ^ 31 + 3) ++ List.replicate 188 0

/-- A WVT entry of two buffers, the first committed. -/
def wvtBlock : List Byte := List.replicate 8 0 ++ [2] ++ List.replicate 119 0

/-- A group entry of positions 7 and 8 on port 23, this device being rank 0. -/
def groupBlock : List Byte :=
  [0, 0, 0, 0, 2, 0xFF, 23, 23] ++ natLe 4 0 ++ natLe 4 0 ++ natLe 2 2 ++ natLe 2 0 ++ List.replicate 44 0 ++
  natLe 8 (2 ^ 32 + 7) ++ natLe 8 (2 ^ 32 + 8)

/-- InstallsAndRemovals: a role block that passes, and one that does not; a removal with and without forwarding entries. -/
theorem wit_InstallsAndRemovals_roles :
    started (accepted 0x21 0) 0x21 (fun c t => c.arg 9 1 % 2 == 0 && fin? 4 (c.arg 8 1) == some 0 &&
      (match t.source (c.arg 16 8) 256 (some roleBlock) with
        | (u, .ok b) => (u.roleRefused 0 b (parseRoleBlock b)).isNone
        | _ => false)) = true ∧
    (serving.roleRefused 0 [] (parseRoleBlock [])).isSome = true ∧
    started (roled (accepted 0x21 (0x100 + 2 ^ 64 * 64))) 0x21 (fun c t => c.arg 9 1 % 2 == 1 && t.roleUsed 0 && c.arg 16 8 == 64 &&
      !(t.mbq.slots.toList.any fun x => x.running && x.role == 0) &&
      (match t.source (c.arg 16 8 + 80) 16 (some (List.replicate 16 0)) with
        | (_, .ok b) => !forwardingReserved b
        | _ => false)) = true := by decide +kernel

/-- InstallsAndRemovals: a table of one entry; a group entry of two members in a slot without an active one, and behind one. -/
theorem wit_InstallsAndRemovals_tables :
    started (accepted 0x22 (2 ^ 16)) 0x22 (fun c t => c.arg 10 2 == 1 && decide (c.arg 8 2 + 1 ≤ 4096) &&
      !(t.wvt.entries.any fun x => x.2.bufs.any (fun b => b.pins != 0)) &&
      (match t.source (c.arg 16 8) 128 (some wvtBlock) with
        | (_, .ok b) => (match parseWvtTable 1 b with
          | .ok l => l.length == 1
          | .error _ => false)
        | _ => false)) = true ∧
    started ((roled (accepted 0x23 5)).modJob fun j => { j with identity := 7 }) 0x23 (fun c t => c.arg 9 1 % 2 == 0 && fin? 64 (c.arg 8 1) == some 5 && (match t.source (c.arg 16 8) 64 (some groupBlock) with
      | (t, .ok b) => !groupReserved b && membersAllowed (leAt b 16 2) && (match t.source (c.arg 16 8) (64 + 8 * leAt b 16 2) (some groupBlock) with
        | (u, .ok w) => (match parseGroup w with
          | some e => !u.installBad 5 e && (u.grp 5).active.isNone
          | none => false)
        | _ => false)
      | _ => false)) = true ∧ epochDiff 0 1 < 0 := by decide +kernel

/-- InstallsAndRemovals: a removal of an active slot and of an empty one; an adoption that fits, one of no slot, one under a running job. -/
theorem wit_InstallsAndRemovals_groups :
    started (versioned (accepted 0x23 0x105) 0 .empty) 0x23 (fun c t => c.arg 9 1 % 2 == 1 && fin? 64 (c.arg 8 1) == some 5 && (t.grp 5).active.isSome &&
      !t.jobOn 5 && (t.grp 6).active.isNone) = true ∧
    (let s := accepted 0x24 32
     let g := { tGroup 0 with axis := 0, parent := 0xFF, vc := vcCtl }
     let s : State := { s with job := { s.job with groups := vmod s.job.groups 5 fun x => { x with staged := some { g with layout := 1 } } } }
     started s 0x24 (fun c t => (t.adoptError (BitVec.ofNat 64 (c.arg 8 8))).isNone && !(t.layoutRises 32).any (fun i => t.jobRuns i)) = true ∧
     (let s : State := { s with
        job := { s.job with groups := vmod s.job.groups 5 fun x => { x with active := some g } }
        tly := { s.tly with jobs := vset s.tly.jobs 7 (some (jobOf (some runOf))) } }
      (s.adoptError 32).isNone = true ∧ (s.layoutRises 32).any (fun i => s.jobRuns i) = true)) ∧
    (serving.adoptError 0).isSome = true := by decide +kernel

/-- RecoveryCommandsStart: a pairing with position 7 over port 23, the port good or lost; an area of 2^20 bytes held for position 7. -/
theorem wit_RecoveryCommandsStart_copies :
    started (accepted 0x30 (7 + 23 * 2 ^ 32 + 2 ^ 48)) 0x30 (fun c t => port? (c.arg 12 1) == some 23 && c.arg 8 4 == 7 && c.arg 14 1 == 1 &&
      t.fr.pairing.isNone && (let u := t.modFr fun x => { x with buddy := fput buddyBuddyPos 7 (fput buddyPort 23 (fput buddySlots 1 0)) }
        !clashing (u.otherBindings ++ u.groupBindings)) && !t.portOut 23) = true ∧ (portAt 5).portOut 23 = true ∧
    started (accepted 0x31 (7 + 23 * 2 ^ 32 + 2 ^ 40 + 2 ^ 127 + 2 ^ 148)) 0x31 (fun c t => port? (c.arg 12 1) == some 23 && c.arg 8 4 == 7 &&
      c.arg 13 1 == 1 && nbit (c.arg 16 8) 63 && decide (c.arg 16 8 % 2 ^ 40 + c.arg 24 8 ≤ devSize) &&
      (let u := t.modFr fun x => { x with hold := fput holdOwner 7 (fput holdPort 23 (fput holdSlots 1 (fput holdState 1 0))) };
        !clashing (u.otherBindings ++ u.groupBindings))) = true := by decide +kernel

/-- One source: the replica of position 1 on port 23; no binding. -/
def sourceBlock : List Byte := natLe 4 1 ++ [23, 1, 0, 0] ++ List.replicate 248 0

/-- RecoveryCommandsStart: PROMOTE to position 3 and FILL, from position 1 on port 23; FILL with a promotion under way. -/
theorem wit_RecoveryCommandsStart_fills :
    started (accepted 0x32 3) 0x32 (fun c t => t.fr.promotion.isNone && !((allFin 4).any fun r => t.roleUsed r) &&
      !((allFin 64).any fun i => (t.grp i).active.isSome || (t.grp i).staged.isSome) &&
      (match t.source (c.arg 16 8) 256 (some sourceBlock) with
        | (u, .ok b) => (match parseSources b, parseBindings b with
          | some l, some bs => !sourcesOdd b && !l.isEmpty && (let named := bs ++ l.map fun x => (x.port.1, x.pos)
              !(named.any fun x => (port? x.1).isNone) && !clashing (named ++ u.otherBindings))
          | _, _ => false)
        | _ => false)) = true ∧
    started (accepted 0x33 0) 0x33 (fun c t => t.fr.promotion.isNone && !((allFin 4).any fun d => (t.die d).seq.prog.isSome) &&
      (match t.source (c.arg 16 8) 64 (some sourceBlock) with
        | (_, .ok b) => (match parseSources b with
          | some l => !sourcesOdd b && !l.isEmpty
          | none => false)
        | _ => false)) = true ∧
    started ((accepted 0x33 0).modFr fun x => { x with promotion := some (promoOf 1 .idle []) }) 0x33 (fun _ t => t.fr.promotion.isSome) = true := by
  decide +kernel

/-- RecoveryCommandsStart: a drain of role 0 to host memory and to port 23; a re-shard of slot 5 without lists. -/
theorem wit_RecoveryCommandsStart_drains :
    started (roled (accepted 0x34 1)) 0x34 (fun c t => c.arg 8 1 == 1 && t.roleUsed 0 && c.arg 9 1 == 0) = true ∧
    started (roled (accepted 0x34 (0x101 + 2 ^ 32 * 0xFFFFFFFF + 23 * 2 ^ 64))) 0x34 (fun c t => c.arg 8 1 == 1 && t.roleUsed 0 && c.arg 9 1 == 1 &&
      port? (c.arg 16 1) == some 23 && t.seen 23 == BitVec.ofNat 32 (c.arg 12 4)) = true ∧ (portAt pstActive).carries 23 = true ∧
    (portAt 5).carries 23 = false ∧
    (let s := accepted 0x35 32
     let g := { tGroup 0 with axis := 0, parent := 0xFF, vc := vcCtl }
     started (s.modJob fun j => { j with groups := vmod j.groups 5 fun x => { x with staged := some g } }) 0x35 (fun c t =>
      (t.adoptError (BitVec.ofNat 64 (c.arg 8 8))).isNone && t.tly.reshards.isEmpty && c.arg 32 4 == 0 && c.arg 36 4 == 0 &&
      (match t.source (c.arg 16 8) 0 (some []) with
        | (u, .ok rb) => rb.isEmpty && (match u.source (c.arg 24 8) 0 (some []) with
          | (_, .ok mb) => !movesReserved 0 mb && (parseMoves 0 mb).isEmpty
          | _ => false)
        | _ => false)) = true) := by decide +kernel

/-- MaintenanceCommandsAskTheArbiter: each command starting with arguments in range. -/
theorem wit_MaintenanceCommandsAskTheArbiter :
    started (accepted 0x41 1) 0x41 (fun c _ => c.arg 8 1 == 1) = true ∧
    started (accepted 0x42 (0x5000 * 2 ^ 16)) 0x42 (fun c _ => c.arg 8 1 == 0 && (bundleOf (c.arg 10 2)).isSome) = true ∧
    started (accepted 0x42 (1 + 0x5000 * 2 ^ 16 + 65 * 2 ^ 32)) 0x42 (fun c _ => c.arg 8 1 == 1 && c.arg 12 1 == 65 && (bundleOf (c.arg 10 2)).isSome) = true ∧
    started (accepted 0x42 (2 + 0x7017 * 2 ^ 16)) 0x42 (fun c _ => c.arg 8 1 == 2 && portOf (c.arg 10 2) == some 23) = true ∧
    started (accepted 0x42 (3 + 0x1000 * 2 ^ 16)) 0x42 (fun c _ => c.arg 8 1 == 3 && zoneCode (c.arg 10 2)) = true ∧
    started (accepted 0x43 5) 0x43 (fun c _ => c.arg 8 1 == 5) = true ∧ started (accepted 0x44 3) 0x44 (fun c _ => fin? 4 (c.arg 8 1) == some 3) = true ∧
    started (accepted 0x40 (1 * 2 ^ 16 + 1 * 2 ^ 32)) 0x40 (fun c _ => !marchArgsBad c && c.arg 10 1 == 1 && c.arg 8 1 == 0 &&
      !marchPortB 0 1 marchMats) = true ∧
    (marchMats ++ marchC ++ marchSs).any elemBad = false ∧
    started (accepted 0x40 (1 * 2 ^ 24 + 1 * 2 ^ 32)) 0x40 (fun c t => !marchArgsBad c && c.arg 10 1 == 0 && c.arg 11 1 == 1 &&
      (match t.source (c.arg 24 8) 4 (some [0x10, 0, 0, 0x08]) with
        | (_, .ok b) => !([bytesWord b 0].any elemBad) && !marchPortB 0 1 [bytesWord b 0]
        | _ => false)) = true ∧ [(0 : Word)].any elemBad = true := by decide +kernel

/-- MaintenanceCommandsAskTheArbiter: a request admitted, one that may not run, one blocked, and one beyond its path's limit. -/
theorem wit_MaintenanceCommandsAskTheArbiter_requests :
    (let s := accepted 0x44 3
     s.actRefusal (.fuse 0 0) = none ∧ s.overPath (s.actBudgets (.fuse 0 0)) (fun _ => 0) = none ∧
     s.blocked (actResources (.fuse 0 0)) (s.actBudgets (.fuse 0 0)) s.marb.queue = none) ∧
    (maintained (.fuse 0 0)).actRefusal (.dieReset 0) = none ∧ (portAt 5).actRefusal (.reeq 23) = some dtState ∧
    (let s := (commanded (.fuse 0 0)).modMarb fun m => { m with running := m.running.map fun a => { a with resources := actResources (.fuse 0 0) } }
     s.blocked (actResources (.fuse 1 0)) (s.actBudgets (.fuse 1 0)) s.marb.queue ≠ none ∧ s.marb.queue.length < 64) ∧
    (let s := serving.modMarb fun m => { m with wdog := 0 }
     s.actRefusal (.scrub 1) = none ∧ s.overPath (s.actBudgets (.scrub 1)) (fun _ => 0) ≠ none) := by decide +kernel

/-- PowerAndSecurityCommands: each POWER command starting with nothing that refuses it, and what refuses each. -/
theorem wit_PowerAndSecurityCommands_power :
    started (accepted 0x50 0x100) 0x50 (fun c t => c.arg 8 1 == 0 && t.pwc.cmd.isNone && !(maskDies (c.arg 9 1)).any fun d => t.dieFenced d || t.dieSt d == dsExcluded) = true ∧
    started (accepted 0x50 1) 0x50 (fun c t => c.arg 8 1 == 1 && t.pwc.cmd.isNone && !t.anyProgram) = true ∧
    started (accepted 0x50 0x102) 0x50 (fun c t => c.arg 8 1 == 2 && (maskDies (c.arg 9 1)) == [0] && !t.programOn 0 && !t.roleNames 0 && !t.dieHeld 0) = true ∧
    started (accepted 0x50 3) 0x50 (fun c t => c.arg 8 1 == 3 && !t.anyProgram && t.job.identity == 0 && !fon clkFaultAonFallback t.pwc.clkFault) = true ∧
    ({ serving with fab := { serving.fab with dieState := vset serving.fab.dieState 0 (fput dieState dsExcluded (0 : Word)) } } : State).dieSt 0 = dsExcluded := by
  decide +kernel

/-- PowerAndSecurityCommands: ATTEST; LIFECYCLE from FACTORY's state 1 to 2 with a manifest, and one to 4, which is no transition. -/
theorem wit_PowerAndSecurityCommands_commands :
    started (accepted 0x51 0) 0x51 (fun _ _ => true) = true ∧
    (let s := (accepted 0x52 2).modSec fun x => { x with fuses := { x.fuses with lifeWords := [1] } }
     started s 0x52 (fun c t => t.sec.wipe.isNone && (lifeSigners 1 (c.arg 8 1)).isSome && !t.anyProgram && (lifeSigners 1 4).isNone &&
      (match t.source (c.arg 16 8) manifestBytes (some []) with
        | (_, .ok _) => true
        | _ => false)) = true) := by decide +kernel

/-- PowerAndSecurityCommands: a voltage tamper in a live device, in one that is not live, and without PWR_OK; wipes of each pass. -/
theorem wit_PowerAndSecurityCommands_tamper :
    serving.tamperSensor false true false = some 2 ∧ serving.boot.pwrOk = true ∧ serving.live = true ∧ (pins true false).live = false ∧
    (pins false false).boot.pwrOk = false ∧ (pins true false).tamperSensor false false true = some 3 ∧
    (serving.modSec fun x => { x with wipe := some (3, 0) }).sec.wipe = some (3, 0) ∧ (serving.marb.running.any fun a => a.resources.contains (codeSec, 0)) = false := by
  decide +kernel

/-- RegisterAccesses: a host with its link; an access of 3 bytes; LINK_ERR of port 0's slot; a part of it with a snapshot; the upper half of PWC.CLK_FAULT;
an offset without a register; a register of die 1 out of service. -/
theorem wit_RegisterAccesses :
    linked.reaches .host = true ∧ State.reset.reaches .host = false ∧ accessOk 0 3 = false ∧ accessOk (Reg.addr (.linkErr 0)) 8 = true ∧
    regAt (Reg.addr (.linkErr 0)) = some (.linkErr 0, 0) ∧ regAt (Reg.addr (.linkErr 0) + 4) = some (.linkErr 0, 4) ∧ (Reg.linkErr 0).bytes ≠ 4 ∧
    ((linked.keepSnap .host (.linkErr 0) 5).snaps .host).find? (fun y => y.off == (Reg.linkErr 0).addr) = some ⟨(Reg.linkErr 0).addr, 5⟩ ∧
    regAt (Reg.addr .clkFault + 4) = some (.clkFault, 4) ∧ Reg.clkFault.bytes = 4 ∧ regAt 0xF0000 = none ∧ 0xF0000 < cxlBlock ∧
    accessOk 0xF0000 4 = true ∧ regAt (Reg.addr (.die 1 .fault)) = some (.die 1 .fault, 0) ∧
    ({ linked with fab := { linked.fab with dieState := vset linked.fab.dieState 1 (fput dieState dsOff (0 : Word)) } } : State).blockOut 1 = true := by
  decide +kernel

/-- DebugRequestsNeedDebugOpen: a device that honours debug and one that does not; a register; an address within hub SRAM and one beyond. -/
theorem wit_DebugRequestsNeedDebugOpen :
    (let s : State := { serving with boot := { serving.boot with mpUp := true }, sec := { serving.sec with status := fput secDbgActive 1 serving.sec.status } }
     s.debugOpen = true) ∧ State.reset.debugOpen = false ∧ regAt 0 = some (.devId, 0) ∧ siteHas .hub 0 = true ∧ siteHas .hub (2 ^ 60) = false ∧
    regAt 0xF0000 = none := by
  decide +kernel

/-- T16EncodingsHaveTheirValues: every E from 0 to 255, F at its bounds, and a value that encodes with E = 0. -/
theorem wit_T16EncodingsHaveTheirValues :
    (∃ S E F : Nat, S < 2 ∧ F < 128 ∧ E = 0xFF ∧ 1 ≤ F ∧ F ≤ 0x7E) ∧ nbits (encT16 .rne false 0 (.fin true 1 (-200) false)).1 14 7 = 0 :=
  ⟨⟨1, 0xFF, 0x7E, by decide⟩, by decide +kernel⟩

/-- The largest finite magnitude and the smallest that is not zero (spec 02 R23). -/
theorem test_t16_extremes : decT16 0x7F7F = .fin false 255 120 false ∧ decT16 0x0080 = .fin false 128 (-133) false := by decide +kernel

/-- IntegersRoundAndClamp: a value below, within and above the range of I4. -/
theorem wit_IntegersRoundAndClamp :
    (6, 4, true) ∈ [(4, 8, true), (5, 8, false), (6, 4, true), (7, 4, false)] ∧ -(roundMag .rne 0 17 (-1) false 0 : Int) = -8 ∧
    -(roundMag .rne 0 9 0 false 0 : Int) < -2 ^ (4 - 1) ∧ (2 ^ (4 - 1) - 1 : Int) < (roundMag .rtz 0 8 0 false 0 : Int) := by decide +kernel

/-- ZeroSumsAndSigns: two finite values of one magnitude. -/
theorem wit_ZeroSumsAndSigns : 0 < 3 ∧ 0 < 6 ∧ shl 3 (1 - min 1 0) = shl 6 (0 - min 1 0) := by decide

/-- RegisterMapIsExact: the last byte of a 32-byte entry of the violation log, and the first and the last byte of die blocks (Table 21-2). -/
theorem wit_RegisterMapIsExact :
    31 < max 8 (Reg.vlog 23 63).bytes ∧ regAt 0x570FFF = some (.vlog 23 63, 31) ∧ regAt 0x1000000 = some (.die 0 .descBase, 0) ∧
    regAt 0x1604007 = some (.die 3 .collide, 7) := by decide +kernel

/-! ## Values worked out in the spec -/

/-- Encodings of spec 02 Table 2-14. -/
theorem test_encodings : decT16 0xC020 = .fin true 160 (-6) false ∧ (encT16 .rne false 0 (decT16 0x0001)).1 = 0 ∧
    decT16 0x7F81 = .nan false 1 ∧ (encW32 .rne false 0 (decT16 0x7F81)).1 = 0x7FC00001 ∧
    (encT16 .rne false 0 canonNan).1 = 0x7FFF ∧ (encW32 .rne false 0 (.nan false 6)).1 = 0x7FC00006 ∧
    decP8 0x38 0x7F = .fin false 8 (-3) false ∧ decP8 0xBC 0x7F = .fin true 12 (-3) false ∧ decP8 0x01 0x7F = .fin false 1 (-9) false ∧
    decP4 0x9 0x7F = .fin true 1 (-1) false := by decide +kernel

/-- One P8 block of maximum 1,000 (spec 02, the worked example after Table 2-14): its face, and 1,000, −3.7 and 0.003 as W32 values. -/
theorem test_p8_block : faceP8 [decW32 0x447A0000, decW32 0xC06CCCCD] = 0x81 ∧
    encP8 .rne false 0 0x81 (decW32 0x447A0000) = (0x78, 0) ∧ encP8 .rne false 0 0x81 (decW32 0xC06CCCCD) = (0xB7, 0) ∧
    encP8 .rne false 0 0x81 (decW32 0x3B449BA6) = (0x00, 0) := by decide +kernel

/-- Four W32 values onto the grid 2^−40 (spec 02, the same section). -/
theorem test_tally_grid : encTl (-40) (decW32 0x40400000) = (3298534883328, false, 0) ∧ encTl (-40) (decW32 0xA9000000) = (0, false, 0) ∧
    encTl (-40) (decW32 0x7F800000) = (0, true, tlPinf) ∧ encTl (-40) (decW32 0x7FC00002) = (0, true, tlNan) := by decide +kernel

/-- Terms of 480 × 480 under faces 0xF0 and 0xE0, summed in W32X and read out (spec 03, the worked example after R58). -/
theorem test_w32x_readout :
    let term := (mulV (decP8 0x7F 0xF0) (decP8 0x7F 0xE0)).1
    let sum := ((List.range 64).foldl (fun (a : Val) _ => roundX .rne 0 (addV a term).1) (Val.zero false))
    encW32X sum = BitVec.ofNat 34 (0x2E8 * 2 ^ 23 + 0x610000) ∧ encW32 .rne false 0 sum = (0x7F800000, flOverflow) ∧
    encW32 .rne true 0 sum = (0x7F7FFFFF, flOverflow) ∧
    encW32 .rne false 0 (roundX .rne 0 (mulV sum (decW32 0x03800000)).1) = (0x78610000, 0) := by decide +kernel

/-- The eight terms of the worked example of spec 04 R82: on grid 0 they sum to 6; on grid 1 to 0; in NEAREST one after the other they give
what rounding to even at 2^24 leaves. -/
theorem test_tally_and_nearest :
    let a := [0x4B80, 0x3F80, 0x3F80, 0x3F80, 0xCB80, 0x3F80, 0x3F80, 0x3F80].map fun x => (mulV (decT16 x) (decT16 0x3F80))
    let tally := fun g => (a.foldl (tallyStep g 0 0 0) { v := ⟨0, false, false, false, false⟩ }).v.n
    let near := (a.foldl (addStep .rne 0 0 0 0) { v := .zero false }).v
    tally 0 = 6 ∧ tally 1 = 0 ∧ (encW32 .rne false 0 near).1 = 0x40400000 := by decide +kernel

/-- The SUM of the worked example of spec 05 R102: the NaN of lane 4, with NANPROP and no INVALID; EMPTY when every lane is masked. -/
theorem test_vred_sum :
    redGroup 0 0 [some (decW32 0x3F800000), none, some (decW32 0x4B800000), some (decW32 0x3F800000), some (decW32 0x7FC00001),
      some (decW32 0xCB800000)] = (.nan false 1, flNanprop, none) ∧
    redGroup 0 0 (List.replicate 6 none) = (.zero false, flEmpty, none) := by decide +kernel

/-- Indices 3, 0, 4 and 1.5 into four elements (spec 05, the worked example after R104). -/
theorem test_permute_indices : permIndex 4 (decW32 0x40400000) = some 3 ∧ permIndex 4 (decW32 0) = some 0 ∧
    permIndex 4 (decW32 0x40800000) = none ∧ permIndex 4 (decW32 0x3FC00000) = none := by decide +kernel

/-- A loss scale of 2^16 backed off by one becomes 2^15 (spec 05, the worked example after R108). -/
theorem test_back_off : backOff 1 0x47800000 = (0x47000000, 0) := by decide +kernel

/-- Device address 0x25_0000_3000 in both modes (spec 08, the worked example after Table 8-7). -/
theorem test_device_place :
    (let p := devPlace State.reset.regionMode 0x2500003000; p.die = 1 ∧ p.stack = 3 ∧ p.off = 0x280001000) ∧
    (let p := devPlace (vset State.reset.regionMode 2 (BitVec.twoPow 64 20)) 0x2500003000; p.die = 3 ∧ p.stack = 6 ∧ p.off = 0x280001000) := by
  decide +kernel

/-- Part codes (spec 01, the worked example after Table 1-4). -/
theorem test_part_codes : codeBundle 41 = 0x4029 ∧ partUnit 3 1 = 0x2031 ∧ partStack 5 = 0x3005 := by decide

/-- The home of block 3 of 4 in a ring of 4 is rank 3 (spec 13, the worked example after R248). -/
theorem test_tally_home : homeOf (0, 4) 4 3 = 3 := by decide

/-- The same example: 2.75 × 2^61 passes 2^62 by one; the final element 9 × 2^50 on grid −60, and the grid entry it leaves. -/
theorem test_tally_doubling : intPasses (11 * 2 ^ 59) = 1 ∧ intPasses (3 * 2 ^ 60) = 0 ∧
    nextGrid 2 ⟨-60, 0, 0, 9 * 2 ^ 50 :: List.replicate 255 0⟩ = 0xFFBE ∧ encW32 .rne false 0 (ofInt (9 * 2 ^ 50) (-60)) = (0x3C100000, 0) := by
  decide +kernel

/-- A bundle with lane 12 fused bad and lane 20 failing in training maps them to S0 and S1; with lanes 5, 9 and 27 bad as well it enters
HALF on the high half, with lane 40 in place of lane 9 it is DISABLED (spec 09, the worked example before R172). -/
theorem test_bundle_spares :
    (let x := (State.reset.bun 21).train [12] [20]; x.st = bsActive ∧ x.laneMap = 0xFFFF140C) ∧
    (let x := (State.reset.bun 21).train [12] [5, 9, 20, 27]; x.st = bsHalf ∧ fget (27, 27) x.status = 1) ∧
    ((State.reset.bun 21).train [12] [5, 20, 27, 40]).st = bsDisabled := by decide +kernel

/-! ## Operands that no part gives -/

theorem test_wf_attempts : (Instr.bs01Supply [[⟨0, 0, []⟩, ⟨0, 0, []⟩, ⟨0, 0, []⟩]]).wf = true ∧
    (Instr.bs01Supply [List.replicate 4 ⟨0, 0, []⟩]).wf = false := by decide
theorem test_wf_upset : (Instr.mmul 0 [⟨.hub, 0xBFFFFF, .single⟩]).wf = true ∧ (Instr.mmul 0 [⟨.hub, 0xC00000, .single⟩]).wf = false ∧
    (Instr.mmul 0 [⟨.hub, 0, .collide⟩]).wf = false := by decide
theorem test_wf_lines : (Instr.hostMemRead 60 4 0 false []).wf = true ∧ (Instr.hostMemRead 60 8 0 false []).wf = false ∧
    (Instr.hostMemWrite 0 [] false []).wf = false ∧ (Instr.backInvalidateResponse 0 (some [1])).wf = false := by decide
theorem test_wf_words : (Instr.spadCeWriteback (.stack 0) 0).wf = false ∧ (Instr.stkCeWriteback 0 (2 ^ 30)).wf = false := by decide
theorem test_wf_lanes : (Instr.eyeMeasurement 0 [1]).wf = false ∧ (Instr.bundleRetrainComplete 0 [70]).wf = false ∧
    (Instr.lclkMissing 1 [0]).wf = false ∧ (Instr.tertiFlitReceive 0 0 true []).wf = false := by decide
theorem test_wf_training : (Instr.trainingStepTimeout 0 7 false 0).wf = false ∧ (Instr.ffeReqCount 0 0 5 0).wf = false ∧
    (Instr.ffeReqCount 0 0 0 2).wf = false := by decide
theorem test_wf_columns : (Instr.marchComplete 0 [⟨0, 0, 0, [(136, 0)]⟩]).wf = false ∧ (Instr.dieResetRejoin 0 [(0, 72)] []).wf = false ∧
    (Instr.dieOffExitComplete 0 [] [2]).wf = false := by decide
theorem test_wf_batch : (Instr.descriptorFetch 0 [some []]).wf = false ∧ (Instr.descriptorFetch 0 (List.replicate 17 none)).wf = false := by decide
theorem test_wf_temps : (Instr.thermalLoopTick ⟨[20, 20, 20, 20], 20, List.replicate 8 20, List.replicate 7 20⟩).wf = true ∧
    (Instr.thermalTripRestart ⟨[], 20, [], []⟩).wf = false := by decide
theorem test_wf_access : (Instr.registerWrite .host 4 8 0).wf = false ∧ (Instr.rcRegisterRead .host 0 2).wf = false ∧
    (Instr.mpDebugRequest (.blowFuses 6 0 [])).wf = false ∧ (Instr.mpDebugRequest (.readRegister 4)).wf = false := by decide

end Sys2Proof.Tests
end

section
/-!
SUPPORT. What the loss of a clock does (spec 01 R18, Table 1-7): one rule for a command's end, one equation for each loss whose
conditions hold, and O13 (ClockLosses) put together from them.
-/
namespace Sys2Proof.Machine

/-! ## The end of a command, in the terms of the statements -/

theorem ran_eq_next_after (f : State → State) (s : State) : ran f s = .next (s.after (f s)) := rfl

theorem ranStill_eq_next_afterStill (f : State → State) (s : State) : ranStill f s = .next (s.afterStill (f s)) := rfl

theorem State.live_of_inService {s : State} (h : s.boot.inService = true) : s.live = true := by
  simp [State.live, h]

/-! ## Each clock command runs its own effect -/

theorem exec_refOscLost (s : State) : exec .refOscLost s = .next (s.afterStill (s.clockStop clkFaultRefLost 7)) :=
  ranStill_eq_next_afterStill doRefOscLost s

theorem exec_fclkLockLost (s : State) : exec .fclkLockLost s = .next (s.afterStill (s.clockStop clkFaultFclkLost 4)) :=
  ranStill_eq_next_afterStill doFclkLockLost s

theorem exec_gclkLockLost (s : State) : exec .gclkLockLost s = .next (s.afterStill (s.clockStop clkFaultGclkLost 5)) :=
  ranStill_eq_next_afterStill doGclkLockLost s

theorem exec_aonOscStopped (s : State) : exec .aonOscStopped s = .next (s.afterStill (doAonOscStopped s)) :=
  ranStill_eq_next_afterStill doAonOscStopped s

theorem exec_aonOscillatorReturn (s : State) : exec .aonOscillatorReturn s = .next (s.afterStill (doAonOscillatorReturn s)) :=
  ranStill_eq_next_afterStill doAonOscillatorReturn s

theorem exec_clkFaultWrite (v : Word) (s : State) : exec (.clkFaultWrite v) s = .next (s.afterStill (doClkFaultWrite v s)) :=
  ranStill_eq_next_afterStill (doClkFaultWrite v) s

theorem exec_aclkLockLost (d : Fin 4) (s : State) : exec (.aclkLockLost d) s = .next (s.after (doAclkLockLost d s)) :=
  ran_eq_next_after (doAclkLockLost d) s

theorem exec_mclkLockLost (k : Fin 8) (s : State) : exec (.mclkLockLost k) s = .next (s.after (doMclkLockLost k s)) :=
  ran_eq_next_after (doMclkLockLost k) s

/-! ## The effect of each loss where its conditions hold -/

theorem State.clockStop_of_live {s : State} (hlive : s.live = true) (bit : Fld) (dom : Nat) :
    s.clockStop bit dom = (s.clockLost bit dom).stop stopClock .after false := by
  simp [State.clockStop, hlive]

theorem doAonOscStopped_of_running {s : State} (hrun : fon clkFaultAonFallback s.pwc.clkFault = false) :
    doAonOscStopped s = ((s.clockLost clkFaultAonLost 6).modPwc fun p =>
      { p with clkFault := fput clkFaultAonFallback 1 p.clkFault }).emit (.report rpClock [6]) := by
  simp [doAonOscStopped, hrun]

theorem doMclkLockLost_of_up {s : State} {k : Fin 8} (hlive : s.live = true) (hawake : (vget s.stks k).selfRefresh = false)
    (hup : fon stkLost (s.stk k).status = false) :
    doMclkLockLost k s = ((s.clockLost clkFaultMclkLost (0x10 + k.1)).modPwc fun p =>
      { p with mclkLost := p.mclkLost ||| BitVec.twoPow 8 k.1 }).loseStack k 1 := by
  simp [doMclkLockLost, hlive, hawake, hup]

@[simp] theorem State.dieServes_modPwc (s : State) (f : Pwc → Pwc) (d : Fin 4) : (s.modPwc f).dieServes d = s.dieServes d := rfl

@[simp] theorem State.dieServes_modDie (s : State) (c : Fin 4) (f : Die → Die) (d : Fin 4) :
    (s.modDie c f).dieServes d = s.dieServes d := rfl

@[simp] theorem State.dieServes_clockLost (s : State) (bit : Fld) (dom : Nat) (d : Fin 4) :
    (s.clockLost bit dom).dieServes d = s.dieServes d := rfl

theorem State.gateDie_of_serves {s : State} {d : Fin 4} (hserves : s.dieServes d = true) :
    s.gateDie d = (s.modDie d fun x => { x with pwr := { x.pwr with aclkOn := false } }).startFence d 1 := by
  simp [State.gateDie, hserves]

theorem doAclkLockLost_of_serves {s : State} {d : Fin 4} (hon : (s.die d).pwr.aclkOn = true) (hserves : s.dieServes d = true) :
    doAclkLockLost d s = (((s.clockLost clkFaultAclkLost d.1).modPwc fun p =>
      { p with clkFault := fput (8 + d.1, 8 + d.1) 1 p.clkFault }).modDie d fun x =>
        { x with pwr := { x.pwr with aclkOn := false } }).startFence d 1 := by
  simp [doAclkLockLost, hon, State.gateDie_of_serves, hserves]

/-- Settles O13: each loss in a device in service meets the conditions under which its effect is the one stated; the return of the
AON oscillator and the write have none. -/
theorem clockLosses : Obligations.ClockLosses := by
  unfold Obligations.ClockLosses
  refine ⟨fun s hs => ?_, exec_aonOscillatorReturn, fun s v => exec_clkFaultWrite v s⟩
  have hlive := State.live_of_inService hs
  refine ⟨?_, ?_, ?_, fun hrun => ?_, fun k hawake hup => ?_, fun d hon hserves => ?_⟩
  · rw [exec_refOscLost, State.clockStop_of_live hlive]; rfl
  · rw [exec_fclkLockLost, State.clockStop_of_live hlive]; rfl
  · rw [exec_gclkLockLost, State.clockStop_of_live hlive]; rfl
  · rw [exec_aonOscStopped, doAonOscStopped_of_running hrun]; rfl
  · rw [exec_mclkLockLost, doMclkLockLost_of_up hlive hawake hup]; rfl
  · rw [exec_aclkLockLost, doAclkLockLost_of_serves hon hserves]; rfl

end Sys2Proof.Machine
end

section
/-!
SUPPORT. The number formats of spec 02: the fields of a floating-point encoding (R23), encoding into the integer formats (R41) and
zeros in sums, products and quotients (R26), with O57, O58 and O59 put together from them.
-/
namespace Sys2Proof.Machine

/-! ## The fields of a floating-point encoding -/

theorem signBit_eq (s : Bool) (k : Nat) : signBit s k = b2n s * 2 ^ k := by
  cases s <;> simp [signBit, b2n]

/-- Sign, exponent and fraction as one number over the fraction's weight: each field is then a quotient or a remainder. -/
theorem fields_eq (eb fb S E F : Nat) : S * 2 ^ (eb + fb) + E * 2 ^ fb + F = F + 2 ^ fb * (E + 2 ^ eb * S) := by
  rw [Nat.pow_add]; ring

theorem frac_fields {fb F : Nat} (eb S E : Nat) (hF : F < 2 ^ fb) : (S * 2 ^ (eb + fb) + E * 2 ^ fb + F) % 2 ^ fb = F := by
  rw [fields_eq, Nat.add_mul_mod_self_left, Nat.mod_eq_of_lt hF]

theorem div_fields {fb F : Nat} (eb S E : Nat) (hF : F < 2 ^ fb) :
    (S * 2 ^ (eb + fb) + E * 2 ^ fb + F) / 2 ^ fb = E + 2 ^ eb * S := by
  rw [fields_eq, Nat.add_mul_div_left _ _ (by positivity), Nat.div_eq_of_lt hF, Nat.zero_add]

theorem exp_fields {eb fb E F : Nat} (S : Nat) (heb : 0 < eb) (hE : E < 2 ^ eb) (hF : F < 2 ^ fb) :
    nbits (S * 2 ^ (eb + fb) + E * 2 ^ fb + F) (eb + fb - 1) fb = E := by
  have hwidth : eb + fb - 1 - fb + 1 = eb := by omega
  rw [nbits, hwidth, div_fields eb S E hF, Nat.add_mul_mod_self_left, Nat.mod_eq_of_lt hE]

theorem sign_fields {eb fb S E F : Nat} (hS : S < 2) (hE : E < 2 ^ eb) (hF : F < 2 ^ fb) :
    nbit (S * 2 ^ (eb + fb) + E * 2 ^ fb + F) (eb + fb) = (S == 1) := by
  rw [nbit, Nat.add_comm eb fb, Nat.pow_add 2 fb eb, ← Nat.div_div_eq_div_mul, ← Nat.pow_add, Nat.add_comm fb eb,
    div_fields eb S E hF, Nat.add_mul_div_left _ _ (by positivity), Nat.div_eq_of_lt hE, Nat.zero_add, Nat.mod_eq_of_lt hS]

/-- What a floating-point encoding of given fields decodes to (R38). -/
theorem decFloat_fields {eb fb S E F : Nat} (heb : 0 < eb) (hS : S < 2) (hE : E < 2 ^ eb) (hF : F < 2 ^ fb) :
    decFloat eb fb (S * 2 ^ (eb + fb) + E * 2 ^ fb + F) =
      if E = 0 then .zero (S == 1)
      else if E = 2 ^ eb - 1 then (if F = 0 then .inf (S == 1) else .nan (S == 1) (tagOfFrac fb F))
      else .fin (S == 1) (2 ^ fb + F) ((E : Int) - ((2 ^ (eb - 1) - 1 : Nat) : Int) - (fb : Int)) false := by
  rw [decFloat, sign_fields hS hE hF, exp_fields S heb hE hF, frac_fields eb S E hF]

/-- What a T16 encoding of given fields decodes to (Table 2-3). -/
theorem decT16_fields {S E F : Nat} (hS : S < 2) (hE : E < 256) (hF : F < 128) :
    decT16 (S * 2 ^ 15 + E * 2 ^ 7 + F) =
      if E = 0 then .zero (S == 1)
      else if E = 0xFF then (if F = 0 then .inf (S == 1) else .nan (S == 1) F)
      else .fin (S == 1) (128 + F) ((E : Int) - 134) false := by
  have hdec := decFloat_fields (eb := 8) (fb := 7) (by decide) hS hE hF
  have hexp : (E : Int) - ((2 ^ (8 - 1) - 1 : Nat) : Int) - (7 : Nat) = (E : Int) - 134 := by norm_num; ring
  rwa [hexp] at hdec

/-! ## Rounding to a number of significant bits -/

theorem lt_two_pow_bitLen (m : Nat) : m < 2 ^ bitLen m := by
  unfold bitLen
  split
  · omega
  · exact Nat.lt_log2_self

theorem roundMag_of_le {q e : Int} (h : q ≤ e) (rm : Rm) (u m : Nat) (st : Bool) : roundMag rm u m e st q = shl m (e - q) :=
  if_pos h

/-- Every mode rounds to the quotient or to the next number (R34, Table 2-9). -/
theorem roundMag_le_succ {q e : Int} (h : e < q) (rm : Rm) (u m : Nat) (st : Bool) :
    roundMag rm u m e st q ≤ m / 2 ^ (q - e).toNat + 1 := by
  rw [roundMag, if_neg (by omega)]
  cases rm with
  | rtz => exact Nat.le_succ _
  | rne => dsimp only; split <;> omega
  | sr => dsimp only; split <;> omega

/-- A magnitude rounded to `p` significant bits is at most 2^p: it reaches 2^p only by a carry. -/
theorem roundMag_le_two_pow (p : Nat) (rm : Rm) (u m : Nat) (e : Int) (st : Bool) :
    roundMag rm u m e st (e + (bitLen m : Int) - (p : Int)) ≤ 2 ^ p := by
  have hm := lt_two_pow_bitLen m
  obtain hle | hlt := le_or_gt (bitLen m) p
  · have hk : (e - (e + (bitLen m : Int) - (p : Int))).toNat = p - bitLen m := by omega
    rw [roundMag_of_le (by omega), shl, hk]
    calc m * 2 ^ (p - bitLen m) ≤ 2 ^ bitLen m * 2 ^ (p - bitLen m) := by gcongr
      _ = 2 ^ p := by rw [← Nat.pow_add, Nat.add_sub_cancel' hle]
  · have hk : (e + (bitLen m : Int) - (p : Int) - e).toNat = bitLen m - p := by omega
    have hquot : m / 2 ^ (bitLen m - p) < 2 ^ p := by
      rwa [Nat.div_lt_iff_lt_mul (by positivity), ← Nat.pow_add, Nat.add_sub_cancel' hlt.le]
    have hsucc := roundMag_le_succ (q := e + (bitLen m : Int) - (p : Int)) (e := e) (by omega) rm u m st
    rw [hk] at hsucc
    omega

theorem roundSig_fst_lt (p : Nat) (rm : Rm) (u m : Nat) (e : Int) (st : Bool) : (roundSig p rm u m e st).1 < 2 ^ p := by
  have hle := roundMag_le_two_pow p rm u m e st
  have hpos : 0 < 2 ^ p := by positivity
  unfold roundSig
  dsimp only
  split <;> dsimp only <;> omega

/-! ## The fields of what is encoded -/

/-- `x` has a sign, an exponent of 8 bits and a fraction of `fb` bits, and the fraction is 0 where the exponent is (R23). -/
def ZeroWrittenClean (fb x : Nat) : Prop :=
  ∃ s E F, x = signBit s (8 + fb) + E * 2 ^ fb + F ∧ E < 2 ^ 8 ∧ F < 2 ^ fb ∧ (E = 0 → F = 0)

theorem zeroWrittenClean_zero (fb : Nat) (s : Bool) : ZeroWrittenClean fb (signBit s (8 + fb)) :=
  ⟨s, 0, 0, by simp, by decide, by positivity, fun _ => rfl⟩

/-- An infinity, or the largest finite magnitude where the mode saturates. -/
theorem zeroWrittenClean_top (fb : Nat) (s sat : Bool) :
    ZeroWrittenClean fb (signBit s (8 + fb) + (if sat then 255 * 2 ^ fb - 1 else 255 * 2 ^ fb)) := by
  have hpos : 0 < 2 ^ fb := by positivity
  cases sat with
  | false => exact ⟨s, 255, 0, rfl, by decide, hpos, fun _ => rfl⟩
  | true => exact ⟨s, 254, 2 ^ fb - 1, by simp only [if_true]; omega, by decide, by omega, by omega⟩

/-- Every encoding into T16 or W32 writes a zero with F = 0: only a result whose exponent field is not 0 has a fraction. -/
theorem zeroWrittenClean_encFloat (fb : Nat) (rm : Rm) (sat : Bool) (u : Nat) (v : Val)
    (htag : ∀ s t, v = .nan s t → fracOfTag fb t < 2 ^ fb) : ZeroWrittenClean fb (encFloat fb rm sat u v).1 := by
  cases v with
  | zero s => exact zeroWrittenClean_zero fb s
  | nan s t => exact ⟨s, 255, _, rfl, by decide, htag s t rfl, by omega⟩
  | inf s => exact zeroWrittenClean_top fb s sat
  | fin s m e st =>
    have hsig := roundSig_fst_lt (fb + 1) rm u m e st
    rw [Nat.pow_succ] at hsig
    simp only [encFloat]
    split
    · exact zeroWrittenClean_top fb s sat
    · split
      · exact zeroWrittenClean_zero fb s
      · exact ⟨s, _, _, rfl, by omega, by omega, by omega⟩

theorem frac_eq_zero_of_exp_eq_zero {fb x : Nat} (h : ZeroWrittenClean fb x) (hexp : nbits x (8 + fb - 1) fb = 0) :
    x % 2 ^ fb = 0 := by
  obtain ⟨s, E, F, rfl, hE, hF, hzero⟩ := h
  rw [signBit_eq] at hexp ⊢
  rw [exp_fields (b2n s) (by decide) hE hF] at hexp
  rw [frac_fields 8 (b2n s) E hF, hzero hexp]

/-- Settles O57: the value is read off the fields of the encoding; what is encoded has a fraction of 0 where its exponent is 0. -/
theorem t16EncodingsHaveTheirValues : Obligations.T16EncodingsHaveTheirValues := by
  unfold Obligations.T16EncodingsHaveTheirValues
  refine ⟨fun S E F hS hF => ⟨?_, ?_, ?_, ?_, ?_⟩, fun rm sat u v htag hexp => ?_⟩
  · intro hE
    rw [decT16_fields hS (by omega) hF, if_pos hE]
  · intro h1 h2
    rw [decT16_fields hS (by omega) hF, if_neg (by omega), if_neg (by omega)]
  · intro hE h0
    rw [decT16_fields hS (by omega) hF, if_neg (by omega), if_pos hE, if_pos h0]
  · intro hE h1 h2
    rw [decT16_fields hS (by omega) hF, if_neg (by omega), if_pos hE, if_neg (by omega)]
  · intro hE hcanon
    rw [decT16_fields hS (by omega) hF, if_neg (by omega), if_pos hE, if_neg (by omega), hcanon]
  · refine frac_eq_zero_of_exp_eq_zero (fb := 7) (zeroWrittenClean_encFloat 7 rm sat u v fun s t hv => ?_) hexp
    have := htag s t hv
    rw [fracOfTag, if_pos rfl]
    omega

/-! ## Encoding into the integer formats -/

/-- The least number of an integer format of `w` bits. -/
def intLo (w : Nat) (signed : Bool) : Int := if signed then -2 ^ (w - 1) else 0

/-- The greatest number of an integer format of `w` bits. -/
def intHi (w : Nat) (signed : Bool) : Int := if signed then 2 ^ (w - 1) - 1 else 2 ^ w - 1

/-- The code of a number in `w` bits, two's complement where it is negative. -/
def intCode (w : Nat) (n : Int) : Nat := (n % 2 ^ w).toNat

/-- The code and the flags of an integer brought into the range of its format (R41). -/
def clampCode (w : Nat) (signed : Bool) (n : Int) : Nat × Fl :=
  if n < intLo w signed then (intCode w (intLo w signed), flOverflow)
  else if intHi w signed < n then (intCode w (intHi w signed), flOverflow)
  else (intCode w n, 0)

theorem intLo_nonpos (w : Nat) (signed : Bool) : intLo w signed ≤ 0 := by
  have hpos : (0 : Int) < 2 ^ (w - 1) := by positivity
  cases signed <;> simp only [intLo, if_true, Bool.false_eq_true, if_false] <;> omega

theorem intHi_nonneg (w : Nat) (signed : Bool) : 0 ≤ intHi w signed := by
  have hpos : (0 : Int) < 2 ^ (w - 1) := by positivity
  have hpos' : (0 : Int) < 2 ^ w := by positivity
  cases signed <;> simp only [intHi, if_true, Bool.false_eq_true, if_false] <;> omega

theorem clampCode_below {w : Nat} {signed : Bool} {n : Int} (h : n < intLo w signed) :
    clampCode w signed n = (intCode w (intLo w signed), flOverflow) := if_pos h

theorem clampCode_above {w : Nat} {signed : Bool} {n : Int} (h : intHi w signed < n) :
    clampCode w signed n = (intCode w (intHi w signed), flOverflow) := by
  have hlo := intLo_nonpos w signed
  have hhi := intHi_nonneg w signed
  rw [clampCode, if_neg (by omega), if_pos h]

theorem clampCode_within {w : Nat} {signed : Bool} {n : Int} (hlo : intLo w signed ≤ n) (hhi : n ≤ intHi w signed) :
    clampCode w signed n = (intCode w n, 0) := by
  rw [clampCode, if_neg (by omega), if_neg (by omega)]

theorem encInt_zero (w : Nat) (signed : Bool) (rm : Rm) (u : Nat) (s : Bool) : encInt w signed rm u (.zero s) = (0, 0) := rfl

theorem encInt_nan (w : Nat) (signed : Bool) (rm : Rm) (u : Nat) (s : Bool) (t : Nat) :
    encInt w signed rm u (.nan s t) = (0, flInvalid) := rfl

theorem encInt_inf (w : Nat) (signed : Bool) (rm : Rm) (u : Nat) (s : Bool) :
    encInt w signed rm u (.inf s) = (intCode w (if s then intLo w signed else intHi w signed), flInvalid) := by
  simp only [encInt, intLo, intHi, intCode]
  push_cast
  rfl

/-- A finite value rounds to an integer, which is then clamped. -/
theorem encInt_fin (w : Nat) (signed : Bool) (rm : Rm) (u : Nat) (s : Bool) (m : Nat) (e : Int) (st : Bool) :
    encInt w signed rm u (.fin s m e st) =
      clampCode w signed (if s then -(roundMag rm u m e st 0 : Int) else (roundMag rm u m e st 0 : Int)) := by
  simp only [encInt, clampCode, intLo, intHi, intCode]
  push_cast
  rfl

/-- An integer is rounded to itself. -/
theorem roundMag_integer (rm : Rm) (u m : Nat) : roundMag rm u m 0 false 0 = m := by
  rw [roundMag_of_le le_rfl]
  simp [shl]

/-- Integer-to-integer conversion is exact except for the clamp (R41). -/
theorem encInt_ofInt (w : Nat) (signed : Bool) (rm : Rm) (u : Nat) (n : Int) :
    encInt w signed rm u (ofInt n 0) = clampCode w signed n := by
  unfold ofInt
  split
  next hzero =>
    subst hzero
    rw [encInt_zero, clampCode_within (intLo_nonpos w signed) (intHi_nonneg w signed)]
    simp [intCode]
  next hne =>
    have hsign : (if decide (n < 0) = true then -(n.natAbs : Int) else (n.natAbs : Int)) = n := by
      simp only [decide_eq_true_eq]
      split <;> omega
    rw [encInt_fin, roundMag_integer, hsign]

theorem sInt_intCode {w : Nat} (hw : 0 < w) {n : Int} (hlo : intLo w true ≤ n) (hhi : n ≤ intHi w true) :
    sInt w (intCode w n) = n := by
  obtain ⟨k, rfl⟩ : ∃ k, w = k + 1 := ⟨w - 1, by omega⟩
  simp only [intLo, intHi, if_true, Nat.add_sub_cancel] at hlo hhi
  have hpow : (2 : Int) ^ (k + 1) = 2 * 2 ^ k := pow_succ' 2 k
  have hcast : ((2 ^ k : Nat) : Int) = 2 ^ k := by norm_cast
  simp only [sInt, intCode, Nat.add_sub_cancel, hpow]
  obtain hneg | hnonneg := lt_or_ge n 0
  · have hmod : n % (2 * 2 ^ k) = n + 2 * 2 ^ k := by
      rw [← Int.add_emod_right]
      exact Int.emod_eq_of_lt (by omega) (by omega)
    rw [hmod, if_neg (by omega)]
    omega
  · rw [Int.emod_eq_of_lt hnonneg (by omega), if_pos (by omega)]
    omega

theorem toInt_intCode {w : Nat} {n : Int} (hlo : intLo w false ≤ n) (hhi : n ≤ intHi w false) : (intCode w n : Int) = n := by
  simp only [intLo, intHi, Bool.false_eq_true, if_false] at hlo hhi
  rw [intCode, Int.emod_eq_of_lt hlo (by omega), Int.toNat_of_nonneg hlo]

/-- What an integer in the range is encoded as decodes to it (R38, R41). -/
theorem decInt_intCode {w : Nat} (hw : 0 < w) {signed : Bool} {n : Int} (hlo : intLo w signed ≤ n) (hhi : n ≤ intHi w signed) :
    decInt w signed (intCode w n) = ofInt n 0 := by
  cases signed with
  | false => rw [decInt, if_neg (by decide), toInt_intCode hlo hhi]
  | true => rw [decInt, if_pos rfl, sInt_intCode hw hlo hhi]

/-- The formats I8, U8, I4 and U4 (codes 4 to 7 of Table 2-1) are encoded as integers, whether or not the mode saturates. -/
theorem encPlain_integer {f w : Nat} {signed : Bool} (hf : (f, w, signed) ∈ [(4, 8, true), (5, 8, false), (6, 4, true), (7, 4, false)]) :
    0 < w ∧ ∀ rm sat u v, encPlain f rm sat u v = encInt w signed rm u v := by
  simp only [List.mem_cons, Prod.mk.injEq, List.not_mem_nil, or_false] at hf
  obtain ⟨rfl, rfl, rfl⟩ | ⟨rfl, rfl, rfl⟩ | ⟨rfl, rfl, rfl⟩ | ⟨rfl, rfl, rfl⟩ := hf <;>
    exact ⟨by decide, fun _ _ _ _ => rfl⟩

/-- Settles O58: a finite value becomes its rounded integer and an integer itself, and both are then clamped alike. -/
theorem integersRoundAndClamp : Obligations.IntegersRoundAndClamp := by
  unfold Obligations.IntegersRoundAndClamp
  intro f w signed hf lo hi code rm sat u
  obtain ⟨hw, henc⟩ := encPlain_integer hf
  simp only [henc rm sat u]
  refine ⟨fun s m e st => ?_, encInt_zero w signed rm u, encInt_inf w signed rm u, encInt_nan w signed rm u,
    fun v => (henc rm true u v).trans (henc rm false u v).symm, fun n hlo hhi => ⟨?_, decInt_intCode hw hlo hhi⟩,
    fun n hn => ?_, fun n hn => ?_⟩
  · rw [encInt_fin]
    exact ⟨clampCode_below, clampCode_above, clampCode_within⟩
  · exact (encInt_ofInt w signed rm u n).trans (clampCode_within hlo hhi)
  · exact (encInt_ofInt w signed rm u n).trans (clampCode_above hn)
  · exact (encInt_ofInt w signed rm u n).trans (clampCode_below hn)

/-! ## Zeros in sums, products and quotients -/

theorem addV_zero_zero (s s' : Bool) : addV (.zero s) (.zero s') = (.zero (s && s'), 0) := rfl

/-- Equal magnitudes of opposite sign cancel to +0 (R26). -/
theorem addFin_opposite {m m' : Nat} {e e' : Int} (s : Bool) (h : shl m (e - min e e') = shl m' (e' - min e e')) :
    addFin s m e (!s) m' e' = .zero false := by
  cases s <;> simp [addFin, h, ofInt]

theorem encT16_zero (rm : Rm) (sat : Bool) (u : Nat) (s : Bool) : encT16 rm sat u (.zero s) = (if s then 0x8000 else 0, 0) := rfl

theorem encW32_zero (rm : Rm) (sat : Bool) (u : Nat) (s : Bool) : encW32 rm sat u (.zero s) = (if s then 0x80000000 else 0, 0) := rfl

theorem mulV_zero_zero (s s' : Bool) : mulV (.zero s) (.zero s') = (.zero (s != s'), 0) := rfl

theorem mulV_zero_fin (s s' : Bool) (m : Nat) (e : Int) (st : Bool) :
    mulV (.zero s) (.fin s' m e st) = (.zero (s != s'), 0) := rfl

theorem mulV_fin_zero (s s' : Bool) (m : Nat) (e : Int) (st : Bool) :
    mulV (.fin s m e st) (.zero s') = (.zero (s != s'), 0) := rfl

theorem divV_zero_fin (s s' : Bool) (m : Nat) (e : Int) (st : Bool) :
    divV (.zero s) (.fin s' m e st) = (.zero (s != s'), 0) := rfl

theorem divV_zero_inf (s s' : Bool) : divV (.zero s) (.inf s') = (.zero (s != s'), 0) := rfl

/-- Settles O59: the sign of a zero sum is negative only where both are; that of a product or quotient where the signs differ. -/
theorem zeroSumsAndSigns : Obligations.ZeroSumsAndSigns := by
  unfold Obligations.ZeroSumsAndSigns
  refine ⟨fun s => ?_, addV_zero_zero true true, fun s m e m' e' _ _ hmag => ?_,
    fun rm sat u s => ⟨encT16_zero rm sat u s, encW32_zero rm sat u s⟩, mulV_zero_zero,
    fun s s' m e st => ⟨mulV_zero_fin s s' m e st, mulV_fin_zero s' s m e st, divV_zero_fin s s' m e st⟩, divV_zero_inf⟩
  · rw [addV_zero_zero, Bool.and_not_self]
  · rw [addV, addFin_opposite s hmag]

end Sys2Proof.Machine
end

section
/-!
SUPPORT. The start and the completion of a matrix instruction (spec 03 R54, R55, R66; spec 06 R116): one equation for each outcome of
the acceptance of the MXA queue's head, one for the end of an instruction whose epilogue has run, and O21
(MatrixInstructionsRunAndComplete) put together from them.
-/
namespace Sys2Proof.Machine

theorem exec_mmul (d : Fin 4) (u : List Upset) (s : State) : exec (.mmul d u) s = .next (s.after (startMmul d u s)) :=
  ran_eq_next_after (startMmul d u) s

theorem exec_mmulComplete (d : Fin 4) (bank : Fin 2) (u : List Upset) (s : State) :
    exec (.mmulComplete d bank u) s = .next (s.after (finishMmul d bank.1 u s)) :=
  ran_eq_next_after (finishMmul d bank.1 u) s

/-! ## The acceptance of the queue's head -/

/-- The head `q` has left the MXA queue, with the count of its wait taken (R116). -/
def State.leaveMxaQueue (s : State) (d : Fin 4) (q : QInstr) (rest : List QInstr) : State :=
  s.modDie d fun x => { x.takeWait q with seq := { (x.takeWait q).seq with mxaQ := rest, wait := none } }

/-- The head of the MXA queue may start: its die serves, no instruction in flight conflicts, and its wait is met (R55, R116). -/
structure State.MmulReady (s : State) (d : Fin 4) (q : QInstr) (rest : List QInstr) : Prop where
  head : (s.die d).seq.mxaQ = q :: rest
  serves : s.dieServes d = true
  free : mmulWaits (s.die d) (mmulOp q) = false
  met : (s.die d).waitMet q = true

section
variable {s t : State} {d : Fin 4} {u : List Upset} {q : QInstr} {rest : List QInstr} {ds : List (List Byte)}
variable (hready : s.MmulReady d q rest)
include hready

theorem startMmul_of_word_illegal (hbad : mmulBad (mmulOp q) = true) :
    startMmul d u s = ((s.upset u).leaveMxaQueue d q rest).illegal d unitMxa q := by
  obtain ⟨hhead, hserves, hfree, hmet⟩ := hready
  simp [startMmul, State.leaveMxaQueue, hhead, hserves, hfree, hmet, hbad]

variable (hgood : mmulBad (mmulOp q) = false)
variable (hread : (s.upset u).readDescs d (collided d u) (mmulDescs (mmulOp q)) = (t, some (some ds)))
include hgood hread

theorem startMmul_of_descs_illegal (hcheck : t.mmulCheck d (mmulOp q) ds = none) :
    startMmul d u s = (t.leaveMxaQueue d q rest).illegal d unitMxa q := by
  obtain ⟨hhead, hserves, hfree, hmet⟩ := hready
  simp [startMmul, State.leaveMxaQueue, hhead, hserves, hfree, hmet, hgood, hread, hcheck]

theorem startMmul_of_legal {a b : OperandDesc} {x : MxaCtx} {w : Option OutDesc}
    (hcheck : t.mmulCheck d (mmulOp q) ds = some (a, b, x, w))
    (hheld : t.rangesWait (operandRanges (mmulOp q).afmt (mmulOp q).k a ++ operandRanges (mmulOp q).bfmt (mmulOp q).k b) = false) :
    startMmul d u s = (t.leaveMxaQueue d q rest).mmulRun d (collided d u) q (mmulOp q) a b x (ds.getD 3 []) := by
  obtain ⟨hhead, hserves, hfree, hmet⟩ := hready
  simp [startMmul, State.leaveMxaQueue, hhead, hserves, hfree, hmet, hgood, hread, hcheck, hheld]

end

/-! ## The completion of an instruction in flight -/

/-- The oldest instruction on a bank, its epilogue run and its writes complete, retires (R54). -/
theorem finishMmul_of_written {s : State} {d : Fin 4} {bank : Nat} {f : MxaFlight} {e : EpiOut} (u : List Upset)
    (holdest : (s.die d).mxaFly.find? (fun f => (mmulBanks (mmulOp f.instr)).head? == some bank) = some f)
    (hissue : (s.die d).mxaFly.find? (fun g => g.instr.issue == f.instr.issue) = some f)
    (hepi : f.epi = some e) (hwritten : (s.fab.pendingWrites.any fun w => w.writer == .mxa d) = false) :
    finishMmul d bank u s = s.retireMmul d f e := by
  simp [finishMmul, holdest, hepi, hissue, hwritten]

/-- Settles O21: the head that may start leaves the queue and faults or runs as its word and descriptors decide; an instruction
whose epilogue has run and whose writes are complete retires. -/
theorem matrixInstructionsRunAndComplete : Obligations.MatrixInstructionsRunAndComplete := by
  unfold Obligations.MatrixInstructionsRunAndComplete
  refine ⟨fun s d u q rest hhead hserves hfree hmet => ?_, fun s d bank u f e holdest hissue hepi hwritten => ?_⟩
  · have hready : s.MmulReady d q rest := ⟨hhead, hserves, hfree, hmet⟩
    refine ⟨fun hbad => ?_, fun hgood t ds hread => ⟨fun hcheck => ?_, fun a b x w hcheck hheld => ?_⟩⟩
    · rw [exec_mmul, startMmul_of_word_illegal hready hbad, State.leaveMxaQueue]
    · rw [exec_mmul, startMmul_of_descs_illegal hready hgood hread hcheck, State.leaveMxaQueue]
    · rw [exec_mmul, startMmul_of_legal hready hgood hread hcheck hheld, State.leaveMxaQueue]
  · rw [exec_mmulComplete, finishMmul_of_written u holdest hissue hepi hwritten]

end Sys2Proof.Machine
end

section
/-!
SUPPORT. Dispatch (spec 06 R114, R115, R119, R120): what follows a fetch for each class of opcode, what the queues do with an
instruction, what each control instruction of Table 6-3 does, and O19 (DispatchQueuesOrControls) put together from them.
-/
namespace Sys2Proof.Machine

theorem exec_seqDispatch_of_eq {d : Fin 4} {u : List Upset} {s t : State} (h : doDispatch d u s = t) :
    exec (.seqDispatch d u) s = .next (s.after t) :=
  h ▸ ran_eq_next_after (doDispatch d u) s

/-! ## The fetch -/

/-- The die serves and its program runs, so that a dispatch fetches at PC (R114). -/
structure State.DispatchReady (s : State) (d : Fin 4) (p : DieProgram) : Prop where
  program : (s.die d).seq.prog = some p
  serves : s.dieServes d = true
  clocked : (s.die d).hubClkLost = false
  running : (s.die d).seq.stopped = false

/-- The read of the instruction word at PC. -/
def State.fetch (s : State) (d : Fin 4) (u : List Upset) : State × Rd :=
  (s.upset u).readSpad d (collided d u) (16 * (s.die d).seq.pc.toNat) 16

/-- The instruction that the fetch gives, with its PC and issue number. -/
def State.fetched (s : State) (d : Fin 4) (u : List Upset) : QInstr :=
  ⟨BitVec.ofNat 128 (leNat (s.fetch d u).2.data), (s.die d).seq.pc, (s.die d).seq.issued⟩

/-- The word at PC lies in the image and is readable, so that it is dispatched. -/
structure State.FetchesWord (s : State) (d : Fin 4) (u : List Upset) (p : DieProgram) : Prop extends s.DispatchReady d p where
  inside : inImage p (s.die d).seq.pc = true
  readable : (s.fetch d u).2.bad = false

/-- What a fetched word's class of opcode makes of it (R114, R115). -/
def State.dispatchWord (s : State) (d : Fin 4) (q : QInstr) : State :=
  match opClass q.opc with
  | .control => s.control d q
  | .matrix => s.enqueue d q none
  | .engine e k => s.enqueue d q (some (e, k))
  | .reserved => s.seqFault d 1 q stBadDescriptor (partUnit d unitSeq)

theorem doDispatch_of_outside {s : State} {d : Fin 4} {p : DieProgram} (u : List Upset) (hready : s.DispatchReady d p)
    (hout : inImage p (s.die d).seq.pc = false) :
    doDispatch d u s =
      s.seqFault d 2 ⟨0, (s.die d).seq.pc, (s.die d).seq.issued⟩ stBadDescriptor (partUnit d unitSeq) := by
  obtain ⟨hprog, hserves, hclk, hrun⟩ := hready
  simp [doDispatch, hprog, hserves, hclk, hrun, hout]

section
variable {s : State} {d : Fin 4} {u : List Upset} {p : DieProgram} (hfetch : s.FetchesWord d u p)
include hfetch

theorem doDispatch_of_fetched : doDispatch d u s = (s.fetch d u).1.dispatchWord d (s.fetched d u) := by
  obtain ⟨⟨hprog, hserves, hclk, hrun⟩, hin, hgood⟩ := hfetch
  unfold State.fetch at hgood
  simp only [doDispatch, hprog, hserves, hclk, hrun, hin, hgood]
  rfl

theorem doDispatch_control (hclass : opClass (s.fetched d u).opc = .control) :
    doDispatch d u s = (s.fetch d u).1.control d (s.fetched d u) := by
  rw [doDispatch_of_fetched hfetch, State.dispatchWord, hclass]

theorem doDispatch_matrix (hclass : opClass (s.fetched d u).opc = .matrix) :
    doDispatch d u s = (s.fetch d u).1.enqueue d (s.fetched d u) none := by
  rw [doDispatch_of_fetched hfetch, State.dispatchWord, hclass]

theorem doDispatch_engine {e : Engine} {k : Nat} (hclass : opClass (s.fetched d u).opc = .engine e k) :
    doDispatch d u s = (s.fetch d u).1.enqueue d (s.fetched d u) (some (e, k)) := by
  rw [doDispatch_of_fetched hfetch, State.dispatchWord, hclass]

theorem doDispatch_reserved (hclass : opClass (s.fetched d u).opc = .reserved) :
    doDispatch d u s = (s.fetch d u).1.seqFault d 1 (s.fetched d u) stBadDescriptor (partUnit d unitSeq) := by
  rw [doDispatch_of_fetched hfetch, State.dispatchWord, hclass]

end

/-! ## The queues -/

theorem State.enqueue_matrix_of_room {s : State} {d : Fin 4} (q : QInstr) (hroom : (s.die d).seq.mxaQ.length < 4) :
    s.enqueue d q none = s.modSeq d fun x => { x with pc := x.pc + 1, issued := x.issued + 1, mxaQ := x.mxaQ ++ [q] } := by
  simp [State.enqueue, mxaDepth, hroom]

theorem State.enqueue_matrix_of_full {s : State} {d : Fin 4} (q : QInstr) (hfull : 4 ≤ (s.die d).seq.mxaQ.length) :
    s.enqueue d q none = s := by
  simp [State.enqueue, mxaDepth, not_lt.mpr hfull]

theorem State.enqueue_engine_of_room {s : State} {d : Fin 4} {e : Engine} {k : Nat} (q : QInstr)
    (hroom : ((s.die d).seq.queue e).length < k) :
    s.enqueue d q (some (e, k)) = s.modSeq d fun x =>
      ({ x with pc := x.pc + 1, issued := x.issued + 1 } : Seq).setQueue e (x.queue e ++ [q]) := by
  simp only [State.enqueue, hroom, decide_true]
  cases e <;> rfl

theorem State.enqueue_engine_of_full {s : State} {d : Fin 4} {e : Engine} {k : Nat} (q : QInstr)
    (hfull : k ≤ ((s.die d).seq.queue e).length) : s.enqueue d q (some (e, k)) = s := by
  simp [State.enqueue, not_lt.mpr hfull]

/-! ## The control instructions (Table 6-3) -/

/-- A legal control instruction without a wait or a post. -/
structure QInstr.PlainControl (q : QInstr) : Prop where
  legal : ctlBad q.n = false
  noWait : q.wen = false
  noPost : q.pen = false

/-- The sequencer has executed the control instruction, with no wait recorded. -/
def State.passControl (s : State) (d : Fin 4) (q : QInstr) : State :=
  s.modSeq d fun x => { ctlSeq q.n x with wait := none }

section
variable {s : State} {d : Fin 4} {q : QInstr} (hplain : q.PlainControl)
include hplain

theorem State.control_of_sequencer_only (hpass : q.opc = 5 → (s.die d).quiet = true) (hend : q.opc ≠ 1) (hset : q.opc ≠ 6) :
    s.control d q = s.passControl d q := by
  obtain ⟨hlegal, hwen, hpen⟩ := hplain
  have hgo : ¬ (q.opc = 5 ∧ (s.die d).quiet = false) := fun h => by simp [hpass h.1] at h
  simp [State.control, State.passControl, State.modSeq, Die.waitMet, Die.takeWait, State.postOwn, hlegal, hwen, hpen, hgo, hend, hset]

theorem State.control_end (hopc : q.opc = 1) : s.control d q = (s.passControl d q).noteEnd d := by
  obtain ⟨hlegal, hwen, hpen⟩ := hplain
  simp [State.control, State.passControl, State.modSeq, Die.waitMet, Die.takeWait, State.postOwn, hlegal, hwen, hpen, hopc]

theorem State.control_semset (hopc : q.opc = 6) :
    s.control d q = (s.passControl d q).modDie d fun x => x.semSet (semIdx (nbits q.n 38 32)) (nbits q.n 31 0) := by
  obtain ⟨hlegal, hwen, hpen⟩ := hplain
  simp [State.control, State.passControl, State.modSeq, Die.waitMet, Die.takeWait, State.postOwn, hlegal, hwen, hpen, hopc]

theorem State.control_barrier_of_busy (hopc : q.opc = 5) (hbusy : (s.die d).quiet = false) : s.control d q = s := by
  simp [State.control, hplain.legal, hopc, hbusy]

end

/-- NOP, BARRIER and SEMSET do no more to the sequencer than advance PC. -/
theorem State.passControl_of_advance {s : State} {d : Fin 4} {q : QInstr} (hopc : q.opc = 0 ∨ q.opc = 5 ∨ q.opc = 6) :
    s.passControl d q = s.modSeq d fun x => { x with pc := x.pc + 1, wait := none } := by
  unfold QInstr.opc at hopc
  rcases hopc with h | h | h <;> simp [State.passControl, ctlSeq, h]

theorem State.passControl_end {s : State} {d : Fin 4} {q : QInstr} (hopc : q.opc = 1) :
    s.passControl d q = s.modSeq d fun x => { x with pc := x.pc + 1, stopped := true, wait := none } := by
  unfold QInstr.opc at hopc
  simp [State.passControl, ctlSeq, hopc]

theorem State.passControl_jump {s : State} {d : Fin 4} {q : QInstr} (hopc : q.opc = 2) :
    s.passControl d q = s.modSeq d fun x => { x with pc := BitVec.ofNat 24 q.n, wait := none } := by
  unfold QInstr.opc at hopc
  simp [State.passControl, ctlSeq, hopc]

theorem State.passControl_loop {s : State} {d : Fin 4} {q : QInstr} (hopc : q.opc = 3) :
    s.passControl d q = s.modSeq d fun x =>
      if vget x.loops (loopIdx q.n) = 0 then { x with pc := x.pc + 1, wait := none }
      else { x with
        pc := BitVec.ofNat 24 q.n, loops := vset x.loops (loopIdx q.n) (vget x.loops (loopIdx q.n) - 1), wait := none } := by
  unfold QInstr.opc at hopc
  unfold State.passControl
  congr 1
  funext x
  by_cases hzero : vget x.loops (loopIdx q.n) = 0
  · simp only [ctlSeq, hopc, if_pos hzero]
  · simp only [ctlSeq, hopc, if_neg hzero]

theorem State.passControl_loopset {s : State} {d : Fin 4} {q : QInstr} (hopc : q.opc = 4) :
    s.passControl d q = s.modSeq d fun x =>
      { x with pc := x.pc + 1, loops := vset x.loops (loopIdx q.n) (BitVec.ofNat 32 (nbits q.n 63 32)), wait := none } := by
  unfold QInstr.opc at hopc
  simp [State.passControl, ctlSeq, hopc]

/-- Settles O19: a fetch outside the image faults; a word is dispatched by its class, an engine's instruction by the room in its
queue, and a control instruction by its opcode. -/
theorem dispatchQueuesOrControls : Obligations.DispatchQueuesOrControls := by
  unfold Obligations.DispatchQueuesOrControls
  intro s d u p hprog hserves hclk hrun
  have hready : s.DispatchReady d p := ⟨hprog, hserves, hclk, hrun⟩
  refine ⟨fun hout => exec_seqDispatch_of_eq (doDispatch_of_outside u hready hout), fun r hin hr hgood => ?_⟩
  subst hr
  have hfetch : s.FetchesWord d u p := ⟨hready, hin, hgood⟩
  refine ⟨fun hclass hroom => ?_, fun hclass hfull => ?_, fun e k hclass hroom => ?_, fun e k hclass hfull => ?_,
    fun hclass => exec_seqDispatch_of_eq (doDispatch_reserved hfetch hclass), fun hclass hlegal hwen hpen => ?_⟩
  · exact exec_seqDispatch_of_eq ((doDispatch_matrix hfetch hclass).trans (State.enqueue_matrix_of_room _ hroom))
  · exact exec_seqDispatch_of_eq ((doDispatch_matrix hfetch hclass).trans (State.enqueue_matrix_of_full _ hfull))
  · exact exec_seqDispatch_of_eq ((doDispatch_engine hfetch hclass).trans (State.enqueue_engine_of_room _ hroom))
  · exact exec_seqDispatch_of_eq ((doDispatch_engine hfetch hclass).trans (State.enqueue_engine_of_full _ hfull))
  have hplain : (s.fetched d u).PlainControl := ⟨hlegal, hwen, hpen⟩
  have hcontrol {t : State} (h : (s.fetch d u).1.control d (s.fetched d u) = t) :
      exec (.seqDispatch d u) s = .next (s.after t) :=
    exec_seqDispatch_of_eq ((doDispatch_control hfetch hclass).trans h)
  have hsequencer (hpass : (s.fetched d u).opc = 5 → ((s.fetch d u).1.die d).quiet = true)
      (hend : (s.fetched d u).opc ≠ 1) (hset : (s.fetched d u).opc ≠ 6) {t : State}
      (h : (s.fetch d u).1.passControl d (s.fetched d u) = t) : exec (.seqDispatch d u) s = .next (s.after t) :=
    hcontrol ((State.control_of_sequencer_only hplain hpass hend hset).trans h)
  refine ⟨fun hopc => ?nop, fun hopc => ?stop, fun hopc => ?jump, fun hopc => ?loop, fun hopc => ?loopset,
    fun hopc hquiet => ?pass, fun hopc hbusy => ?hold, fun hopc => ?semset⟩ <;>
    change (s.fetched d u).opc = _ at hopc
  case nop => exact hsequencer (fun h => by omega) (by omega) (by omega) (State.passControl_of_advance (.inl hopc))
  case stop => exact hcontrol ((State.control_end hplain hopc).trans (by rw [State.passControl_end hopc]; rfl))
  case jump => exact hsequencer (fun h => by omega) (by omega) (by omega) (State.passControl_jump hopc)
  case loop => exact hsequencer (fun h => by omega) (by omega) (by omega) (State.passControl_loop hopc)
  case loopset => exact hsequencer (fun h => by omega) (by omega) (by omega) (State.passControl_loopset hopc)
  case pass => exact hsequencer (fun _ => hquiet) (by omega) (by omega) (State.passControl_of_advance (.inr (.inl hopc)))
  case hold => exact hcontrol (State.control_barrier_of_busy hplain hopc hbusy)
  case semset =>
    exact hcontrol ((State.control_semset hplain hopc).trans (by rw [State.passControl_of_advance (.inr (.inr hopc))]; rfl))

end Sys2Proof.Machine
end

section
/-!
SUPPORT. The start of an instruction on VXE, MOV, TRN and RNG (spec 06 R116, R117): one equation for each outcome of the head of a
queue, one rule that carries them to any command that starts an engine, and O20 (EnginesStartTheirInstructions) put together from
them.
-/
namespace Sys2Proof.Machine

/-- The head `q` has left the engine's queue, with the count of its wait taken (R116). -/
def State.leaveQueue (s : State) (d : Fin 4) (e : Engine) (q : QInstr) (rest : List QInstr) : State :=
  s.modDie d fun x => { x.takeWait q with seq := (x.takeWait q).seq.setQueue e rest }

/-- The head of an engine's queue may start: its die serves and its wait is met (R116). -/
structure State.EngineReady (s : State) (d : Fin 4) (e : Engine) (q : QInstr) (rest : List QInstr) : Prop where
  head : (s.die d).seq.queue e = q :: rest
  serves : s.dieServes d = true
  met : (s.die d).waitMet q = true

section
variable {s r : State} {d : Fin 4} {e : Engine} {u : List Upset} {q : QInstr} {rest : List QInstr}
variable {pick : QInstr → Bool} {body : QInstr → List Nat → State → Start}
variable (hready : s.EngineReady d e q rest) (hpick : pick q = true)
include hready hpick

theorem startEngine_of_run {f : Flight} (hbody : body q (collided d u) ((s.upset u).leaveQueue d e q rest) = .run r f) :
    startEngine e d u pick body s = r.modDie d fun x => x.setFly e (x.fly e ++ [f]) := by
  obtain ⟨hhead, hserves, hmet⟩ := hready
  unfold State.leaveQueue at hbody
  simp [startEngine, hhead, hserves, hmet, hpick, hbody]

theorem startEngine_of_illegal (hbody : body q (collided d u) ((s.upset u).leaveQueue d e q rest) = .illegal r) :
    startEngine e d u pick body s = r.illegal d (engineUnit e) q := by
  obtain ⟨hhead, hserves, hmet⟩ := hready
  unfold State.leaveQueue at hbody
  simp [startEngine, hhead, hserves, hmet, hpick, hbody]

theorem startEngine_of_poisoned (hbody : body q (collided d u) ((s.upset u).leaveQueue d e q rest) = .poisoned r) :
    startEngine e d u pick body s = r.poisonedParam d (engineUnit e) q := by
  obtain ⟨hhead, hserves, hmet⟩ := hready
  unfold State.leaveQueue at hbody
  simp [startEngine, hhead, hserves, hmet, hpick, hbody]

end

/-- The command `c` starts, on engine `e`, the instruction at the head of the queue when `pick` names it: `body` decides whether it
runs or which fault it raises. -/
def StartsOnEngine (c : Fin 4 → List Upset → Instr) (e : Engine) (pick : QInstr → Bool)
    (body : Fin 4 → QInstr → List Nat → State → Start) : Prop :=
  ∀ (s : State) (d : Fin 4) (u : List Upset) (q : QInstr) (rest : List QInstr),
    (s.die d).seq.queue e = q :: rest → pick q = true → s.dieServes d = true → (s.die d).waitMet q = true →
    (∀ (r : State) (f : Flight), body d q (collided d u) ((s.upset u).leaveQueue d e q rest) = .run r f →
      exec (c d u) s = .next (s.after (r.modDie d fun x => x.setFly e (x.fly e ++ [f])))) ∧
    (∀ r : State, body d q (collided d u) ((s.upset u).leaveQueue d e q rest) = .illegal r →
      exec (c d u) s = .next (s.after (r.illegal d (engineUnit e) q))) ∧
    (∀ r : State, body d q (collided d u) ((s.upset u).leaveQueue d e q rest) = .poisoned r →
      exec (c d u) s = .next (s.after (r.poisonedParam d (engineUnit e) q)))

/-- A command that runs `startEngine` starts what its own test accepts, and so all that a narrower test names. -/
theorem startsOnEngine_of_exec {c : Fin 4 → List Upset → Instr} {e : Engine} {pick own : QInstr → Bool}
    {body : Fin 4 → QInstr → List Nat → State → Start}
    (hexec : ∀ d u s, exec (c d u) s = ran (startEngine e d u own (body d)) s) (hown : ∀ q, pick q = true → own q = true) :
    StartsOnEngine c e pick body := by
  intro s d u q rest hhead hpick hserves hmet
  have hready : s.EngineReady d e q rest := ⟨hhead, hserves, hmet⟩
  rw [hexec, ran_eq_next_after]
  refine ⟨fun r f hrun => ?_, fun r hillegal => ?_, fun r hpoisoned => ?_⟩
  · rw [startEngine_of_run hready (hown q hpick) hrun]
  · rw [startEngine_of_illegal hready (hown q hpick) hillegal]
  · rw [startEngine_of_poisoned hready (hown q hpick) hpoisoned]

/-- Function 0 of an opcode is among the functions other than 1, which its command starts (R113). -/
theorem fn_ne_one_of_fn_zero (opc : Nat) (q : QInstr) (h : (q.opc == opc && q.fn == 0) = true) :
    (q.opc == opc && q.fn != 1) = true := by
  obtain ⟨hopc, hfn⟩ : q.opc = opc ∧ q.fn = 0 := by simpa using h
  simp [hopc, hfn]

/-- Function 0 is among the functions other than 1 and 2, which its command starts. -/
theorem fn_ne_one_two_of_fn_zero (q : QInstr) (h : (q.fn == 0) = true) : (q.fn != 1 && q.fn != 2) = true := by
  have hfn : q.fn = 0 := by simpa using h
  simp [hfn]

/-- Settles O20: each of the seventeen commands runs `startEngine` with a test that accepts its instruction; the command of function
0 also takes the reserved functions. -/
theorem enginesStartTheirInstructions : Obligations.EnginesStartTheirInstructions := by
  unfold Obligations.EnginesStartTheirInstructions
  exact ⟨
    startsOnEngine_of_exec (c := .vew) (fun _ _ _ => rfl) (fun _ h => h),
    startsOnEngine_of_exec (c := .vcvt) (fun _ _ _ => rfl) (fun _ h => h),
    startsOnEngine_of_exec (c := .vtadd) (fun _ _ _ => rfl) (fun _ h => h),
    startsOnEngine_of_exec (c := .vred) (fun _ _ _ => rfl) (fun _ h => h),
    startsOnEngine_of_exec (c := .vpermPerm) (fun _ _ _ => rfl) (fn_ne_one_of_fn_zero 0x44),
    startsOnEngine_of_exec (c := .vpermGather) (fun _ _ _ => rfl) (fun _ h => h),
    startsOnEngine_of_exec (c := .voptSgdMom) (fun _ _ _ => rfl) (fn_ne_one_of_fn_zero 0x45),
    startsOnEngine_of_exec (c := .voptAdamw) (fun _ _ _ => rfl) (fun _ h => h),
    startsOnEngine_of_exec (c := .movCopy) (fun _ _ _ => rfl) fn_ne_one_two_of_fn_zero,
    startsOnEngine_of_exec (c := .movFill) (fun _ _ _ => rfl) (fun _ h => h),
    startsOnEngine_of_exec (c := .movHubop) (fun _ _ _ => rfl) (fun _ h => h),
    startsOnEngine_of_exec (c := .trnTranspose) (fun _ _ _ => rfl) fn_ne_one_two_of_fn_zero,
    startsOnEngine_of_exec (c := .trnPanel) (fun _ _ _ => rfl) (fun _ h => h),
    startsOnEngine_of_exec (c := .trnUnpanel) (fun _ _ _ => rfl) (fun _ h => h),
    startsOnEngine_of_exec (c := .rngUniform) (fun _ _ _ => rfl) fn_ne_one_two_of_fn_zero,
    startsOnEngine_of_exec (c := .rngBernoulli) (fun _ _ _ => rfl) (fun _ h => h),
    startsOnEngine_of_exec (c := .rngNormal) (fun _ _ _ => rfl) (fun _ h => h)⟩

end Sys2Proof.Machine
end

section
/-!
SUPPORT. The completion of an engine's oldest instruction (spec 06 R117, R127), the end of a wait (R130) and adds through port B
(R118, R119): one equation for each outcome, and O22 (CompletionsWaitsAndSemaphores) put together from them.
-/
namespace Sys2Proof.Machine

theorem exec_engineInstructionComplete (d : Fin 4) (e : Engine) (s : State) :
    exec (.engineInstructionComplete d e) s = .next (s.after (finishEngine d e s)) :=
  ran_eq_next_after (finishEngine d e) s

theorem exec_waitTimeout (d : Fin 4) (s : State) : exec (.waitTimeout d) s = .next (s.after (doWaitTimeout d s)) :=
  ran_eq_next_after (doWaitTimeout d) s

theorem exec_semaphoreAddPortB (d : Fin 4) (i : Fin 128) (v : Word) (s : State) :
    exec (.semaphoreAddPortB d i v) s = .next (s.after (doSemAddPortB d i v s)) :=
  ran_eq_next_after (doSemAddPortB d i v) s

/-! ## The completion of the oldest instruction in flight -/

/-- The oldest instruction in flight on an engine, its writes and its reply done, with no lost source and no skipped chunk. -/
structure State.EngineDone (s : State) (d : Fin 4) (e : Engine) (f : Flight) (rest : List Flight) : Prop where
  oldest : (s.die d).fly e = f :: rest
  replied : f.replyDue = false
  written : (s.fab.pendingWrites.any fun w => w.writer == .engine d e f.instr.issue) = false
  found : f.lost = none
  whole : f.stat &&& flSkipped = 0#8

/-- The instruction has left the flight list; its flags are in VXE.STAT and VXE.EXC and in its command's summary (R109, R117). -/
def State.leaveFlight (s : State) (d : Fin 4) (e : Engine) (f : Flight) (rest : List Flight) : State :=
  (s.modDie d fun x =>
    let x := x.setFly e rest
    if e = .vxe then { x with regs := { x.regs with
      vxeStat := (vxeStatAdd f.stat x.regs.vxeStat), vxeExc := (vxeExcAdd f.invalid f.instr x.regs.vxeExc) } } else x).addSummary d
    (summaryOf f.stat)

@[simp] theorem State.noteLost_none (s : State) (d : Fin 4) : s.noteLost d none = s := rfl

section
variable {s : State} {d : Fin 4} {e : Engine} {f : Flight} {rest : List Flight} (hdone : s.EngineDone d e f rest)
include hdone

theorem finishEngine_of_clean (hreject : f.reject = none) (htrap : trapped (vecOp f.instr).trap f.stat = 0#8) :
    finishEngine d e s = (s.leaveFlight d e f rest).postOwn d (engineUnit e) f.instr := by
  obtain ⟨hfly, hreply, hwritten, hlost, hskip⟩ := hdone
  simp [finishEngine, State.leaveFlight, hfly, hreply, hwritten, hlost, hskip, hreject, htrap]

theorem finishEngine_of_trap (hreject : f.reject = none) (htrap : trapped (vecOp f.instr).trap f.stat ≠ 0#8) :
    finishEngine d e s = ((s.leaveFlight d e f rest).raise d ⟨5, f.instr.opc, f.instr.fn, engineUnit e, f.instr.pc,
      trapStatus (trapped (vecOp f.instr).trap f.stat), partUnit d (engineUnit e)⟩).postOwn d (engineUnit e) f.instr := by
  obtain ⟨hfly, hreply, hwritten, hlost, hskip⟩ := hdone
  simp [finishEngine, State.leaveFlight, hfly, hreply, hwritten, hlost, hskip, hreject, htrap]

theorem finishEngine_of_refused {x : Half × Half} (hreject : f.reject = some x) :
    finishEngine d e s =
      ((s.leaveFlight d e f rest).writeRejected d (engineUnit e) f.instr x).postOwn d (engineUnit e) f.instr := by
  obtain ⟨hfly, hreply, hwritten, hlost, hskip⟩ := hdone
  simp [finishEngine, State.leaveFlight, hfly, hreply, hwritten, hlost, hskip, hreject]

end

/-! ## The end of a wait -/

/-- A wait of the MXA queue's head that has lasted WAIT_LIMIT is a fault of that instruction (R130). -/
theorem doWaitTimeout_of_mxa {s : State} {d : Fin 4} {p : DieProgram} {w : SemWait} {q : QInstr}
    (hprog : (s.die d).seq.prog = some p) (hwait : (s.die d).seq.wait = some w) (hrun : (s.die d).seq.stopped = false)
    (hlimit : p.waitLimit ≠ 0) (hdue : w.since + p.waitLimit ≤ s.aon) (hmxa : w.mxa = true)
    (hhead : (s.die d).seq.mxaQ.head? = some q) :
    doWaitTimeout d s = s.raise d ⟨7, q.opc, q.fn, unitMxa, q.pc, stCancelled, partDie d⟩ := by
  have hnotEarly : ¬ s.aon < w.since + p.waitLimit := by omega
  simp [doWaitTimeout, hprog, hwait, hrun, hlimit, hnotEarly, hmxa, List.headD_eq_head?_getD, hhead]

/-! ## Adds to a semaphore -/

theorem Die.semAdd_of_fits {x : Die} {i : Fin 128} {n : Nat} (hgood : x.semPoisoned i = false) (hn : n ≠ 0)
    (hfits : (vget x.sems i).toNat + n < 2 ^ 32) :
    x.semAdd i n = ({ x with sems := vset x.sems i (BitVec.ofNat 32 ((vget x.sems i).toNat + n)) }, false) := by
  have htop : ¬ 0xFFFFFFFF < (vget x.sems i).toNat + n := by omega
  simp [Die.semAdd, hgood, hn, htop]

theorem Die.semAdd_of_overflow {x : Die} {i : Fin 128} {n : Nat} (hgood : x.semPoisoned i = false) (hn : n ≠ 0)
    (hover : 2 ^ 32 ≤ (vget x.sems i).toNat + n) :
    x.semAdd i n = ({ x with sems := vset x.sems i 0xFFFFFFFF#32 }, true) := by
  have htop : 0xFFFFFFFF < (vget x.sems i).toNat + n := by omega
  simp [Die.semAdd, hgood, hn, htop]

theorem State.semAddB_of_fits {s : State} {d : Fin 4} {i : Fin 128} {n : Nat} (hgood : (s.die d).semPoisoned i = false) (hn : n ≠ 0)
    (hfits : (vget (s.die d).sems i).toNat + n < 2 ^ 32) :
    s.semAddB d i n = s.modDie d fun x =>
      { x with sems := vset x.sems i (BitVec.ofNat 32 ((vget (s.die d).sems i).toNat + n)) } := by
  rw [State.semAddB, Die.semAdd_of_fits hgood hn hfits]
  rfl

theorem State.semAddB_of_overflow {s : State} {d : Fin 4} {i : Fin 128} {n : Nat} (hgood : (s.die d).semPoisoned i = false)
    (hn : n ≠ 0) (hover : 2 ^ 32 ≤ (vget (s.die d).sems i).toNat + n) :
    s.semAddB d i n = (s.modDie d fun x => { x with sems := vset x.sems i 0xFFFFFFFF#32 }).raise d
      (overflowPortB d (s.die d).seq.pc) := by
  rw [State.semAddB, Die.semAdd_of_overflow hgood hn hover]
  rfl

theorem doSemAddPortB_of_reachable {s : State} {d : Fin 4} (hreach : s.twinStatus d = none) (i : Fin 128) (v : Word) :
    doSemAddPortB d i v s = s.semAddB d i v.toNat := by
  simp [doSemAddPortB, State.post, hreach]

/-- Settles O22: a done instruction completes by what its writes and traps left; a wait of the MXA past its limit faults; an add
that reaches its bank fits or saturates. -/
theorem completionsWaitsAndSemaphores : Obligations.CompletionsWaitsAndSemaphores := by
  unfold Obligations.CompletionsWaitsAndSemaphores
  refine ⟨fun s d e f rest hfly hreply hwritten hlost hskip => ?_,
    fun s d p w q hprog hwait hrun hlimit hdue hmxa hhead => ?_, fun s d i v hreach hgood hv => ?_⟩
  · have hdone : s.EngineDone d e f rest := ⟨hfly, hreply, hwritten, hlost, hskip⟩
    rw [exec_engineInstructionComplete]
    refine ⟨fun hreject htrap => ?_, fun hreject htrap => ?_, fun x hreject => ?_⟩
    · rw [finishEngine_of_clean hdone hreject htrap, State.leaveFlight]
    · rw [finishEngine_of_trap hdone hreject htrap, State.leaveFlight]
    · rw [finishEngine_of_refused hdone hreject, State.leaveFlight]
  · rw [exec_waitTimeout, doWaitTimeout_of_mxa hprog hwait hrun hlimit hdue hmxa hhead]
  · have hn : v.toNat ≠ 0 := fun h => hv (BitVec.eq_of_toNat_eq h)
    rw [exec_semaphoreAddPortB, doSemAddPortB_of_reachable hreach]
    refine ⟨fun hfits => ?_, fun hover => ?_⟩
    · rw [State.semAddB_of_fits hgood hn hfits]
    · rw [State.semAddB_of_overflow hgood hn hover]

end Sys2Proof.Machine
end
section
/-!
SUPPORT. The memories (spec 07 R131, R134; spec 08 R154 to R160): what a read gives inside a range just written and what a mark is
after it was set, the write-back of corrected words, patrol scrub and the end of the erasure window; O26 (MemoryReadsAfterWrites) and
O23 (MemoryUpkeep) put together from them.
-/
namespace Sys2Proof.Machine

/-! ## Reads of what was written -/

/-- A read inside a range gives the byte last written there. -/
theorem Ram.rd_wrs_inside {r : Ram} (a : Nat) (l : List Byte) (h : r.wf = true) {i : Nat} (hi : i < l.length) :
    (r.wrs a l).rd (a + i) = l[i] := by
  induction l generalizing r a i with
  | nil => simp at hi
  | cons b t ih =>
    have hwf : (r.wr a b).wf = true := Ram.wf_wr a b h
    cases i with
    | zero =>
      change ((r.wr a b).wrs (a + 1) t).rd a = b
      rw [Ram.rd_wrs_outside t (.inl (Nat.lt_add_one a)) hwf, Ram.rd_wr_self a b h]
    | succ j =>
      have hj : j < t.length := by simpa using hi
      have haddr : a + (j + 1) = a + 1 + j := by omega
      rw [Ram.wrs, haddr, ih (a + 1) hwf hj]
      rfl

theorem Ram.mark_setMark_self {r : Ram} (u : Nat) (m : Option Mark) (h : r.wf = true) : (r.setMark u m).mark u = m := by
  obtain ⟨-, -, hmarks⟩ := (Ram.wf_iff r).1 h
  cases m with
  | none => exact sget_sdel_self u hmarks
  | some x => exact sget_sput_self r.marks u x

/-! ## The memories at reset -/

theorem State.reset_spad (d : Fin 4) : (State.reset.die d).spad = Ram.zero := by
  revert d; decide

theorem State.reset_sram : State.reset.hub.sram = Ram.zero := rfl

theorem State.reset_mem (k : Fin 8) : (State.reset.stk k).mem = Ram.zero := by
  revert k; decide

/-- Settles O26: writes keep the canonical form, and a read sees the last write of its byte or none. -/
theorem memoryReadsAfterWrites : Obligations.MemoryReadsAfterWrites := by
  unfold Obligations.MemoryReadsAfterWrites
  refine ⟨fun r a l h => ⟨Ram.wf_wrs a l h, fun c hc => Ram.rd_wrs_outside l hc h, fun i => Ram.rd_wrs_inside a l h i.2⟩,
    fun r u m h => ⟨Ram.wf_setMark u m h, Ram.mark_setMark_self u m h⟩, fun d => ?_, ?_, fun k => ?_⟩
  · rw [State.reset_spad, Ram.wf_zero]
  · rw [State.reset_sram, Ram.wf_zero]
  · rw [State.reset_mem, Ram.wf_zero]

/-! ## Updates of one element that agree with another, or with none -/

theorem vmod_congr {α : Type} {n : Nat} {v : Vector α n} {i : Fin n} {f g : α → α} (h : f (vget v i) = g (vget v i)) :
    vmod v i f = vmod v i g := by
  rw [vmod, vmod, h]

theorem vmod_eq_self {α : Type} {n : Nat} {v : Vector α n} {i : Fin n} {f : α → α} (h : f (vget v i) = vget v i) : vmod v i f = v := by
  rw [vmod, h]
  exact Vector.set_getElem_self i.2

theorem State.modDie_congr {s : State} {d : Fin 4} {f g : Die → Die} (h : f (s.die d) = g (s.die d)) : s.modDie d f = s.modDie d g := by
  rw [State.modDie, State.modDie, vmod_congr h]

theorem State.modStk_congr {s : State} {k : Fin 8} {f g : Stack → Stack} (h : f (s.stk k) = g (s.stk k)) :
    s.modStk k f = s.modStk k g := by
  rw [State.modStk, State.modStk, vmod_congr h]

theorem State.modStk_eq_self {s : State} {k : Fin 8} {f : Stack → Stack} (h : f (s.stk k) = s.stk k) : s.modStk k f = s := by
  rw [State.modStk, vmod_eq_self h]

/-! ## Each memory command runs its own effect -/

theorem exec_spadCeWriteback (site : Site) (w : Nat) (s : State) :
    exec (.spadCeWriteback site w) s = .next (s.afterStill (doSpadCeWriteback site w s)) :=
  ranStill_eq_next_afterStill (doSpadCeWriteback site w) s

theorem exec_stkCeWriteback (k : Fin 8) (g : Nat) (s : State) :
    exec (.stkCeWriteback k g) s = .next (s.afterStill (doStkCeWriteback k g s)) :=
  ranStill_eq_next_afterStill (doStkCeWriteback k g) s

theorem exec_patrolScrubRead (k : Fin 8) (u : List Upset) (s : State) :
    exec (.patrolScrubRead k u) s = .next (s.after (doPatrolScrub k u s)) :=
  ran_eq_next_after (doPatrolScrub k u) s

theorem exec_eraseWindowEnd (k : Fin 8) (s : State) : exec (.eraseWindowEnd k) s = .next (s.afterStill (doEraseWindowEnd k s)) :=
  ranStill_eq_next_afterStill (doEraseWindowEnd k) s

theorem exec_stackNoResponse (k : Fin 8) (s : State) : exec (.stackNoResponse k) s = .next (s.after (s.loseStack k 3)) :=
  ran_eq_next_after (doStackNoResponse k) s

theorem exec_pseudoChannelRetrainFail (k : Fin 8) (s : State) :
    exec (.pseudoChannelRetrainFail k) s = .next (s.after (s.loseStack k 2)) :=
  ran_eq_next_after (doPcRetrainFail k) s

/-! ## Write-back of a corrected word (R134) -/

theorem doSpadCeWriteback_spad_of_corrected {s : State} {d : Fin 4} {w : Nat} (h : (s.die d).spad.mark w = some (.ce true)) :
    doSpadCeWriteback (.spad d) w s = s.modDie d fun x => { x with spad := x.spad.setMark w none } :=
  State.modDie_congr (if_pos h)

theorem doSpadCeWriteback_hub_of_corrected {s : State} {w : Nat} (h : s.hub.sram.mark w = some (.ce true)) :
    doSpadCeWriteback .hub w s = { s with hub := { s.hub with sram := s.hub.sram.setMark w none } } := by
  simp [doSpadCeWriteback, State.modHub, h]

theorem doSpadCeWriteback_hub_of_not_corrected {s : State} {w : Nat} (h : s.hub.sram.mark w ≠ some (.ce true)) :
    doSpadCeWriteback .hub w s = s := by
  simp [doSpadCeWriteback, State.modHub, h]

/-! ## Patrol scrub (R156) and the erasure window (R155) -/

section
variable {s : State} {k : Fin 8} (hperiod : fget scrubPeriodH (s.stk k).scrub ≠ 0) (hup : fon stkLost (s.stk k).status = false)
  (hserves : s.dieServes (dieIdx (k.1 / 2)) = true)
include hperiod hup hserves

theorem doPatrolScrub_of_more (hmore : (s.stk k).scrubPos + 1 < stackGroups) :
    doPatrolScrub k [] s = s.useStk k fun y =>
      { y.scrubGroup s.eraseWindow (s.groupDev k (s.stk k).scrubPos) (s.stk k).scrubPos with scrubPos := (s.stk k).scrubPos + 1 } := by
  have hlast : ¬ stackGroups ≤ (s.stk k).scrubPos + 1 := by omega
  simp [doPatrolScrub, State.upset, forEach, hperiod, hup, hserves, hlast]

theorem doPatrolScrub_of_last (hlast : stackGroups ≤ (s.stk k).scrubPos + 1) :
    doPatrolScrub k [] s = s.useStk k fun y =>
      let y := y.scrubGroup s.eraseWindow (s.groupDev k (s.stk k).scrubPos) (s.stk k).scrubPos
      { y with scrubPos := 0, scrub := fsat scrubPasses 1 y.scrub } := by
  simp [doPatrolScrub, State.upset, forEach, hperiod, hup, hserves, hlast]

end

theorem doEraseWindowEnd_of_ended {s : State} {k : Fin 8} (h : (s.stk k).eraseWin < s.eraseWindow) :
    doEraseWindowEnd k s = s.modStk k fun x => { x with eraseWin := s.eraseWindow, erase := [] } :=
  State.modStk_congr (if_pos h)

theorem doEraseWindowEnd_of_current {s : State} {k : Fin 8} (h : s.eraseWindow ≤ (s.stk k).eraseWin) : doEraseWindowEnd k s = s :=
  State.modStk_eq_self (if_neg (Nat.not_lt.2 h))

/-- Settles O23: a write-back by the mark of its word, a scrub by its position, a window by its index; the two losses by their cause. -/
theorem memoryUpkeep : Obligations.MemoryUpkeep := by
  unfold Obligations.MemoryUpkeep
  refine ⟨fun s d w h => ?_, fun s w h => ?_, fun s w h => ?_, fun s k g => exec_stkCeWriteback k g s,
    fun s k hperiod hup hserves => ⟨fun hmore => ?_, fun hlast => ?_⟩, fun s k => ⟨fun h => ?_, fun h => ?_⟩,
    fun s k => ⟨exec_stackNoResponse k s, exec_pseudoChannelRetrainFail k s⟩⟩
  · rw [exec_spadCeWriteback, doSpadCeWriteback_spad_of_corrected h]
  · rw [exec_spadCeWriteback, doSpadCeWriteback_hub_of_corrected h]
  · rw [exec_spadCeWriteback, doSpadCeWriteback_hub_of_not_corrected h]
  · rw [exec_patrolScrubRead, doPatrolScrub_of_more hperiod hup hserves hmore]
  · rw [exec_patrolScrubRead, doPatrolScrub_of_last hperiod hup hserves hlast]
  · rw [exec_eraseWindowEnd, doEraseWindowEnd_of_ended h]
  · rw [exec_eraseWindowEnd, doEraseWindowEnd_of_current h]

end Sys2Proof.Machine
end
section
/-!
SUPPORT. The ends of the maintenance activities (spec 19 R331, R335; spec 07 R143 to R146; spec 08 R156; spec 18 R326): one equation
for each outcome of a march, a scrub, a thermal calibration, a fuse read and an overrun, and O46 (MaintenanceActivitiesEnd) put
together from them.
-/
namespace Sys2Proof.Machine

/-! ## Each command runs its own effect -/

theorem exec_marchComplete (id : Nat) (fails : List MarchFail) (s : State) :
    exec (.marchComplete id fails) s = .next (s.after (doMarchComplete id fails s)) :=
  ran_eq_next_after (doMarchComplete id fails) s

theorem exec_scrubComplete (id : Nat) (s : State) : exec (.scrubComplete id) s = .next (s.after (doScrubComplete id s)) :=
  ran_eq_next_after (doScrubComplete id) s

theorem exec_thermalCalibrationComplete (id : Nat) (s : State) :
    exec (.thermalCalibrationComplete id) s = .next (s.after (doThermalCalibrationComplete id s)) :=
  ran_eq_next_after (doThermalCalibrationComplete id) s

theorem exec_fuseReadComplete (s : State) : exec .fuseReadComplete s = .next (s.after (doFuseReadComplete s)) :=
  ran_eq_next_after doFuseReadComplete s

theorem exec_marbStallOverrun (id : Nat) (s : State) : exec (.marbStallOverrun id) s = .next (s.after (doStallOverrun id s)) :=
  ran_eq_next_after (doStallOverrun id) s

/-! ## The end of a march (R143, R144, R146) -/

/-- The columns that a march found failing, each once. -/
def failColumns (fails : List MarchFail) : List (Nat × Nat) := ((fails.map (·.columns)).flatten).eraseDups

/-- What a march of a die leaves: its memory as the list leaves it, the failing columns replaced, its reservation released. -/
def State.marchedDie (s : State) (id : Nat) (d : Fin 4) (target : Nat) (pr : Bool) (l : List Word) (g : BitVec 32) (bg : Quad)
    (fails : List MarchFail) : State :=
  ((s.marchMemory target pr l g bg).modDie d fun x => x.setColumns (x.columns.repair (failColumns fails))).endAct id

/-- What a march of hub SRAM leaves. -/
def State.marchedHub (s : State) (id target : Nat) (pr : Bool) (l : List Word) (g : BitVec 32) (bg : Quad)
    (fails : List MarchFail) : State :=
  ((s.marchMemory target pr l g bg).modHub fun x => x.setColumns (x.columns.repair (failColumns fails))).endAct id

/-- The log entry of a march's first failure (R146). -/
def marchEntry (target : Nat) (co : Bool) (fails : List MarchFail) (f : MarchFail) : List Nat :=
  [target, f.element, f.op, if co then f.offset / 4 else f.offset, ((fails.map (·.offset)).eraseDups).length] ++
    (f.columns.map fun x => [x.1, x.2]).flatten

section
variable {s : State} {id target : Nat} {pr co : Bool} {l : List Word} {g : BitVec 32} {bg h : Quad} {rs bs : List (Nat × Nat)}
  {fails : List MarchFail} (hact : s.act? id = some ⟨id, .march target pr co l g bg, some h, rs, bs⟩)
include hact

theorem doMarchComplete_die_of_clean {d : Fin 4} (hdie : fin? 4 target = some d) (hclean : firstFail fails = none) :
    doMarchComplete id fails s = (s.marchedDie id d target pr l g bg fails).finalOk h [d] := by
  simp only [doMarchComplete, hact, hdie, hclean, State.marchedDie, failColumns]

theorem doMarchComplete_die_of_failed {d : Fin 4} {f : MarchFail} (hdie : fin? 4 target = some d) (hfail : firstFail fails = some f) :
    doMarchComplete id fails s =
      let u := (s.marchedDie id d target pr l g bg fails).log .hub lgMarch (marchEntry target co fails f)
      (u.freshBytes 12).2.final h stOkDegraded (partUnit d 8) { result := (u.freshBytes 12).1 } := by
  simp only [doMarchComplete, hact, hdie, hfail, State.marchedDie, failColumns, marchEntry]

theorem doMarchComplete_hub_of_clean (hhub : fin? 4 target = none) (hclean : firstFail fails = none) :
    doMarchComplete id fails s = (s.marchedHub id target pr l g bg fails).finalOk h [] := by
  simp only [doMarchComplete, hact, hhub, hclean, State.marchedHub, failColumns]

end

/-! ## The end of a scrub (R156) and of a thermal calibration -/

/-- What a requested scrub leaves: every named stack scrubbed once, its reservation released. -/
def State.scrubbed (s : State) (id : Nat) (m : BitVec 8) : State :=
  (forEach (allFin 8) (fun s k => if m.getLsbD k.1 then s.scrubStack k else s) s).endAct id

/-- The first named stack that is gone. -/
def State.lostOf (s : State) (m : BitVec 8) : Option Half :=
  firstSome (allFin 8) fun k => if m.getLsbD k.1 && s.stackGone k then some (partStack k) else none

section
variable {s : State} {id : Nat} {m : BitVec 8} {h : Quad} {rs bs : List (Nat × Nat)}
  (hact : s.act? id = some ⟨id, .scrub m, some h, rs, bs⟩)
include hact

/-- The end of a requested scrub follows the first named stack that is gone. -/
theorem doScrubComplete_of_act :
    doScrubComplete id s = match (s.scrubbed id m).lostOf m with
      | some x => (s.scrubbed id m).final h stStackLost x
      | none => (s.scrubbed id m).finalOk h ((allFin 4).filter fun d => m.getLsbD (2 * d.1) || m.getLsbD (2 * d.1 + 1)) := by
  simp only [doScrubComplete, hact]
  rfl

theorem doScrubComplete_of_lost {x : Half} (hlost : (s.scrubbed id m).lostOf m = some x) :
    doScrubComplete id s = (s.scrubbed id m).final h stStackLost x := by
  rw [doScrubComplete_of_act hact, hlost]

theorem doScrubComplete_of_kept (hlost : (s.scrubbed id m).lostOf m = none) :
    doScrubComplete id s =
      (s.scrubbed id m).finalOk h ((allFin 4).filter fun d => m.getLsbD (2 * d.1) || m.getLsbD (2 * d.1 + 1)) := by
  rw [doScrubComplete_of_act hact, hlost]

end

theorem doThermalCalibrationComplete_of_act {s : State} {id : Nat} {c : Half} {h : Quad} {rs bs : List (Nat × Nat)}
    (hact : s.act? id = some ⟨id, .thermal c, some h, rs, bs⟩) :
    doThermalCalibrationComplete id s = (s.endAct id).finalOk h [] := by
  simp only [doThermalCalibrationComplete, hact]

/-! ## The end of a fuse read (spec 18 R326) -/

/-- Whether an activity reads a fuse bank. -/
def Activity.isFuse (a : Activity) : Bool := match a.kind with
  | .fuse _ _ => true
  | _ => false

/-- What the delivery of a fuse bank leaves, and its failure. -/
def State.deliverFuses (s : State) (id bank dest : Nat) : State × Option (Half × Half) :=
  (s.endAct id).sink dest (Config.fuseBytes bank (s.sec.fuses.bank bank))

section
variable {s : State} {id bank dest : Nat} {h : Quad} {rs bs : List (Nat × Nat)}
  (hfuse : s.marb.running.find? Activity.isFuse = some ⟨id, .fuse bank dest, some h, rs, bs⟩)
include hfuse

/-- The end of a fuse read follows what the delivery answers. -/
theorem doFuseReadComplete_of_act :
    doFuseReadComplete s = match (s.deliverFuses id bank dest).2 with
      | some x => (s.deliverFuses id bank dest).1.final h x.1 x.2
      | none => (s.deliverFuses id bank dest).1.finalOk h []
          { result := natLe 4 (Config.fuseBytes bank (s.sec.fuses.bank bank)).length } := by
  simp only [doFuseReadComplete]
  split
  next heq =>
    cases heq.symm.trans hfuse
    unfold State.deliverFuses
    cases ((s.endAct id).sink dest (Config.fuseBytes bank (s.sec.fuses.bank bank))).2 <;> rfl
  next hother => exact absurd hfuse (hother _ _ _ _ _ _)

theorem doFuseReadComplete_of_failed {x : Half × Half} (hfail : (s.deliverFuses id bank dest).2 = some x) :
    doFuseReadComplete s = (s.deliverFuses id bank dest).1.final h x.1 x.2 := by
  rw [doFuseReadComplete_of_act hfuse, hfail]

theorem doFuseReadComplete_of_delivered (hok : (s.deliverFuses id bank dest).2 = none) :
    doFuseReadComplete s = (s.deliverFuses id bank dest).1.finalOk h []
      { result := natLe 4 (Config.fuseBytes bank (s.sec.fuses.bank bank)).length } := by
  rw [doFuseReadComplete_of_act hfuse, hok]

end

/-! ## A stall that reaches its budget (R335) -/

/-- The overrun is counted and logged. -/
def State.noteOverrun (s : State) (id : Nat) : State :=
  (s.modMarb fun m => { m with status := fsat marbOverrun 1 m.status }).log .hub lgOverrun [id]

section
variable {s : State} {id : Nat} {a : Activity} (hact : s.act? id = some a)
include hact

theorem doStallOverrun_castle {b : Fin 80} {lane : Nat} (hkind : a.kind = .castle b lane) :
    doStallOverrun id s = (((s.noteOverrun id).modBun b fun x =>
      if x.st = bsCastling then { x.setSt x.former with cast := none } else x).ladder b lane).endBundleAct b := by
  simp only [doStallOverrun, hact, hkind, State.noteOverrun]

theorem doStallOverrun_retrain {b : Fin 80} (hkind : a.kind = .retrain b) :
    doStallOverrun id s = ((s.noteOverrun id).disableBundle b).endBundleAct b := by
  simp only [doStallOverrun, hact, hkind, State.noteOverrun]

theorem doStallOverrun_reeq {p : Fin 24} (hkind : a.kind = .reeq p) : doStallOverrun id s = (s.noteOverrun id).portLose p 9 := by
  simp only [doStallOverrun, hact, hkind, State.noteOverrun]

end

/-- Settles O46: each activity's end by the memory it names, by its first failure, by a lost stack or by its sink; each overrun by
its kind. -/
theorem maintenanceActivitiesEnd : Obligations.MaintenanceActivitiesEnd := by
  unfold Obligations.MaintenanceActivitiesEnd
  refine ⟨fun s id fails target pr co l g bg h rs bs hact => ⟨fun d hdie hclean => ?_, fun d f hdie hfail => ?_, fun hhub hclean => ?_⟩,
    fun s id m h rs bs hact => ⟨fun x hlost => ?_, fun hlost => ?_⟩, fun s id c h rs bs hact => ?_,
    fun s id bank dest h rs bs hfuse => ⟨fun hok => ?_, fun x hfail => ?_⟩,
    fun s id a hact => ⟨fun b lane hkind => ?_, fun b hkind => ?_, fun p hkind => ?_⟩⟩
  · rw [exec_marchComplete, doMarchComplete_die_of_clean hact hdie hclean]
    rfl
  · rw [exec_marchComplete, doMarchComplete_die_of_failed hact hdie hfail]
    rfl
  · rw [exec_marchComplete, doMarchComplete_hub_of_clean hact hhub hclean]
    rfl
  · rw [exec_scrubComplete, doScrubComplete_of_lost hact hlost]
    rfl
  · rw [exec_scrubComplete, doScrubComplete_of_kept hact hlost]
    rfl
  · rw [exec_thermalCalibrationComplete, doThermalCalibrationComplete_of_act hact]
  · rw [exec_fuseReadComplete, doFuseReadComplete_of_delivered hfuse hok]
    rfl
  · rw [exec_fuseReadComplete, doFuseReadComplete_of_failed hfuse hfail]
    rfl
  · rw [exec_marbStallOverrun, doStallOverrun_castle hact hkind]
    rfl
  · rw [exec_marbStallOverrun, doStallOverrun_retrain hact hkind]
    rfl
  · rw [exec_marbStallOverrun, doStallOverrun_reeq hact hkind]
    rfl

end Sys2Proof.Machine
end
section
/-!
SUPPORT. Maintenance commands at the arbiter (spec 19 R333, R334, R336): the start of each command, one equation for each outcome of a
request, and O53 (MaintenanceCommandsAskTheArbiter) put together from them.
-/
namespace Sys2Proof.Machine

/-! ## The start of a command (R284) -/

section
variable {s : State} {h : Quad} {c : Command}

theorem State.start_of_begins {opc : Nat} (hbegins : s.begins h opc = some c) (f : Command → State → State) :
    s.start h opc f = f c (s.running h) := by
  simp only [State.start, hbegins]

theorem State.calibrate_of_begins {kind : Nat} (hbegins : s.begins h 0x42 = some c) (hkind : c.arg 8 1 = kind)
    (f : Command → State → State) : s.calibrate h kind f = f c (s.running h) := by
  simp only [State.calibrate, hbegins, hkind, if_true]

/-! ## Each maintenance command with sound arguments is a request -/

theorem doScrub_of_begins (hbegins : s.begins h 0x41 = some c) (hmask : c.arg 8 1 ≠ 0) :
    doScrub h s = (s.running h).requestAct (some h) c.noqueue (.scrub (BitVec.ofNat 8 (c.arg 8 1))) := by
  rw [doScrub, State.start_of_begins hbegins, if_neg hmask]

theorem doCalibrateRetrain_of_begins {b : Fin 80} (hbegins : s.begins h 0x42 = some c) (hkind : c.arg 8 1 = 0)
    (hbundle : bundleOf (c.arg 10 2) = some b) :
    doCalibrateRetrain h s = (s.running h).requestAct (some h) c.noqueue (.retrain b) := by
  rw [doCalibrateRetrain, State.calibrate_of_begins hbegins hkind, hbundle]

theorem doCalibrateCastling_of_begins {b : Fin 80} (hbegins : s.begins h 0x42 = some c) (hkind : c.arg 8 1 = 1)
    (hlane : c.arg 12 1 < 66) (hbundle : bundleOf (c.arg 10 2) = some b) :
    doCalibrateCastling h s = (s.running h).requestAct (some h) c.noqueue (.castle b (c.arg 12 1)) := by
  rw [doCalibrateCastling, State.calibrate_of_begins hbegins hkind, hbundle]
  exact if_neg (Nat.not_le.2 hlane)

theorem doCalibrateReeq_of_begins {p : Fin 24} (hbegins : s.begins h 0x42 = some c) (hkind : c.arg 8 1 = 2)
    (hport : portOf (c.arg 10 2) = some p) :
    doCalibrateReeq h s = ((s.running h).requestAct (some h) c.noqueue (.reeq p)).startReeqs := by
  rw [doCalibrateReeq, State.calibrate_of_begins hbegins hkind, hport]

theorem doCalibrateThermal_of_begins (hbegins : s.begins h 0x42 = some c) (hkind : c.arg 8 1 = 3)
    (hzone : zoneCode (c.arg 10 2) = true) :
    doCalibrateThermal h s = (s.running h).requestAct (some h) c.noqueue (.thermal (BitVec.ofNat 16 (c.arg 10 2))) := by
  rw [doCalibrateThermal, State.calibrate_of_begins hbegins hkind, if_pos hzone]

theorem doFuseRead_of_begins (hbegins : s.begins h 0x43 = some c) (hbank : c.arg 8 1 ≤ 5) :
    doFuseRead h s = (s.running h).requestAct (some h) c.noqueue (.fuse (c.arg 8 1) (c.arg 16 8)) := by
  rw [doFuseRead, State.start_of_begins hbegins, if_neg (Nat.not_lt.2 hbank)]

theorem doDieReset_of_begins {d : Fin 4} (hbegins : s.begins h 0x44 = some c) (hdie : fin? 4 (c.arg 8 1) = some d) :
    doDieReset h s = (s.running h).requestAct (some h) c.noqueue (.dieReset d) := by
  rw [doDieReset, State.start_of_begins hbegins, hdie]

/-- The background of a MARCH; under SW4_COMPAT its low half stands for both (spec 07 R147). -/
def marchBackground (c : Command) : Nat := if nbit (c.arg 9 1) 1 then c.arg 16 4 * (2 ^ 32 + 1) else c.arg 16 8

/-- A MARCH by one of the three lists that the spec names (spec 07 Table 7-5). -/
def Command.NamesList (c : Command) (l : List Word) : Prop :=
  (c.arg 10 1 = 1 ∧ l = marchMats) ∨ (c.arg 10 1 = 2 ∧ l = marchC) ∨ (c.arg 10 1 = 3 ∧ l = marchSs)

theorem doMarch_of_begins {src : HostData} {l : List Word} (hbegins : s.begins h 0x40 = some c) (hargs : marchArgsBad c = false)
    (hvault : ¬(c.arg 8 1 = 4 ∧ (BitVec.ofNat 32 (c.arg 12 4)).getLsbD 23 = true)) (hlist : c.NamesList l)
    (helems : l.any elemBad = false) (hport : marchPortB (c.arg 8 1) (BitVec.ofNat 32 (c.arg 12 4)) l = false) :
    doMarch h src s = (s.running h).requestAct (some h) c.noqueue (.march (c.arg 8 1) (nbit (c.arg 9 1) 0) (nbit (c.arg 9 1) 1) l
      (BitVec.ofNat 32 (c.arg 12 4)) (BitVec.ofNat 64 (marchBackground c))) := by
  rw [doMarch, State.start_of_begins hbegins]
  rcases hlist with ⟨hcode, rfl⟩ | ⟨hcode, rfl⟩ | ⟨hcode, rfl⟩ <;>
    simp only [hargs, hvault, hcode, helems, hport, marchBackground, if_false, Bool.false_eq_true]

end

/-- A command of the opcode, with arguments that give an activity, is a request for that activity. -/
def AsksArbiter (run : Quad → Instr) (opc : Nat) (kind : Command → Option ActKind) : Prop :=
  ∀ (s : State) (h : Quad) (c : Command) (k : ActKind), s.begins h opc = some c → kind c = some k →
    exec (run h) s = .next (s.after ((s.running h).requestAct (some h) c.noqueue k))

theorem asksArbiter_of_effect {run : Quad → Instr} {opc : Nat} {kind : Command → Option ActKind} {f : Quad → State → State}
    (hexec : ∀ h s, exec (run h) s = ran (f h) s)
    (hf : ∀ {s h c k}, s.begins h opc = some c → kind c = some k → f h s = (s.running h).requestAct (some h) c.noqueue k) :
    AsksArbiter run opc kind := by
  intro s h c k hbegins hkind
  rw [hexec, ran_eq_next_after, hf hbegins hkind]

theorem asksArbiter_scrub :
    AsksArbiter .scrub 0x41 fun c => if c.arg 8 1 = 0 then none else some (.scrub (BitVec.ofNat 8 (c.arg 8 1))) :=
  asksArbiter_of_effect (f := doScrub) (fun _ _ => rfl) fun hbegins hkind => by
    obtain ⟨hmask, rfl⟩ := by simpa using hkind
    exact doScrub_of_begins hbegins hmask

theorem asksArbiter_calibrateBundleRetrain :
    AsksArbiter .calibrateBundleRetrain 0x42 fun c => if c.arg 8 1 = 0 then (bundleOf (c.arg 10 2)).map .retrain else none :=
  asksArbiter_of_effect (f := doCalibrateRetrain) (fun _ _ => rfl) fun hbegins hkind => by
    obtain ⟨hzero, b, hbundle, rfl⟩ := by simpa using hkind
    exact doCalibrateRetrain_of_begins hbegins hzero hbundle

theorem asksArbiter_calibrateCastling :
    AsksArbiter .calibrateCastling 0x42 fun c =>
      if c.arg 8 1 = 1 ∧ c.arg 12 1 < 66 then (bundleOf (c.arg 10 2)).map (.castle · (c.arg 12 1)) else none :=
  asksArbiter_of_effect (f := doCalibrateCastling) (fun _ _ => rfl) fun hbegins hkind => by
    obtain ⟨⟨hone, hlane⟩, b, hbundle, rfl⟩ := by simpa using hkind
    exact doCalibrateCastling_of_begins hbegins hone hlane hbundle

theorem asksArbiter_calibrateThermal :
    AsksArbiter .calibrateThermal 0x42 fun c =>
      if c.arg 8 1 = 3 ∧ zoneCode (c.arg 10 2) = true then some (.thermal (BitVec.ofNat 16 (c.arg 10 2))) else none :=
  asksArbiter_of_effect (f := doCalibrateThermal) (fun _ _ => rfl) fun hbegins hkind => by
    obtain ⟨⟨hthree, hzone⟩, rfl⟩ := by simpa using hkind
    exact doCalibrateThermal_of_begins hbegins hthree hzone

theorem asksArbiter_fuseRead :
    AsksArbiter .fuseRead 0x43 fun c => if c.arg 8 1 ≤ 5 then some (.fuse (c.arg 8 1) (c.arg 16 8)) else none :=
  asksArbiter_of_effect (f := doFuseRead) (fun _ _ => rfl) fun hbegins hkind => by
    obtain ⟨hbank, rfl⟩ := by simpa using hkind
    exact doFuseRead_of_begins hbegins hbank

theorem asksArbiter_dieReset : AsksArbiter .dieReset 0x44 fun c => (fin? 4 (c.arg 8 1)).map .dieReset :=
  asksArbiter_of_effect (f := doDieReset) (fun _ _ => rfl) fun hbegins hkind => by
    obtain ⟨d, hdie, rfl⟩ := by simpa using hkind
    exact doDieReset_of_begins hbegins hdie

theorem exec_calibrateOpticalReeq (h : Quad) (s : State) :
    exec (.calibrateOpticalReeq h) s = .next (s.after (doCalibrateReeq h s)) :=
  ran_eq_next_after (doCalibrateReeq h) s

theorem exec_march (h : Quad) (src : HostData) (s : State) : exec (.march h src) s = .next (s.after (doMarch h src s)) :=
  ran_eq_next_after (doMarch h src) s

/-! ## The arbiter's answer to a request (R333, R334, R336) -/

@[simp] theorem State.modCmd_marb (s : State) (h : Quad) (f : Command → Command) : (s.modCmd h f).marb = s.marb := rfl

@[simp] theorem State.syncMarb_queue (s : State) : s.syncMarb.marb.queue = s.marb.queue := rfl

/-- A record of progress leaves the arbiter alone. -/
@[simp] theorem State.actProgress_marb (s : State) (h : Quad) (st : Half) (done total : Nat) :
    (s.actProgress h st done total).marb = s.marb := by
  unfold State.actProgress State.progress
  split
  · rfl
  · split <;> rfl

/-- The activity that a request of a command would become, with the next identifier. -/
def State.newAct (s : State) (h : Quad) (k : ActKind) : Activity := ⟨s.marb.nextId, k, some h, actResources k, s.actBudgets k⟩

/-- The next identifier is taken. -/
def State.takeId (s : State) : State := s.modMarb fun m => { m with nextId := m.nextId + 1 }

/-- Why the request cannot be admitted now. -/
def State.obstacle (s : State) (k : ActKind) : Option Half :=
  s.takeId.blocked (actResources k) (s.actBudgets k) s.takeId.marb.queue

section
variable {s : State} {h : Quad} {noqueue : Bool} {k : ActKind}

theorem State.requestAct_of_refusal {x : Half} (hrefusal : s.actRefusal k = some x) :
    s.requestAct (some h) noqueue k = s.final h stNotPermitted x := by
  simp only [State.requestAct, hrefusal, State.refuseAct]

variable (hrefusal : s.actRefusal k = none)
include hrefusal

theorem State.requestAct_of_overPath {x : Half} (hpath : s.overPath (s.actBudgets k) (fun _ => 0) = some x) :
    s.requestAct (some h) noqueue k = s.conflict (some h) x := by
  simp only [State.requestAct, hrefusal, hpath]

variable (hpath : s.overPath (s.actBudgets k) (fun _ => 0) = none)
include hpath

theorem State.requestAct_of_unblocked (hfree : s.obstacle k = none) :
    s.requestAct (some h) noqueue k = s.takeId.takeOn (s.newAct h k) := by
  unfold State.obstacle State.takeId at hfree
  simp only [State.requestAct, hrefusal, hpath, hfree, State.takeId, State.newAct]

variable {x : Half} (hblocked : s.obstacle k = some x)
include hblocked

theorem State.requestAct_of_full (hfull : marbQueueSize ≤ s.takeId.marb.queue.length) :
    s.requestAct (some h) noqueue k = s.takeId.conflict (some h) (BitVec.ofNat 16 codeMarb) := by
  unfold State.obstacle State.takeId at hblocked
  unfold State.takeId at hfull
  simp only [State.requestAct, hrefusal, hpath, hblocked, hfull, State.takeId, if_true]

theorem State.requestAct_of_noqueue (hroom : s.takeId.marb.queue.length < marbQueueSize) :
    s.requestAct (some h) true k = s.takeId.conflict (some h) x := by
  unfold State.obstacle State.takeId at hblocked
  unfold State.takeId at hroom
  simp only [State.requestAct, hrefusal, hpath, hblocked, Nat.not_le.2 hroom, State.takeId, if_true, if_false]

theorem State.queue_requestAct_of_room (hroom : s.takeId.marb.queue.length < marbQueueSize) :
    (s.requestAct (some h) false k).marb.queue = s.takeId.marb.queue ++ [s.newAct h k] := by
  unfold State.obstacle State.takeId at hblocked
  unfold State.takeId at hroom
  simp only [State.requestAct, hrefusal, hpath, hblocked, Nat.not_le.2 hroom, if_false, Bool.false_eq_true]
  split <;> simp [State.newAct, State.takeId]

end

/-- Settles O53: each command asks for its activity, and the arbiter answers by its refusal, its limits, its obstacles and its room. -/
theorem maintenanceCommandsAskTheArbiter : Obligations.MaintenanceCommandsAskTheArbiter := by
  unfold Obligations.MaintenanceCommandsAskTheArbiter
  refine ⟨⟨asksArbiter_scrub, asksArbiter_calibrateBundleRetrain, asksArbiter_calibrateCastling, asksArbiter_calibrateThermal,
    asksArbiter_fuseRead, asksArbiter_dieReset⟩, fun s h c p hbegins hkind hport => ?_,
    fun s h src c l hbegins hargs hvault hlist helems hport => ?_,
    fun s h noqueue k => ⟨fun x hrefusal => ?_, fun x hrefusal hpath => ?_, fun hrefusal hpath =>
      ⟨fun hfree => ?_, fun x hblocked hfull => ?_, fun x hblocked hroom hnoqueue => ?_, fun x hblocked hroom hqueue => ?_⟩⟩⟩
  · rw [exec_calibrateOpticalReeq, doCalibrateReeq_of_begins hbegins hkind hport]
  · rw [exec_march, doMarch_of_begins hbegins hargs hvault hlist helems hport]
    rfl
  · exact State.requestAct_of_refusal hrefusal
  · exact State.requestAct_of_overPath hrefusal hpath
  · exact State.requestAct_of_unblocked hrefusal hpath hfree
  · exact State.requestAct_of_full hrefusal hpath hblocked hfull
  · subst hnoqueue
    exact State.requestAct_of_noqueue hrefusal hpath hblocked hroom
  · subst hqueue
    exact State.queue_requestAct_of_room hrefusal hpath hblocked hroom

end Sys2Proof.Machine
end
section
/-!
SUPPORT. The fabric between the dies (spec 09 R162 to R174, R178; spec 19 R337): one equation for each outcome of a line's arrival and
invalidation, of an entry and a measurement of a bundle, of a castling and a retraining, and of a per-die reset; O25
(RemoteCachesFollowHomes), O27 (BundleEntriesAndMargins), O28 (CastlingAndRetraining) and O47 (DieResetDrainsAndRejoins) put together
from them.
-/
namespace Sys2Proof.Machine

/-! ## Each fabric command runs its own effect -/

theorem exec_remoteCacheFillArrival (d : Fin 4) (l : Nat) (s : State) :
    exec (.remoteCacheFillArrival d l) s = .next (s.after (doFillArrival d l s)) :=
  ran_eq_next_after (doFillArrival d l) s

theorem exec_remoteCacheInvalidate (d : Fin 4) (l : Nat) (s : State) :
    exec (.remoteCacheInvalidate d l) s = .next (s.after (doRemoteInvalidate d l s)) :=
  ran_eq_next_after (doRemoteInvalidate d l) s

theorem exec_homeFilterInvalAck (l : Nat) (s : State) : exec (.homeFilterInvalAck l) s = .next (s.after (doInvalAck l s)) :=
  ran_eq_next_after (doInvalAck l) s

theorem exec_bundleEntryReceive (b : Fin 80) (tag : Nat) (ok : Bool) (s : State) :
    exec (.bundleEntryReceive b tag ok) s = .next (s.after (doBundleEntryReceive b tag ok s)) :=
  ran_eq_next_after (doBundleEntryReceive b tag ok) s

theorem exec_crcWindowEnd (b : Fin 80) (s : State) : exec (.crcWindowEnd b) s = .next (s.after (doCrcWindowEnd b s)) :=
  ran_eq_next_after (doCrcWindowEnd b) s

theorem exec_eyeMeasurement (b : Fin 80) (w : List Nat) (s : State) :
    exec (.eyeMeasurement b w) s = .next (s.after (doEyeMeasurement b w s)) :=
  ran_eq_next_after (doEyeMeasurement b w) s

theorem exec_castling (b : Fin 80) (s : State) : exec (.castling b) s = .next (s.after (doCastling b s)) :=
  ran_eq_next_after (doCastling b) s

theorem exec_castlingSwitch (b : Fin 80) (s : State) : exec (.castlingSwitch b) s = .next (s.after (doCastlingSwitch b s)) :=
  ran_eq_next_after (doCastlingSwitch b) s

theorem exec_castlingComplete (b : Fin 80) (pass : Bool) (s : State) :
    exec (.castlingComplete b pass) s = .next (s.after (doCastlingComplete b pass s)) :=
  ran_eq_next_after (doCastlingComplete b pass) s

theorem exec_bundleRetrain (b : Fin 80) (s : State) : exec (.bundleRetrain b) s = .next (s.after (doBundleRetrain b s)) :=
  ran_eq_next_after (doBundleRetrain b) s

theorem exec_bundleRetrainComplete (b : Fin 80) (bad : List Nat) (s : State) :
    exec (.bundleRetrainComplete b bad) s = .next (s.after (doBundleRetrainComplete b bad s)) :=
  ran_eq_next_after (doBundleRetrainComplete b bad) s

theorem exec_dieResetDrainEnd (d : Fin 4) (s : State) :
    exec (.dieResetDrainEnd d) s = .next (s.after (doDieResetDrainEnd d s)) :=
  ran_eq_next_after (doDieResetDrainEnd d) s

theorem exec_dieResetAbandon (d : Fin 4) (s : State) : exec (.dieResetAbandon d) s = .next (s.after (doDieResetAbandon d s)) :=
  ran_eq_next_after (doDieResetAbandon d) s

theorem exec_dieResetRejoin (d : Fin 4) (bad : List (Nat × Nat)) (lost : List (Fin 8)) (s : State) :
    exec (.dieResetRejoin d bad lost) s = .next (s.after (doDieResetRejoin d bad lost s)) :=
  ran_eq_next_after (doDieResetRejoin d bad lost) s

/-! ## Remote caches (R172 to R174) -/

/-- The line is no longer on its way to the die. -/
def State.fillLanded (s : State) (d : Fin 4) (l : Nat) : State :=
  s.modDie d fun y => { y with fills := dropFirst (fun c => c.line == l) y.fills }

section
variable {s : State} {d : Fin 4} {l : Nat} {c : CacheLine} (hfill : (s.die d).fills.find? (fun c => c.line == l) = some c)
include hfill

theorem doFillArrival_of_invalidated (hinval : (s.die d).invals.contains l = true) :
    doFillArrival d l s = s.fillLanded d l := by
  simp only [doFillArrival, hfill, hinval, State.fillLanded, if_true]

theorem doFillArrival_of_room (hinval : (s.die d).invals.contains l = false) (hroom : (s.die d).cache.length < cacheLines) :
    doFillArrival d l s = (s.fillLanded d l).modDie d fun y => { y with cache := y.cache ++ [c] } := by
  have hfull : decide (cacheLines ≤ (s.die d).cache.length) = false := decide_eq_false (Nat.not_le.2 hroom)
  simp only [doFillArrival, hfill, hinval, hfull, State.fillLanded, if_false, Bool.false_eq_true]

end

/-- The die drops the line and owes no invalidation of it. -/
def Die.dropLine (x : Die) (l : Nat) : Die :=
  { x with invals := x.invals.filter fun m => m != l, cache := x.cache.filter fun c => c.line != l }

/-- The home no longer counts the die among the holders of an entry's line. -/
def FilterEntry.without (e : FilterEntry) (d : Fin 4) : FilterEntry :=
  { e with presence := e.presence &&& ~~~(BitVec.twoPow 4 d.1) }

theorem doRemoteInvalidate_of_settled {s : State} {d : Fin 4} {l : Nat} (hinval : (s.die d).invals.contains l = true)
    (hfills : ((s.die d).fills.any fun c => c.line == l) = false) :
    doRemoteInvalidate d l s = (s.modDie d fun y => y.dropLine l).modFab fun f =>
      { f with filters := updateWhere (fun e => e.line == l) (fun e => e.without d) f.filters } := by
  simp only [doRemoteInvalidate, hinval, hfills, Bool.not_true, Bool.or_false, Bool.false_eq_true, if_false]
  rfl

theorem doInvalAck_of_none_owed {s : State} {l : Nat} (hnone : ∀ d : Fin 4, (s.die d).invals.contains l = false) :
    doInvalAck l s = (s.modFab fun f => { f with
      filters := f.filters.filter fun e => e.line != l || e.presence != 0
      pendingWrites := updateWhere (fun w => w.line == l) (fun w => { w with needInv := false }) f.pendingWrites }).release l := by
  have hany : ((allFin 4).any fun d => (s.die d).invals.contains l) = false := 
    List.any_eq_false.2 fun d _ => Bool.eq_false_iff.1 (hnone d)
  simp only [doInvalAck, hany, Bool.false_eq_true, if_false]

/-- Settles O25: an arrival by a pending invalidation and by room, an invalidation whose line is not on its way, and a line of which
no die owes one. -/
theorem remoteCachesFollowHomes : Obligations.RemoteCachesFollowHomes := by
  unfold Obligations.RemoteCachesFollowHomes
  refine ⟨fun s d l c hfill => ⟨fun hinval => ?_, fun hinval hroom => ?_⟩, fun s d l hinval hfills => ?_, fun s l hnone => ?_⟩
  · rw [exec_remoteCacheFillArrival, doFillArrival_of_invalidated hfill hinval]
    rfl
  · rw [exec_remoteCacheFillArrival, doFillArrival_of_room hfill hinval hroom]
    rfl
  · rw [exec_remoteCacheInvalidate, doRemoteInvalidate_of_settled hinval hfills]
    rfl
  · rw [exec_homeFilterInvalAck, doInvalAck_of_none_owed hnone]
    rfl

/-! ## Reads and updates of one bundle -/

@[simp] theorem vget_vmod_self {α : Type} {n : Nat} (v : Vector α n) (i : Fin n) (f : α → α) : vget (vmod v i f) i = f (vget v i) :=
  Vector.getElem_set_self i.2

@[simp] theorem State.bun_modBun_self (s : State) (b : Fin 80) (f : Bundle → Bundle) : (s.modBun b f).bun b = f (s.bun b) :=
  vget_vmod_self s.fab.bundles b f

@[simp] theorem State.castleCfg_modBun (s : State) (b : Fin 80) (f : Bundle → Bundle) :
    (s.modBun b f).fab.castleCfg = s.fab.castleCfg := rfl

theorem State.modBun_congr {s : State} {b : Fin 80} {f g : Bundle → Bundle} (h : f (s.bun b) = g (s.bun b)) :
    s.modBun b f = s.modBun b g := by
  rw [State.modBun, State.modBun, State.modFab, State.modFab, vmod_congr h]

/-! ## Entries, CRC windows and margins (R162 to R166) -/

/-- The bundle's CRC errors in the window with one more. -/
def State.crcRaised (s : State) (b : Fin 80) : WinCount :=
  ⟨s.crcWin, if (s.bun b).crc.win = s.crcWin then (s.bun b).crc.n + 1 else 1⟩

/-- A failed entry that is not the expected one is counted. -/
def State.countFailed (s : State) (b : Fin 80) : State :=
  s.modBun b fun x => { x with crc := s.crcRaised b, err := fsat bunErrCrcErr 1 x.err }

/-- A failed entry that is the expected one is counted; it also prolongs the run of failures. -/
def State.countReplay (s : State) (b : Fin 80) : State :=
  s.modBun b fun x => { x with
    crc := s.crcRaised b, failing := x.failing + 1, err := fsat bunErrCrcErr 1 (fsat bunErrReplays 1 x.err) }

/-- The run of successive measurements below `least` of each logical lane, after a measurement (R166). -/
def Bundle.lowRuns (x : Bundle) (least : Nat) (w : List Nat) : List Nat :=
  (List.range 66).map fun l => if x.uses l && decide (w.getD (x.physical l) 256 < least) then x.low.getD l 0 + 1 else 0

section
variable {s : State} {b : Fin 80} (hcarries : (s.bun b).carries = true)
include hcarries

theorem doBundleEntryReceive_good_of_expected {tag : Nat} (htag : tag = (s.bun b).rxNext) :
    doBundleEntryReceive b tag true s = s.modBun b fun x => { x with rxNext := tag + 1, failing := 0 } := by
  simp only [doBundleEntryReceive, hcarries, Bool.not_true, Bool.false_eq_true, if_false, if_true]
  exact State.modBun_congr (if_pos htag)

theorem doBundleEntryReceive_good_of_other {tag : Nat} (htag : tag ≠ (s.bun b).rxNext) :
    doBundleEntryReceive b tag true s = s.modBun b fun x => x := by
  simp only [doBundleEntryReceive, hcarries, Bool.not_true, Bool.false_eq_true, if_false, if_true]
  exact State.modBun_congr (if_neg htag)

theorem doBundleEntryReceive_failed_of_other {tag : Nat} (htag : tag ≠ (s.bun b).rxNext) :
    doBundleEntryReceive b tag false s = (s.countFailed b).crcCall b := by
  have hfirst : (tag == (s.bun b).rxNext) = false := beq_false_of_ne htag
  simp only [doBundleEntryReceive, hcarries, hfirst, Bool.not_true, Bool.false_and, Bool.false_eq_true, if_false]
  rfl

/-- A failed entry that is the expected one disables the bundle once the run is 17 long (R162). -/
theorem doBundleEntryReceive_failed_of_expected {tag : Nat} (htag : tag = (s.bun b).rxNext) :
    doBundleEntryReceive b tag false s =
      if 16 ≤ (s.bun b).failing then (s.countReplay b).disableBundle b else (s.countReplay b).crcCall b := by
  have hfirst : (tag == (s.bun b).rxNext) = true := beq_iff_eq.2 htag
  have hrun : 17 ≤ (s.bun b).failing + 1 ↔ 16 ≤ (s.bun b).failing := by omega
  simp only [doBundleEntryReceive, hcarries, hfirst, State.bun_modBun_self, hrun, Bool.not_true, Bool.true_and, Bool.false_eq_true,
    if_false, if_true, decide_eq_true_eq]
  rfl

theorem doEyeMeasurement_of_manual (w : List Nat) (hauto : fon castleAuto s.fab.castleCfg = false) :
    doEyeMeasurement b w s = s.modBun b fun x => { x with low := x.lowRuns (fget castleMarginMin s.fab.castleCfg) w } := by
  simp only [doEyeMeasurement, hcarries, State.castleCfg_modBun, hauto, Bool.not_true, Bool.not_false, Bool.false_eq_true, if_false,
    if_true]
  exact State.modBun_congr rfl

end

theorem doCrcWindowEnd_of_ended {s : State} {b : Fin 80} (hended : (s.bun b).crc.win < s.crcWin) :
    doCrcWindowEnd b s = s.modBun b fun x => { x with crc := ⟨s.crcWin, 0⟩ } :=
  State.modBun_congr (if_pos hended)

/-- Settles O27: an entry by its check, its tag and the run of failures before it; a window that has ended; a measurement with AUTO
off. -/
theorem bundleEntriesAndMargins : Obligations.BundleEntriesAndMargins := by
  unfold Obligations.BundleEntriesAndMargins
  refine ⟨fun s b tag hcarries => ⟨fun htag => ?_, fun htag => ?_, fun htag => ?_, fun htag => ⟨fun hshort => ?_, fun hlong => ?_⟩⟩,
    fun s b hended => ?_, fun s b w hcarries hauto => ?_⟩
  · rw [exec_bundleEntryReceive, doBundleEntryReceive_good_of_expected hcarries htag]
  · rw [exec_bundleEntryReceive, doBundleEntryReceive_good_of_other hcarries htag]
  · rw [exec_bundleEntryReceive, doBundleEntryReceive_failed_of_other hcarries htag]
    rfl
  · rw [exec_bundleEntryReceive, doBundleEntryReceive_failed_of_expected hcarries htag, if_neg (Nat.not_le.2 hshort)]
    rfl
  · rw [exec_bundleEntryReceive, doBundleEntryReceive_failed_of_expected hcarries htag, if_pos hlong]
    rfl
  · rw [exec_crcWindowEnd, doCrcWindowEnd_of_ended hended]
  · rw [exec_eyeMeasurement, doEyeMeasurement_of_manual hcarries w hauto]
    rfl

/-! ## Castling (R167, R168) -/

section
variable {s : State} {b : Fin 80} {id lane : Nat} {h : Option Quad} {rs bs : List (Nat × Nat)}
  (hact : s.bundleAct b = some ⟨id, .castle b lane, h, rs, bs⟩) (hidle : (s.bun b).cast = none) (hcarries : (s.bun b).carries = true)
include hact hidle hcarries

theorem doCastling_of_spare {i : Nat} (hspare : (s.bun b).nextSpare 0 = some i) :
    doCastling b s = s.modBun b fun x => { x.setSt bsCastling with former := x.st, cast := some ⟨lane, i, false⟩ } := by
  simp only [doCastling, hact, hidle, hcarries, hspare, Option.isSome_none, Bool.not_true, Bool.false_eq_true, if_false]

theorem doCastling_of_no_spare (hspare : (s.bun b).nextSpare 0 = none) :
    doCastling b s = (s.ladder b lane).endBundleAct b := by
  simp only [doCastling, hact, hidle, hcarries, hspare, Option.isSome_none, Bool.not_true, Bool.false_eq_true, if_false]

end

/-- The bundle after a swap that passed: a spare that served the lane before is bad, and the one tried carries it (R167 step 7). -/
def Bundle.swapped (x : Bundle) (c : Castling) : Bundle :=
  let y := (List.range 4).foldl (fun (y : Bundle) i => if y.spare i == c.lane then y.setSpare i laneBad else y) x
  let y := (y.setSpare c.spare c.lane).setSt x.former
  { y with cast := none, low := y.low.set c.lane 0, status := fput bunLastLane c.lane (fsat bunCastleCount 1 y.status) }

/-- The spare tried is bad (R168). -/
def State.spareFailed (s : State) (b : Fin 80) (c : Castling) : State := s.modBun b fun x => x.setSpare c.spare laneBad

section
variable {s : State} {b : Fin 80} {c : Castling} (hcast : (s.bun b).cast = some c)
include hcast

theorem doCastlingSwitch_of_castling (hst : (s.bun b).st = bsCastling) :
    doCastlingSwitch b s = s.modBun b fun x => { x with cast := some { c with switched := true } } :=
  State.modBun_congr (by simp only [hcast, hst, if_true])

variable (hswitched : c.switched = true)
include hswitched

theorem doCastlingComplete_of_pass :
    doCastlingComplete b true s =
      ((s.modBun b fun x => x.swapped c).log .fabric lgCastling [b.1, c.lane, c.spare]).endBundleAct b := by
  simp only [doCastlingComplete, hcast, hswitched, Bool.not_true, Bool.false_eq_true, if_false, if_true]
  rfl

theorem doCastlingComplete_failed_of_spare {i : Nat} (hspare : ((s.spareFailed b c).bun b).nextSpare c.spare = some i) :
    doCastlingComplete b false s = (s.spareFailed b c).modBun b fun x => { x with cast := some ⟨c.lane, i, false⟩ } := by
  unfold State.spareFailed at hspare ⊢
  simp only [doCastlingComplete, hcast, hswitched, hspare, Bool.not_true, Bool.false_eq_true, if_false]

theorem doCastlingComplete_failed_of_no_spare (hspare : ((s.spareFailed b c).bun b).nextSpare c.spare = none) :
    doCastlingComplete b false s =
      (((s.spareFailed b c).modBun b fun x => { x with cast := none }).ladder b c.lane).endBundleAct b := by
  unfold State.spareFailed at hspare ⊢
  simp only [doCastlingComplete, hcast, hswitched, hspare, Bool.not_true, Bool.false_eq_true, if_false]

end

/-! ## Retraining (R165, R166) -/

theorem doBundleRetrain_of_admitted {s : State} {b : Fin 80} {id : Nat} {h : Option Quad} {rs bs : List (Nat × Nat)}
    (hact : s.bundleAct b = some ⟨id, .retrain b, h, rs, bs⟩) (hst : (s.bun b).st ≠ bsRetrain) (hcarries : (s.bun b).carries = true) :
    doBundleRetrain b s = s.modBun b fun x => { x.setSt bsRetrain with former := x.st } := by
  simp only [doBundleRetrain, hact, hst, hcarries, Bool.not_true, Bool.false_eq_true, if_false]

theorem doBundleRetrainComplete_of_retrain {s : State} {b : Fin 80} (bad : List Nat) (hst : (s.bun b).st = bsRetrain) :
    doBundleRetrainComplete b bad s =
      ((s.modBun b fun x => { x.train (s.fusedBad b) bad with rxNext := x.rxNext }).relink).endBundleAct b := by
  have hfrom : (s.modBun b fun x => { x.train (s.fusedBad b) bad with rxNext := (s.bun b).rxNext }) =
      s.modBun b fun x => { x.train (s.fusedBad b) bad with rxNext := x.rxNext } := State.modBun_congr rfl
  simp only [doBundleRetrainComplete, hst, hfrom, ne_eq, not_true_eq_false, if_false]

/-- Settles O28: an admitted castling by the spare it finds, its switch, its end by the check and by the spare left; a retraining's
start and end. -/
theorem castlingAndRetraining : Obligations.CastlingAndRetraining := by
  unfold Obligations.CastlingAndRetraining
  refine ⟨fun s b id lane i h rs bs hact hidle hcarries => ⟨fun hspare => ?_, fun hspare => ?_⟩, fun s b c hcast hst => ?_,
    fun s b c hcast hswitched => ⟨?_, fun i hspare => ?_, fun hspare => ?_⟩, fun s b id h rs bs hact hst hcarries => ?_,
    fun s b bad hst => ?_⟩
  · rw [exec_castling, doCastling_of_spare hact hidle hcarries hspare]
  · rw [exec_castling, doCastling_of_no_spare hact hidle hcarries hspare]
  · rw [exec_castlingSwitch, doCastlingSwitch_of_castling hcast hst]
  · rw [exec_castlingComplete, doCastlingComplete_of_pass hcast hswitched]
    rfl
  · rw [exec_castlingComplete, doCastlingComplete_failed_of_spare hcast hswitched hspare]
    rfl
  · rw [exec_castlingComplete, doCastlingComplete_failed_of_no_spare hcast hswitched hspare]
    rfl
  · rw [exec_bundleRetrain, doBundleRetrain_of_admitted hact hst hcarries]
  · rw [exec_bundleRetrainComplete, doBundleRetrainComplete_of_retrain bad hst]

/-! ## Per-die resets (R177, R178; spec 19 R337) -/

/-- The lanes of a die's bundles that failed the loop-back test. -/
def failedLanes (d : Fin 4) (bad : List (Nat × Nat)) : Nat :=
  (bad.filter fun x => match fin? 80 x.1 with
    | some b => bundleOfDie b d
    | none => false).length

/-- The result of the loop-back test in DIETEST, when it was asked for (spec 19 R337). -/
def State.testedDie (s : State) (d : Fin 4) (r : DieResetRun) (bad : List (Nat × Nat)) : State :=
  if r.test then s.modMarb fun m => { m with
    dietest := fput (d.1, d.1) 0 (fput (39 + 8 * d.1, 32 + 8 * d.1) (min (failedLanes d bad) 255) m.dietest) } else s

section
variable {s : State} {d : Fin 4} {r : DieResetRun} (hreset : vget s.fab.resets d = some r)
include hreset

theorem doDieResetDrainEnd_of_idle (hdrain : r.drained = false) (hidle : s.dieBusy d = false) :
    doDieResetDrainEnd d s =
      ((s.modFab fun f => { f with resets := vset f.resets d (some { r with drained := true }) }).quiesceDie d).actProgress
        r.handle stAccepted 0 0 := by
  simp only [doDieResetDrainEnd, hreset, hdrain, hidle, Bool.or_self, Bool.false_eq_true, if_false]

theorem doDieResetDrainEnd_of_busy (hbusy : s.dieBusy d = true) : doDieResetDrainEnd d s = s := by
  simp only [doDieResetDrainEnd, hreset, hbusy, Bool.or_true, if_true]

theorem doDieResetAbandon_of_late (hdrain : r.drained = false) (hlate : r.t0 + ticksPerMs ≤ s.aon) :
    doDieResetAbandon d s = ((s.modFab fun f => { f with
      resets := vset f.resets d none
      dieState := vmod f.dieState d fun w => fput dieCause (r.former / 256) (fput dieState r.former w) }).endAct r.act).final
        r.handle stCancelled 0 := by
  have hend : decide (s.aon < r.t0 + ticksPerMs) = false := decide_eq_false (Nat.not_lt.2 hlate)
  simp only [doDieResetAbandon, hreset, hdrain, hend, Bool.or_self, Bool.false_eq_true, if_false]

theorem doDieResetRejoin_of_drained (bad : List (Nat × Nat)) (lost : List (Fin 8)) (hdrain : r.drained = true) :
    doDieResetRejoin d bad lost s =
      let x := ((s.testedDie d r bad).modPwc fun p => { p with padHold := p.padHold &&& ~~~(padBits d) }).rejoinDie d bad lost
      (x.1.endAct r.act).rejoinFinal r.handle [d] x.2 lost := by
  simp only [doDieResetRejoin, hreset, hdrain, Bool.not_true, Bool.false_eq_true, if_false]
  rfl

end

/-- Settles O47: the end of a drain by the writes that wait, its abandonment by its age, the rejoining of a drained die. -/
theorem dieResetDrainsAndRejoins : Obligations.DieResetDrainsAndRejoins := by
  unfold Obligations.DieResetDrainsAndRejoins
  refine ⟨fun s d r hreset hdrain hidle => ?_, fun s d r hreset _ hbusy => ?_, fun s d r hreset hdrain hlate => ?_,
    fun s d bad lost r hreset hdrain => ?_⟩
  · rw [exec_dieResetDrainEnd, doDieResetDrainEnd_of_idle hreset hdrain hidle]
  · rw [exec_dieResetDrainEnd, doDieResetDrainEnd_of_busy hreset hbusy]
  · rw [exec_dieResetAbandon, doDieResetAbandon_of_late hreset hdrain hlate]
  · rw [exec_dieResetRejoin, doDieResetRejoin_of_drained hreset bad lost hdrain]
    rfl

end Sys2Proof.Machine
end

section
/-!
SUPPORT. The ports of the Terti links (spec 10 R189 to R203, R210): how each control flit, each periodic step and each message of a port
acts where its conditions hold; O31 (ControlFlitsActOnce) and O33 (PortWindowsAndHousekeeping) put together from them.
-/
namespace Sys2Proof.Machine

/-! ## Each command of a port runs its own effect -/

theorem exec_ctlParam (p : Fin 24) (s : State) : exec (.ctlParam p) s = .next (s.after (doCtlParam p s)) :=
  ran_eq_next_after (doCtlParam p) s

theorem exec_ctlSync (p : Fin 24) (s : State) : exec (.ctlSync p) s = .next (s.after (doCtlSync p s)) :=
  ran_eq_next_after (doCtlSync p) s

theorem exec_ctlFfeReq (p : Fin 24) (s : State) : exec (.ctlFfeReq p) s = .next (s.after (doCtlFfeReq p s)) :=
  ran_eq_next_after (doCtlFfeReq p) s

theorem exec_ctlLambdaNotice (p : Fin 24) (s : State) : exec (.ctlLambdaNotice p) s = .next (s.after (doCtlLambdaNotice p s)) :=
  ran_eq_next_after (doCtlLambdaNotice p) s

theorem exec_ctlRttProbe (p : Fin 24) (s : State) : exec (.ctlRttProbe p) s = .next (s.after (doCtlRttProbe p s)) :=
  ran_eq_next_after (doCtlRttProbe p) s

theorem exec_ctlRttEcho (p : Fin 24) (rtt : Nat) (s : State) : exec (.ctlRttEcho p rtt) s = .next (s.after (doCtlRttEcho p rtt s)) :=
  ran_eq_next_after (doCtlRttEcho p rtt) s

theorem exec_ctlRepeat (p : Fin 24) (s : State) : exec (.ctlRepeat p) s = .next (s.after (doCtlRepeat p s)) :=
  ran_eq_next_after (doCtlRepeat p) s

theorem exec_ctleAdaptTick (p : Fin 24) (s : State) : exec (.ctleAdaptTick p) s = .next (s.after (doCtleAdaptTick p s)) :=
  ran_eq_next_after (doCtleAdaptTick p) s

theorem exec_ffeReqCount (p : Fin 24) (lam : Fin 8) (tap : Nat) (delta : Int) (s : State) :
    exec (.ffeReqCount p lam tap delta) s = .next (s.after (doFfeReqCount p lam tap delta s)) :=
  ran_eq_next_after (doFfeReqCount p lam tap delta) s

theorem exec_laserBiasTick (p : Fin 24) (low : BitVec 8) (s : State) :
    exec (.laserBiasTick p low) s = .next (s.after (doLaserBiasTick p low s)) :=
  ran_eq_next_after (doLaserBiasTick p low) s

theorem exec_ackTimeoutReplay (p : Fin 24) (s : State) : exec (.ackTimeoutReplay p) s = .next (s.after (doAckTimeoutReplay p s)) :=
  ran_eq_next_after (doAckTimeoutReplay p) s

theorem exec_nackSend (p : Fin 24) (s : State) : exec (.nackSend p) s = .next (s.after (doNackSend p s)) :=
  ran_eq_next_after (doNackSend p) s

theorem exec_wavelengthFail (p : Fin 24) (rxSide : Bool) (lam : Fin 8) (s : State) :
    exec (.wavelengthFail p rxSide lam) s = .next (s.after (s.lambdaFail p rxSide lam)) :=
  ran_eq_next_after (doWavelengthFail p rxSide lam) s

theorem exec_wavelengthWindowEnd (p : Fin 24) (s : State) :
    exec (.wavelengthWindowEnd p) s = .next (s.after (doWavelengthWindowEnd p s)) :=
  ran_eq_next_after (doWavelengthWindowEnd p) s

theorem exec_replayWindowEnd (p : Fin 24) (s : State) : exec (.replayWindowEnd p) s = .next (s.after (doReplayWindowEnd p s)) :=
  ran_eq_next_after (doReplayWindowEnd p) s

theorem exec_quarantineWindowEnd (p : Fin 24) (s : State) :
    exec (.quarantineWindowEnd p) s = .next (s.after (doQuarantineWindowEnd p s)) :=
  ran_eq_next_after (doQuarantineWindowEnd p) s

theorem exec_messageHoldExpiry (p : Fin 24) (v : Fin 8) (s : State) :
    exec (.messageHoldExpiry p v) s = .next (s.after (doMessageHoldExpiry p v s)) :=
  ran_eq_next_after (doMessageHoldExpiry p v) s

theorem exec_nack (p : Fin 24) (s : State) : exec (.nack p) s = .next (s.after (doNack p s)) :=
  ran_eq_next_after (doNack p) s

theorem exec_expectWrite (p : Fin 24) (v : Word) (s : State) : exec (.expectWrite p v) s = .next (s.after (s.writeExpect p v)) :=
  ran_eq_next_after (fun s => s.writeExpect p v) s

theorem exec_mgmtMessage (p : Fin 24) (s : State) : exec (.mgmtMessage p) s = .next (s.after (doMgmtMessage p s)) :=
  ran_eq_next_after (doMgmtMessage p) s

/-! ## Reads of a port after its own updates -/

@[simp] theorem State.port_modPort_self (s : State) (p : Fin 24) (f : Port → Port) : (s.modPort p f).port p = f (s.port p) :=
  vget_vmod_self s.ports p f

@[simp] theorem State.port_modPhy_self (s : State) (p : Fin 24) (f : PortPhy → PortPhy) :
    (s.modPhy p f).port p = { s.port p with phy := f (s.port p).phy } :=
  s.port_modPort_self p _

/-- The state of a port stands in its STATUS, which an update of what its wavelengths do leaves alone. -/
@[simp] theorem State.portState_modPhy_self (s : State) (p : Fin 24) (f : PortPhy → PortPhy) :
    (s.modPhy p f).portState p = s.portState p := by
  simp only [State.portState, State.port_modPhy_self]

@[simp] theorem State.portState_ctlAnswered (s : State) (p : Fin 24) (n : Nat) : (s.ctlAnswered p n).portState p = s.portState p :=
  s.portState_modPhy_self p _

/-! ## Control flits (R190, Table 10-6) -/

/-- The parameters that a PARAM body gives. -/
def Param.parse (b : List Byte) : Param :=
  ⟨bytesWord b 4, b.getD 8 0, byteAt b 9, byteAt b 10, b.getD 11 0, (List.range 8).map fun i => byteAt b (12 + i)⟩

theorem doCtlParam_of_no_retrain {s t : State} {p : Fin 24} {b : List Byte} (htake : s.takeCtl p ctlSubParam = some (b, t))
    (hst : t.portState p ≠ pstRetrain) :
    doCtlParam p s = (t.modPhy p fun y => { y with partner := some (Param.parse b) }).ctlAnswered p ctlSubParam := by
  simp only [doCtlParam, htake, State.portState_ctlAnswered, State.portState_modPhy_self, hst, false_and, if_false]
  rfl

theorem doCtlSync_of_held {s t : State} {p : Fin 24} {b : List Byte} {l : List HeldFlit}
    (htake : s.takeCtl p ctlSubSync = some (b, t)) (hcarries : t.carries p = true)
    (hheld : (t.port p).tx.heldFrom (leAt b 2 2) = some l) :
    doCtlSync p s =
      (t.acked p (leAt b 2 2)).modTx p fun x => { x with resend := l, ackTick := (t.acked p (leAt b 2 2)).aon } := by
  simp only [doCtlSync, htake, hcarries, hheld, true_or, decide_true, Bool.not_true, Bool.false_eq_true, if_false]

/-- One of the forty transmit taps, five per wavelength, moved by a step. -/
def PortPhy.stepTap (y : PortPhy) (i : Nat) (d : Int) : PortPhy :=
  let taps := (List.range 40).map fun k => y.ffe.getD k 0
  { y with ffe := taps.set i (taps.getD i 0 + d) }

theorem doCtlFfeReq_of_tap {s t : State} {p : Fin 24} {b : List Byte} (htake : s.takeCtl p ctlSubFfe = some (b, t))
    (hlam : byteAt b 1 ≤ 7) (htap : byteAt b 2 ≤ 4) :
    doCtlFfeReq p s = t.modPhy p fun y => y.stepTap (5 * byteAt b 1 + byteAt b 2) (sInt 8 (byteAt b 3)) := by
  have hknown : ¬(7 < byteAt b 1 ∨ 4 < byteAt b 2) := by omega
  simp only [doCtlFfeReq, htake, hknown, if_false]
  rfl

/-- A notice that names no lower rate, on a port that carries, takes away wavelengths; what is left decides. -/
theorem doCtlLambdaNotice_of_carrying {s t : State} {p : Fin 24} {b : List Byte} (htake : s.takeCtl p ctlSubLambda = some (b, t))
    (hst : t.portState p = pstActive ∨ t.portState p = pstDegraded)
    (hrate : min 2 (byteAt b 2) ≤ fget pstRateAct (t.port p).status) :
    doCtlLambdaNotice p s =
      let e := t.modPhy p fun y => { y with txGood := y.txGood &&& b.getD 1 0 }
      let w := chooseLambdas (e.port p).phy.txGood
      if w = 0 then e.portLose p 2
      else if w = (t.port p).phy.txLambda then e
      else e.enterRetrain p w (t.port p).phy.rxLambda := by
  have hretrain : t.portState p ≠ pstRetrain := by
    rcases hst with h | h <;> rw [h] <;> decide
  simp only [doCtlLambdaNotice, htake, hst, hretrain, Nat.not_lt.2 hrate, or_false, decide_true, Bool.not_true,
    Bool.false_eq_true, if_false]

theorem doCtlRttProbe_of_flit {s t : State} {p : Fin 24} {b : List Byte} (htake : s.takeCtl p ctlSubProbe = some (b, t)) :
    doCtlRttProbe p s = t.sendCtl p (natLe 1 ctlSubEcho ++ [0, 0, 0] ++ slice b 4 4) := by
  simp only [doCtlRttProbe, htake]

theorem doCtlRttEcho_of_flit {s t : State} {p : Fin 24} {b : List Byte} (rtt : Nat) (htake : s.takeCtl p ctlSubEcho = some (b, t)) :
    doCtlRttEcho p rtt s = (t.modPhy p fun y => { y with rtt := rtt }).ctlAnswered p ctlSubProbe := by
  simp only [doCtlRttEcho, htake]

/-- Settles O31: each subtype by its first waiting flit, a notice by the wavelengths it leaves. -/
theorem controlFlitsActOnce : Obligations.ControlFlitsActOnce := by
  unfold Obligations.ControlFlitsActOnce
  refine ⟨fun s t p b htake hst => ?_, fun s t p b l htake hcarries hheld => ?_, fun s t p b htake hlam htap => ?_,
    fun s t p b htake hst hrate => ?_, fun s t p b htake => ?_, fun s t p b rtt htake => ?_, fun s p => exec_ctlRepeat p s⟩
  · rw [exec_ctlParam, doCtlParam_of_no_retrain htake hst]
    rfl
  · rw [exec_ctlSync, doCtlSync_of_held htake hcarries hheld]
  · rw [exec_ctlFfeReq, doCtlFfeReq_of_tap htake hlam htap]
    rfl
  · rw [exec_ctlLambdaNotice, doCtlLambdaNotice_of_carrying htake hst hrate]
    refine ⟨fun hnone => ?_, fun hsome hsame => ?_, fun hsome hother => ?_⟩
    · exact congrArg (fun e => Host.Outcome.next (s.after e)) (if_pos hnone)
    · exact congrArg (fun e => Host.Outcome.next (s.after e)) ((if_neg hsome).trans (if_pos hsame))
    · exact congrArg (fun e => Host.Outcome.next (s.after e)) ((if_neg hsome).trans (if_neg hother))
  · rw [exec_ctlRttProbe, doCtlRttProbe_of_flit htake]
  · rw [exec_ctlRttEcho, doCtlRttEcho_of_flit rtt htake]

/-! ## Loops, replays and windows (R189, R192, R201, R203) -/

section
variable {s : State} {p : Fin 24} (hcarries : s.carries p = true)
include hcarries

theorem doCtleAdaptTick_of_carries : doCtleAdaptTick p s = s.modPhy p fun y => { y with eqStep := y.eqStep + 1 } :=
  if_pos hcarries

theorem doFfeReqCount_of_due {lam : Fin 8} {tap : Nat} {d : Int} (hdue : (s.port p).rx.ffeAt + 65536 ≤ (s.port p).rx.flits)
    (htap : tap ≤ 4) (hlow : -1 ≤ d) (hhigh : d ≤ 1) :
    doFfeReqCount p lam tap d s = (s.modRx p fun x => { x with ffeAt := x.flits }).sendCtl p
      (natLe 1 ctlSubFfe ++ natLe 1 lam.1 ++ natLe 1 tap ++ natLe 1 (d % 256).toNat) := by
  have hsent : ¬(!s.carries p ∨ (s.port p).rx.flits < (s.port p).rx.ffeAt + 2 ^ 16 ∨ 4 < tap ∨ d < -1 ∨ 1 < d) := by
    simp only [hcarries, Bool.not_true, Bool.false_eq_true, false_or]
    omega
  exact if_neg hsent

/-- With no amplitude low, every bias goes down by one, and no wavelength fails. -/
theorem doLaserBiasTick_of_none_low :
    doLaserBiasTick p 0#8 s =
      let old := (List.range 8).map fun i => (s.port p).phy.bias.getD i 50
      let new := (List.range 8).map fun i => old.getD i 50 - 1
      s.modPort p fun x => { x with
        status := fput pstLambdaAging (maskOf 8 ((List.range 8).filter fun i => decide (90 ≤ new.getD i 50))).toNat x.status
        phy := { x.phy with bias := new } } := by
  simp only [doLaserBiasTick, hcarries, BitVec.getLsbD_zero, Bool.false_and, Bool.not_true, Bool.false_eq_true, if_false, forEach,
    List.foldl_fixed]

theorem doAckTimeoutReplay_of_late (hheld : (s.port p).tx.replay ≠ [])
    (hlate : 2 * (s.port p).phy.rtt + 1000 ≤ 40 * (s.aon - (s.port p).tx.ackTick)) :
    doAckTimeoutReplay p s = s.startReplay p := by
  simp only [doAckTimeoutReplay, hcarries, hheld, Nat.not_lt.2 hlate, List.isEmpty_iff, Bool.not_true, Bool.false_eq_true, or_self,
    if_false]

theorem doNackSend_of_credit {m : Msg} {rest : List Msg} (hnacks : (s.port p).nacks = m :: rest) (hcredit : (s.port p).credit 5 ≠ 0) :
    doNackSend p s = (s.modPort p fun y => { y with nacks := rest }).send p m .mcp := by
  simp only [doNackSend, hnacks, hcarries, hcredit, true_or, decide_true, Bool.not_true, Bool.false_eq_true, or_self, if_false]

end

theorem doReplayWindowEnd_of_ended {s : State} {p : Fin 24} {t : Nat} (hmark : (s.port p).phy.replayMark = some t)
    (hended : t + 1048576 ≤ s.aon) : doReplayWindowEnd p s = s.modPhy p fun y => { y with replayMark := none } := by
  simp only [doReplayWindowEnd, hmark]
  exact if_pos hended

theorem doQuarantineWindowEnd_of_ended {s : State} {p : Fin 24} (hended : (s.port p).weight.win ≠ s.weightWin) :
    doQuarantineWindowEnd p s =
      s.modPort p fun x => { x with weight := ⟨s.weightWin, 0⟩, vlogStat := fput vlogWindowWeight 0 x.vlogStat } :=
  if_neg hended

/-! ## Held messages, NACKs and management messages (R198, R201, R185) -/

/-- A held message that no room in staging would free is refused when its time is over, and what waited behind it is taken. -/
theorem doMessageHoldExpiry_of_expired {s : State} {p : Fin 24} {v : Fin 8} {o : OpenMsg} {t : Nat}
    (hopen : vget (s.port p).rx.opened v = some o) (hheld : o.held = some t) (hroom : o.full = false)
    (hover : s.inGrace p t = false) :
    doMessageHoldExpiry p v s =
      let ec := if o.job then (0, 0) else s.heldEpochs o.hdr
      let e := (s.freeFlits p v o.flits).settleOpen p v { o with held := none, discard := true }
      State.drainVc vcBuffer ((e.reject p o.hdr 0x0B stNotPermitted 0 ec.1 ec.2).quarCheck p) p v := by
  simp only [doMessageHoldExpiry, hopen, hheld, hroom, hover, Bool.false_eq_true, or_self, if_false]

theorem doNack_of_segment {s t : State} {p : Fin 24} {m : Msg} (htake : s.takeMsg p kNack = some (m, t))
    (hkind : nkKind m.payload = kFwdAct ∨ nkKind m.payload = kBwdGrad) :
    doNack p s = (t.log (.port p) lgNack [nkKind m.payload, (nkStatus m.payload).toNat]).sleNack m := by
  have hstage : nkKind m.payload = kFwdAct ∨ nkKind m.payload = kBwdGrad ∨ nkKind m.payload = kMbDrop := by tauto
  simp only [doNack, htake, hstage, if_true]

theorem doMgmtMessage_of_first {s : State} {p : Fin 24} {m : Msg}
    (hfirst : (s.port p).rx.delivered.find? (fun m => decide (m.hdr.vc = vcMgt)) = some m) :
    doMgmtMessage p s =
      { s.modRx p fun r => { r with delivered := dropFirst (fun m => decide (m.hdr.vc = vcMgt)) r.delivered } with
        mail := s.mail ++ [(p, m)] } := by
  simp only [doMgmtMessage, hfirst]

/-- Settles O33: what is due on a port that carries; each window that has ended; a held message, a NACK and a management message. -/
theorem portWindowsAndHousekeeping : Obligations.PortWindowsAndHousekeeping := by
  unfold Obligations.PortWindowsAndHousekeeping
  refine ⟨fun s p hcarries => ⟨?_, fun lam tap d hdue htap hlow hhigh => ?_, ?_, fun hheld hlate => ?_,
      fun m rest hnacks hcredit => ?_⟩, fun s p r lam => exec_wavelengthFail p r lam s, fun s p => exec_wavelengthWindowEnd p s,
    fun s p t hmark hended => ?_, fun s p hended => ?_, fun s p v o t hopen hheld hroom hover => ?_,
    fun s t p m htake hkind => ?_, fun s p v => exec_expectWrite p v s, fun s p m hfirst => ?_⟩
  · rw [exec_ctleAdaptTick, doCtleAdaptTick_of_carries hcarries]
  · rw [exec_ffeReqCount, doFfeReqCount_of_due hcarries hdue htap hlow hhigh]
  · rw [exec_laserBiasTick, doLaserBiasTick_of_none_low hcarries]
  · rw [exec_ackTimeoutReplay, doAckTimeoutReplay_of_late hcarries hheld hlate]
  · rw [exec_nackSend, doNackSend_of_credit hcarries hnacks hcredit]
  · rw [exec_replayWindowEnd, doReplayWindowEnd_of_ended hmark hended]
  · rw [exec_quarantineWindowEnd, doQuarantineWindowEnd_of_ended hended]
  · rw [exec_messageHoldExpiry, doMessageHoldExpiry_of_expired hopen hheld hroom hover]
  · rw [exec_nack, doNack_of_segment htake hkind]
  · rw [exec_mgmtMessage, doMgmtMessage_of_first hfirst]

end Sys2Proof.Machine
end

section
/-!
SUPPORT. Messages of the stage links (spec 12 R216 to R223, R234): how a segment of an open entry, a drop and a credit message act, and
when credits go out; O34 (SegmentsFillQueueEntries) put together from them.
-/
namespace Sys2Proof.Machine

/-! ## Each command of a stage link runs its own effect -/

theorem exec_fwdAct (p : Fin 24) (s : State) : exec (.fwdAct p) s = .next (s.after (doSegment p .fwd s)) :=
  ran_eq_next_after (doFwdAct p) s

theorem exec_bwdGrad (p : Fin 24) (s : State) : exec (.bwdGrad p) s = .next (s.after (doSegment p .bwd s)) :=
  ran_eq_next_after (doBwdGrad p) s

theorem exec_mbDrop (p : Fin 24) (s : State) : exec (.mbDrop p) s = .next (s.after (doMbDrop p s)) :=
  ran_eq_next_after (doMbDrop p) s

theorem exec_qcredit (p : Fin 24) (s : State) : exec (.qcredit p) s = .next (s.after (doQcredit p s)) :=
  ran_eq_next_after (doQcredit p) s

theorem exec_qcreditPeriodic (s : State) : exec .qcreditPeriodic s = .next (s.after (doQcreditPeriodic s)) :=
  ran_eq_next_after doQcreditPeriodic s

/-! ## Segments of an open entry (R219, R220) -/

/-- The kind of the messages that fill a queue. -/
def segmentKind : Dir → Nat
  | .fwd => kFwdAct
  | .bwd => kBwdGrad

/-- Whether an entry is the open one of a header's micro-batch. -/
def openFor (h : Header) : QEntry → Bool := fun e =>
  e.order.isNone && e.step == h.step && e.mb == h.mbId && e.eval == h.flags.getLsbD hfEval

/-- Bytes that an entry of a queue can hold. -/
def State.entryBytes (s : State) (r : Fin 4) (d : Dir) : Nat := fget payEntryMib ((s.mq r).pay d) * 2 ^ 20

/-- The bytes of a segment stored at its offset in an entry. -/
def State.storeIn (s : State) (r : Fin 4) (d : Dir) (m : Msg) (e : QEntry) : State :=
  s.storeSegment ((s.mq r).pay d) e.idx m.hdr.offset m.payload

/-- The entry of a segment counts its bytes and takes up what is then known of its payload. -/
def State.countIn (s : State) (r : Fin 4) (d : Dir) (m : Msg) (e : QEntry) (total order : Option Nat) : State :=
  s.modMq r fun q => q.setQueue d
    (updateWhere (openFor m.hdr) (fun x => { x with got := e.got + m.payload.length, total := total, order := order }) (q.queue d))

/-- A whole payload takes the next place in the order of completion. -/
def State.completeIn (s : State) (r : Fin 4) (d : Dir) (m : Msg) (e : QEntry) : State :=
  (s.countIn r d m e (some (e.got + m.payload.length)) (some s.mbq.clock)).modMbq fun x => { x with clock := x.clock + 1 }

section
variable {s t : State} {p : Fin 24} {d : Dir} {m : Msg} {r : Fin 4} {e : QEntry}
  (htake : s.takeMsg p (segmentKind d) = some (m, t)) (hpass : t.epochCheck m.hdr = .pass) (hrole : t.roleOf m.hdr.stage = some r)
  (hlive : t.mbq.dead.contains ⟨r, d, m.hdr.step, m.hdr.mbId⟩ = false) (hentry : ((t.mq r).queue d).find? (openFor m.hdr) = some e)
include htake hpass hrole hlive hentry

/-- What becomes of a segment of an open entry turns on its end, on what is then counted, and on the step of what it completes; the two
directions differ only in the kind of message taken. -/
theorem doSegment_of_open :
    doSegment p d s =
      if t.entryBytes r d < m.hdr.offset + m.payload.length then
        t.dropMicro r m.hdr.step m.hdr.mbId m.hdr.wver (m.hdr.flags.getLsbD hfEval) dcOversize
      else
        let total := if m.hdr.flags.getLsbD hfLast then some (m.hdr.offset + m.payload.length) else e.total
        if total = some (e.got + m.payload.length) then
          let u := (t.storeIn r d m e).completeIn r d m e
          if epochDiff m.hdr.step (u.mq r).step < 0 then
            u.dropMicro r m.hdr.step m.hdr.mbId m.hdr.wver (m.hdr.flags.getLsbD hfEval) dcStepStale
          else u
        else (t.storeIn r d m e).countIn r d m e total none := by
  unfold openFor at hentry
  cases d <;>
  · simp only [segmentKind] at htake
    simp only [doSegment, htake, hpass, hrole, hlive, hentry, Bool.false_eq_true, if_false]
    by_cases hwhole : (if m.hdr.flags.getLsbD hfLast then some (m.hdr.offset + m.payload.length) else e.total) =
        some (e.got + m.payload.length)
    · simp only [hwhole, beq_self_eq_true, Bool.not_true, Bool.false_eq_true, if_false, if_true]
      rfl
    · simp only [hwhole, beq_false_of_ne hwhole, Bool.not_false, Bool.false_eq_true, if_false, if_true]
      rfl

theorem doSegment_of_beyond (hbeyond : t.entryBytes r d < m.hdr.offset + m.payload.length) :
    doSegment p d s = t.dropMicro r m.hdr.step m.hdr.mbId m.hdr.wver (m.hdr.flags.getLsbD hfEval) dcOversize :=
  (doSegment_of_open htake hpass hrole hlive hentry).trans (if_pos hbeyond)

section
variable (hwithin : m.hdr.offset + m.payload.length ≤ t.entryBytes r d)
include hwithin

theorem doSegment_of_part (hlast : m.hdr.flags.getLsbD hfLast = false) (htotal : e.total = none) :
    doSegment p d s = (t.storeIn r d m e).countIn r d m e none none := by
  simp only [doSegment_of_open htake hpass hrole hlive hentry, Nat.not_lt.2 hwithin, hlast, htotal, Bool.false_eq_true, reduceCtorEq,
    if_false]

theorem doSegment_of_whole (hlast : m.hdr.flags.getLsbD hfLast = true)
    (hall : m.hdr.offset + m.payload.length = e.got + m.payload.length)
    (hstep : 0 ≤ epochDiff m.hdr.step (((t.storeIn r d m e).completeIn r d m e).mq r).step) :
    doSegment p d s = (t.storeIn r d m e).completeIn r d m e := by
  rw [doSegment_of_open htake hpass hrole hlive hentry, if_neg (Nat.not_lt.2 hwithin)]
  simp only [hlast, hall, Int.not_lt.2 hstep, if_true, if_false]

end

end

/-! ## Drops and credits (R218, R234) -/

theorem doMbDrop_of_pass {s t : State} {p : Fin 24} {m : Msg} {r : Fin 4} (htake : s.takeMsg p kMbDrop = some (m, t))
    (hpass : t.epochCheck m.hdr = .pass) (hrole : t.roleOf m.hdr.stage = some r) :
    doMbDrop p s = (t.grant r (if m.hdr.vc = vcFwd then .bwd else .fwd) 1).dropMicro r m.hdr.step m.hdr.mbId m.hdr.wver
      (m.hdr.flags.getLsbD hfEval) dcUpstream := by
  simp only [doMbDrop, htake, hpass, hrole]

/-- The sender's credits of a stage are the last that were heard. -/
def State.hear (s : State) (h : Header) : State :=
  s.modSle fun x => { x with
    heard := (x.heard.filter fun y => !(y.pos == h.srcPos && y.stage == h.stage)) ++ [⟨h.srcPos, h.stage, h.roleEpoch⟩] }

theorem doQcredit_of_message {s t : State} {p : Fin 24} {m : Msg} (htake : s.takeMsg p kQcredit = some (m, t)) :
    doQcredit p s = ((t.hear m.hdr).applyGrant m.hdr (m.hdr.stage - 1) .fwd (leAt m.payload 0 2)).applyGrant m.hdr
      (m.hdr.stage + 1) .bwd (leAt m.payload 2 2) := by
  simp only [doQcredit, htake]
  rfl

theorem doQcreditPeriodic_of_due {s : State} (hdue : s.aon % 16384 = 0) :
    doQcreditPeriodic s = forEach (allFin 4) (fun s r =>
      if s.roleUsed r then forEach (s.partners r) (fun s q => s.sendQcredit r q) s else s) s :=
  if_neg (not_not_intro hdue)

/-- Settles O34: a segment of an open entry, of either direction, by its end and by what it completes; a drop and a credit message;
the tick at which credits are due. -/
theorem segmentsFillQueueEntries : Obligations.SegmentsFillQueueEntries := by
  unfold Obligations.SegmentsFillQueueEntries
  refine ⟨⟨fun s t p m r e htake hpass hrole hlive hentry => ⟨fun hwithin hlast htotal => ?_, fun hwithin hlast hall hstep => ?_,
      fun hbeyond => ?_⟩, fun s t p m r e htake hpass hrole hlive hentry => ⟨fun hwithin hlast htotal => ?_,
      fun hwithin hlast hall hstep => ?_, fun hbeyond => ?_⟩⟩,
    fun s t p m r htake hpass hrole => ?_, fun s t p m htake => ?_, fun s hdue => ?_⟩
  · rw [exec_fwdAct, doSegment_of_part htake hpass hrole hlive hentry hwithin hlast htotal]
    rfl
  · rw [exec_fwdAct, doSegment_of_whole htake hpass hrole hlive hentry hwithin hlast hall hstep]
    rfl
  · rw [exec_fwdAct, doSegment_of_beyond htake hpass hrole hlive hentry hbeyond]
  · rw [exec_bwdGrad, doSegment_of_part htake hpass hrole hlive hentry hwithin hlast htotal]
    rfl
  · rw [exec_bwdGrad, doSegment_of_whole htake hpass hrole hlive hentry hwithin hlast hall hstep]
    rfl
  · rw [exec_bwdGrad, doSegment_of_beyond htake hpass hrole hlive hentry hbeyond]
  · rw [exec_mbDrop, doMbDrop_of_pass htake hpass hrole]
  · rw [exec_qcredit, doQcredit_of_message htake]
    rfl
  · rw [exec_qcreditPeriodic, doQcreditPeriodic_of_due hdue]

end Sys2Proof.Machine
end

section
/-!
SUPPORT. The status registers and the notes that follow other state (spec 11 R213; spec 19 Table 19-6; spec 06 R128): what a field of a
register holds after a field is set, what bringing a state up to date changes (log entry 83), that a state brought up to date is judged
and that a judged state is kept, with O7 (QuietStateStaysAsItIs) and O5 (StatusRegistersFollow) put together from them.
-/
namespace Sys2Proof.Machine

/-! ## Bit fields of a register -/

theorem getLsbD_fput {w : Nat} {f : Fld} (hf : f.2 ≤ f.1) (x : Nat) (v : BitVec w) {i : Nat} (hi : i < w) :
    (fput f x v).getLsbD i = if f.2 ≤ i ∧ i ≤ f.1 then x.testBit (i - f.2) else v.getLsbD i := by
  have hwidth : i - f.2 < fwidth f ↔ i ≤ f.1 := by unfold fwidth; omega
  have hbelow : i - f.2 < w := by omega
  simp only [fput, fmask, BitVec.getLsbD_or, BitVec.getLsbD_and, BitVec.getLsbD_not, BitVec.getLsbD_shiftLeft,
    BitVec.getLsbD_setWidth, BitVec.getLsbD_allOnes, BitVec.getLsbD_ofNat, hi, hbelow, hwidth]
  by_cases hlo : f.2 ≤ i
  · by_cases hhi : i ≤ f.1 <;> simp [hlo, hhi, Nat.not_lt.2]
  · simp [hlo, Nat.not_le.1]

theorem extract_fput_self {w : Nat} {f : Fld} (hf : f.2 ≤ f.1) (hw : f.1 < w) (x : Nat) (v : BitVec w) :
    (fput f x v).extractLsb' f.2 (fwidth f) = BitVec.ofNat (fwidth f) x := by
  refine BitVec.eq_of_getLsbD_eq fun i hi => ?_
  have hin : f.2 + i ≤ f.1 := by unfold fwidth at hi; omega
  rw [BitVec.getLsbD_extractLsb', getLsbD_fput hf x v (by omega), BitVec.getLsbD_ofNat, if_pos ⟨Nat.le_add_right _ _, hin⟩,
    Nat.add_sub_cancel_left]

theorem extract_fput_of_disjoint {w : Nat} {f g : Fld} (hf : f.2 ≤ f.1) (hw : f.1 < w) (hg : g.2 ≤ g.1) (h : f.1 < g.2 ∨ g.1 < f.2)
    (x : Nat) (v : BitVec w) : (fput g x v).extractLsb' f.2 (fwidth f) = v.extractLsb' f.2 (fwidth f) := by
  refine BitVec.eq_of_getLsbD_eq fun i hi => ?_
  have hin : f.2 + i ≤ f.1 := by unfold fwidth at hi; omega
  rw [BitVec.getLsbD_extractLsb', BitVec.getLsbD_extractLsb', getLsbD_fput hg x v (by omega), if_neg (by omega)]

theorem fget_fput_self {w : Nat} {f : Fld} {x : Nat} (hf : f.2 ≤ f.1) (hw : f.1 < w) (hx : x < 2 ^ fwidth f) (v : BitVec w) :
    fget f (fput f x v) = x := by
  rw [fget, extract_fput_self hf hw, BitVec.toNat_ofNat, Nat.mod_eq_of_lt hx]

theorem fget_fput_of_disjoint {w : Nat} {f g : Fld} (hf : f.2 ≤ f.1) (hw : f.1 < w) (hg : g.2 ≤ g.1) (h : f.1 < g.2 ∨ g.1 < f.2)
    (x : Nat) (v : BitVec w) : fget f (fput g x v) = fget f v := by
  rw [fget, extract_fput_of_disjoint hf hw hg h, fget]

/-- Setting two fields again to what they were set to changes nothing. -/
theorem fput_fput_again {w : Nat} {f g : Fld} (hf : f.2 ≤ f.1) (hg : g.2 ≤ g.1) (x y : Nat) (v : BitVec w) :
    fput f x (fput g y (fput f x (fput g y v))) = fput f x (fput g y v) := by
  refine BitVec.eq_of_getLsbD_eq fun i hi => ?_
  simp only [getLsbD_fput hf _ _ hi, getLsbD_fput hg _ _ hi]
  split <;> [rfl; skip]
  split <;> rfl

/-! ## A slot's status follows its entries and its ports (R213) -/

/-- A port of the entry is LOST, QUARANTINED or MISBOUND. -/
def State.entryOut (s : State) (e : GroupEntry) : Bool := (e.bindings.map (·.1)).any fun p => s.portOut p

/-- Every port of the entry carries. -/
def State.entryBack (s : State) (e : GroupEntry) : Bool := (e.bindings.map (·.1)).all fun p => match port? p with
  | some p => s.carries p
  | none => true

/-- What GRP.STATUS shows of a slot apart from its state and cause. -/
def GroupSlot.names (g : GroupSlot) (e : GroupEntry) : Word := fput grpGroup e.gid.toNat (fflag grpStaged g.staged.isSome 0)

section
variable {s t : State} {i : Fin 64}

theorem State.groupStatus_of_empty (hactive : (s.grp i).active = none) :
    s.groupStatus i = fflag grpStaged (s.grp i).staged.isSome 0 := by
  simp only [State.groupStatus, hactive]

/-- The state that a slot with an active entry shows: once BROKEN by poison it stays so, and once BROKEN by a port until all carry. -/
theorem State.groupStatus_of_active {e : GroupEntry} (hactive : (s.grp i).active = some e) :
    s.groupStatus i =
      if fget grpState (s.grp i).status = 2 ∧ fget grpCause (s.grp i).status = 2 then
        fput grpCause 2 (fput grpState 2 ((s.grp i).names e))
      else if s.entryOut e = true ∨ (fget grpState (s.grp i).status = 2 ∧ s.entryBack e = false) then
        fput grpCause 1 (fput grpState 2 ((s.grp i).names e))
      else fput grpState 1 ((s.grp i).names e) := by
  simp only [State.groupStatus, hactive, Bool.and_eq_true, Bool.or_eq_true, beq_iff_eq, Bool.not_eq_true']
  rfl

section
variable (hports : t.ports = s.ports)
include hports

theorem State.carries_congr (p : Fin 24) : t.carries p = s.carries p := by
  simp only [State.carries, State.portState, State.port, hports]

theorem State.entryOut_congr (e : GroupEntry) : t.entryOut e = s.entryOut e := by
  simp only [State.entryOut, State.portOut, State.portState, State.port, hports]
  rfl

theorem State.entryBack_congr (e : GroupEntry) : t.entryBack e = s.entryBack e := by
  simp only [State.entryBack, State.carries_congr hports]

theorem State.groupStatus_congr (hgrp : t.grp i = s.grp i) : t.groupStatus i = s.groupStatus i := by
  cases hactive : (s.grp i).active with
  | none => rw [groupStatus_of_empty hactive, groupStatus_of_empty (hgrp ▸ hactive), hgrp]
  | some e =>
    rw [groupStatus_of_active hactive, groupStatus_of_active (hgrp ▸ hactive), hgrp, entryOut_congr hports, entryBack_congr hports]

end

/-- A slot whose status has been brought up to date. -/
def State.shown (s : State) (i : Fin 64) : GroupSlot := { s.grp i with status := s.groupStatus i }

theorem fget_state_cause (w : Word) (x : Nat) : fget grpState (fput grpCause x (fput grpState 2 w)) = 2 := by
  rw [fget_fput_of_disjoint (by decide) (by decide) (by decide) (by decide), fget_fput_self (by decide) (by decide) (by decide)]

/-- The status of a slot whose status has just been formed is that status again. -/
theorem State.groupStatus_of_shown (hports : t.ports = s.ports) (hgrp : t.grp i = s.shown i) : t.groupStatus i = s.groupStatus i := by
  cases hactive : (s.grp i).active with
  | none =>
    have hempty : (t.grp i).active = none := by rw [hgrp]; exact hactive
    rw [groupStatus_of_empty hactive, groupStatus_of_empty hempty, hgrp]
    rfl
  | some e =>
    have hsome : (t.grp i).active = some e := by rw [hgrp]; exact hactive
    have hnames : (t.grp i).names e = (s.grp i).names e := by rw [hgrp]; rfl
    have hstatus : (t.grp i).status = s.groupStatus i := by rw [hgrp]; rfl
    have hcause : ∀ x, x < 16 → ∀ w : Word, fget grpCause (fput grpCause x w) = x := fun x hx w =>
      fget_fput_self (by decide) (by decide) hx w
    rw [groupStatus_of_active hsome, hnames, hstatus, entryOut_congr hports, entryBack_congr hports, groupStatus_of_active hactive]
    by_cases hpoison : fget grpState (s.grp i).status = 2 ∧ fget grpCause (s.grp i).status = 2
    · rw [if_pos hpoison, fget_state_cause, hcause 2 (by decide), if_pos ⟨rfl, rfl⟩]
    · by_cases hbroken : s.entryOut e = true ∨ (fget grpState (s.grp i).status = 2 ∧ s.entryBack e = false)
      · have hstill : s.entryOut e = true ∨ s.entryBack e = false := hbroken.imp_right And.right
        rw [if_neg hpoison, if_pos hbroken, fget_state_cause, hcause 1 (by decide), if_neg (by decide), if_pos (by simpa using hstill)]
      · have hone : fget grpState (fput grpState 1 ((s.grp i).names e)) = 1 :=
          fget_fput_self (by decide) (by decide) (by decide) _
        have hwhole : s.entryOut e = false := by simp only [not_or, Bool.not_eq_true] at hbroken; exact hbroken.1
        rw [if_neg hpoison, if_neg hbroken, hone, hwhole]
        simp only [OfNat.one_ne_ofNat, Bool.false_eq_true, false_and, or_self, if_false]

end

/-! ## Bringing every slot up to date -/

/-- One slot brought up to date, with the entry and the report that its change gives. -/
def State.refreshGroup (s : State) (i : Fin 64) : State :=
  let old := fget grpState (s.grp i).status
  let now := fget grpState (s.groupStatus i)
  let t := s.modJob fun j => { j with groups := vmod j.groups i fun x => { x with status := s.groupStatus i } }
  if old = now ∨ (old = 0 ∧ now = 1) then t
  else if now = 2 then (t.log .hub lgGroup [i.1, now]).emit (.report rpGroup [i.1]) else t.log .hub lgGroup [i.1, now]

theorem State.refreshGroups_eq (s : State) : s.refreshGroups = forEach (allFin 64) State.refreshGroup s := rfl

/-- The state with what is brought up to date set: the slots, MARB.STATUS, the commands under way, the log and the reports. -/
def State.withShown (s : State) (gs : Vector GroupSlot 64) (ms : Quad) (rs : List RunCmd) (ls : List LogEntry) (os : List Out) : State :=
  { s with
    job := { s.job with groups := gs }, marb := { s.marb with status := ms }, host := { s.host with runs := rs }, logs := ls, out := os }

/-- Bringing one slot up to date replaces it by what it should show. -/
theorem State.refreshGroup_frame (s : State) (i : Fin 64) :
    ∃ ls os, s.refreshGroup i = s.withShown (vset s.job.groups i (s.shown i)) s.marb.status s.host.runs ls os := by
  simp only [State.refreshGroup]
  split
  · exact ⟨_, _, rfl⟩
  · split <;> exact ⟨_, _, rfl⟩

theorem vget_vset_self {α : Type} {n : Nat} (v : Vector α n) (i : Fin n) (x : α) : vget (vset v i x) i = x := by
  simp [vget, vset]

theorem vget_vset_of_ne {α : Type} {n : Nat} (v : Vector α n) {i j : Fin n} (x : α) (h : j ≠ i) : vget (vset v i x) j = vget v j := by
  have hne : i.1 ≠ j.1 := fun h' => h (Fin.ext h'.symm)
  simp [vget, vset, hne]

/-- Bringing slots up to date one after another: those of the list show what they should, the others are as they were. -/
theorem State.forEach_refreshGroup (l : List (Fin 64)) (s : State) :
    ∃ gs ls os, forEach l State.refreshGroup s = s.withShown gs s.marb.status s.host.runs ls os ∧
      ∀ i, vget gs i = if i ∈ l then s.shown i else s.grp i := by
  induction l generalizing s with
  | nil => exact ⟨s.job.groups, s.logs, s.out, rfl, fun i => by simp [State.grp]⟩
  | cons a l ih =>
    obtain ⟨ls₁, os₁, hone⟩ := s.refreshGroup_frame a
    obtain ⟨gs, ls, os, hrest, hgs⟩ := ih (s.refreshGroup a)
    have hself : (s.refreshGroup a).grp a = s.shown a := by rw [hone]; exact vget_vset_self _ _ _
    have hother : ∀ i, i ≠ a → (s.refreshGroup a).grp i = s.grp i := fun i hi => by rw [hone]; exact vget_vset_of_ne _ _ hi
    have hports : (s.refreshGroup a).ports = s.ports := by rw [hone]; rfl
    refine ⟨gs, ls, os, ?_, fun i => ?_⟩
    · rw [forEach, List.foldl_cons, ← forEach, hrest, hone]
      rfl
    · rw [hgs i]
      by_cases hi : i = a
      · subst hi
        have hagain : (s.refreshGroup i).shown i = s.shown i := by
          rw [State.shown, hself, State.groupStatus_of_shown hports hself]
          rfl
        simp [hagain, hself]
      · have hsame : (s.refreshGroup a).shown i = s.shown i := by
          rw [State.shown, hother i hi, State.groupStatus_congr hports (hother i hi)]
          rfl
        simp [hi, hsame, hother i hi]

theorem State.refreshGroups_frame (s : State) :
    ∃ gs ls os, s.refreshGroups = s.withShown gs s.marb.status s.host.runs ls os ∧ ∀ i, vget gs i = s.shown i := by
  obtain ⟨gs, ls, os, heq, hgs⟩ := State.forEach_refreshGroup (allFin 64) s
  exact ⟨gs, ls, os, heq, fun i => (hgs i).trans (if_pos (List.mem_finRange i))⟩

/-! ## The reduced part of a command under way (R128) -/

section
variable (s : State) {gs : Vector GroupSlot 64} (hgs : ∀ i, vget gs i = s.shown i) (ms : Quad) (rs : List RunCmd) (ls : List LogEntry)
  (os : List Out)
include hgs

/-- The reduced part that a program uses does not depend on what is brought up to date. -/
theorem State.reducedPart_withShown (ds : List (Fin 4)) : (s.withShown gs ms rs ls os).reducedPart ds = s.reducedPart ds := by
  have hactive : ∀ i, ((s.withShown gs ms rs ls os).grp i).active = (s.shown i).active := fun i =>
    congrArg GroupSlot.active (hgs i)
  simp only [State.reducedPart, State.rolePart, hactive]
  rfl

theorem State.noted_withShown (r : RunCmd) : (s.withShown gs ms rs ls os).noted r = s.noted r := by
  rw [State.noted, State.reducedPart_withShown s hgs, State.noted]

end

/-- A command under way with the reduced part noted that it uses. -/
def State.noteRun (s : State) (r : RunCmd) : RunCmd := if s.noted r then r else { r with reduced := s.reducedPart r.on }

theorem State.noteReduced_eq (s : State) : s.noteReduced = s.modHost fun x => { x with runs := x.runs.map s.noteRun } := rfl

theorem State.noteRun_handle (s : State) (r : RunCmd) : (s.noteRun r).handle = r.handle := by
  unfold State.noteRun
  split <;> rfl

/-- A command that has been brought up to date has noted its reduced part. -/
theorem State.noted_noteRun (s : State) (r : RunCmd) : s.noted (s.noteRun r) = true := by
  unfold State.noteRun
  split
  next hnoted => exact hnoted
  next =>
    have hon : ({ r with reduced := s.reducedPart r.on } : RunCmd).on = r.on := rfl
    simp only [State.noted, hon]
    cases s.reducedPart r.on <;> simp

/-! ## Bringing a state up to date (log entry 83) -/

/-- MARB.STATUS with the counts of the activities that run and wait (Table 19-6). -/
def State.marbShown (s : State) : Quad :=
  fput marbRunning (s.marb.running.length + b2n s.sec.fuseHeld) (fput marbQueued s.marb.queue.length s.marb.status)

theorem State.syncMarb_eq (s : State) : s.syncMarb = s.modMarb fun m => { m with status := s.marbShown } := rfl

/-- What bringing a state up to date changes, and to what. -/
theorem State.derive_frame (s : State) :
    ∃ gs ls os, s.derive = s.withShown gs s.marbShown (s.host.runs.map s.noteRun) ls os ∧ ∀ i, vget gs i = s.shown i := by
  obtain ⟨gs, ls, os, heq, hgs⟩ := s.refreshGroups_frame
  have hnote : (s.withShown gs s.marbShown s.host.runs ls os).noteRun = s.noteRun := funext fun r => by
    rw [State.noteRun, s.noted_withShown hgs, s.reducedPart_withShown hgs, State.noteRun]
  have hmarb : (s.withShown gs s.marb.status s.host.runs ls os).syncMarb = s.withShown gs s.marbShown s.host.runs ls os := rfl
  refine ⟨gs, ls, os, ?_, hgs⟩
  rw [State.derive, heq, hmarb, State.noteReduced_eq, hnote]
  rfl

theorem State.judged_iff (s : State) : s.judged = true ↔
    (∀ i, s.shown i = s.grp i) ∧ s.marbShown = s.marb.status ∧ ∀ r ∈ s.host.runs, s.noted r = true := by
  have hslot : ∀ i, s.shown i = s.grp i ↔ (s.grp i).status = s.groupStatus i := fun i =>
    ⟨fun h => (congrArg GroupSlot.status h).symm, fun h => by rw [State.shown, ← h]⟩
  simp only [State.judged, Bool.and_eq_true, List.all_eq_true, allFin, List.mem_finRange, true_implies, beq_iff_eq, hslot, and_assoc,
    State.marbShown, eq_comm (a := s.marb.status)]

/-! ## A state whose registers show what they follow -/

theorem State.refreshGroup_of_shown {s : State} {i : Fin 64} (h : s.shown i = s.grp i) : s.refreshGroup i = s := by
  have hstatus : s.groupStatus i = (s.grp i).status := congrArg GroupSlot.status h
  have hkept : (s.modJob fun j => { j with groups := vmod j.groups i fun x => { x with status := (s.grp i).status } }) = s := by
    rw [State.modJob, vmod_eq_self (by rfl)]
  rw [State.refreshGroup, hstatus]
  exact (if_pos (.inl rfl)).trans hkept

theorem State.derive_of_judged {s : State} (h : s.judged = true) : s.derive = s := by
  obtain ⟨hslots, hmarb, hruns⟩ := s.judged_iff.1 h
  have hgroups : s.refreshGroups = s := List.foldl_fixed' (fun i => State.refreshGroup_of_shown (hslots i)) _
  have hsync : s.syncMarb = s := by rw [State.syncMarb_eq, hmarb]; rfl
  have hnotes : s.host.runs.map s.noteRun = s.host.runs :=
    (List.map_congr_left fun r hr => if_pos (hruns r hr)).trans (List.map_id _)
  rw [State.derive, hgroups, hsync, State.noteReduced_eq, State.modHost, hnotes]

/-- A state that has been brought up to date shows what it follows. -/
theorem State.judged_derive (s : State) : s.derive.judged = true := by
  obtain ⟨gs, ls, os, heq, hgs⟩ := s.derive_frame
  rw [heq, State.judged_iff]
  refine ⟨fun i => ?_, ?_, fun r hr => ?_⟩
  · have hgrp : (s.withShown gs s.marbShown (s.host.runs.map s.noteRun) ls os).grp i = s.shown i := hgs i
    have hports : (s.withShown gs s.marbShown (s.host.runs.map s.noteRun) ls os).ports = s.ports := rfl
    rw [State.shown, hgrp, State.groupStatus_of_shown hports hgrp]
    rfl
  · exact fput_fput_again (by decide) (by decide) _ _ _
  · obtain ⟨q, -, rfl⟩ := List.mem_map.1 hr
    rw [s.noted_withShown hgs, s.noted_noteRun]

/-- Settles O7: each part of the state that shows what it follows is kept; a calm state has nothing to tend; and the frame. -/
theorem quietStateStaysAsItIs : Obligations.QuietStateStaysAsItIs := by
  unfold Obligations.QuietStateStaysAsItIs
  refine ⟨fun e => State.derive_of_judged, fun e hcalm => ?_, fun e => ?_⟩
  · rw [State.settle, if_pos hcalm]
  · obtain ⟨gs, ls, os, heq, hgs⟩ := e.derive_frame
    refine ⟨gs, e.marbShown, e.host.runs.map e.noteRun, ls, os, heq, ?_, fun i => ?_⟩
    · rw [List.map_map]
      exact List.map_congr_left fun r _ => e.noteRun_handle r
    · rw [hgs i]
      exact ⟨rfl, rfl⟩

/-! ## Every step leaves a judged state -/

/-- Counting a die's cycles (R129) changes the dies alone, and no die's repair register. -/
theorem State.countCycles_frame (s : State) (d : Fin 4) :
    ∃ ds, s.countCycles d = { s with dies := ds } ∧ ∀ e, (vget ds e).regs.repair = (s.die e).regs.repair := by
  have hadd : ∀ (g : DieRegs) (c n : Nat), (g.addIdle c n).repair = g.repair := fun g c n => by
    unfold DieRegs.addIdle
    split <;> rfl
  unfold State.countCycles
  split
  · exact ⟨s.dies, rfl, fun _ => rfl⟩
  · refine ⟨_, rfl, fun e => ?_⟩
    by_cases he : e = d
    · subst he
      rw [vget_vmod_self]
      exact (hadd _ _ _).trans (hadd _ _ _)
    · rw [vmod, vget_vset_of_ne _ _ he]
      rfl

theorem State.forEach_countCycles_frame (l : List (Fin 4)) (s : State) :
    ∃ ds, forEach l State.countCycles s = { s with dies := ds } ∧ ∀ e, (vget ds e).regs.repair = (s.die e).regs.repair := by
  induction l generalizing s with
  | nil => exact ⟨s.dies, rfl, fun _ => rfl⟩
  | cons a l ih =>
    obtain ⟨ds₁, hone, hsame⟩ := s.countCycles_frame a
    obtain ⟨ds, hrest, hsame'⟩ := ih (s.countCycles a)
    refine ⟨ds, ?_, fun e => (hsame' e).trans ?_⟩
    · rw [forEach, List.foldl_cons, ← forEach, hrest, hone]
    · rw [hone]
      exact hsame e

theorem tick_frame (s : State) : ∃ ds os, tick s = { s with aon := s.aon + 1, dies := ds, out := os } ∧
    ∀ e, (vget ds e).regs.repair = (s.die e).regs.repair := by
  obtain ⟨ds, heq, hsame⟩ := State.forEach_countCycles_frame (allFin 4) { s with aon := s.aon + 1 }
  rw [tick, heq]
  simp only []
  split
  · exact ⟨ds, _, rfl, hsame⟩
  · exact ⟨ds, _, rfl, hsame⟩

/-- Of the dies, what a judged state shows turns on their repair registers alone, and it turns on neither the clock nor what was sent. -/
theorem State.judged_withDies (s : State) (n : Nat) {ds : Vector Die 4} (os : List Out)
    (hsame : ∀ e, (vget ds e).regs.repair = (s.die e).regs.repair) :
    { s with aon := n, dies := ds, out := os }.judged = s.judged := by
  have hrepair : ∀ e, (State.die { s with aon := n, dies := ds, out := os } e).regs.repair = (s.die e).regs.repair := hsame
  have hpart : ∀ l, State.reducedPart { s with aon := n, dies := ds, out := os } l = s.reducedPart l := fun l => by
    simp only [State.reducedPart, State.degradedPart, hrepair]
    rfl
  have hnoted : State.noted { s with aon := n, dies := ds, out := os } = s.noted := funext fun r => by
    rw [State.noted, hpart, State.noted]
  rw [State.judged, hnoted]
  rfl

theorem judged_tick {s : State} (h : s.judged = true) : (tick s).judged = true := by
  obtain ⟨ds, os, heq, hsame⟩ := tick_frame s
  rw [heq, s.judged_withDies _ os hsame, h]

theorem ran_next {f : State → State} {s t : State} (h : ran f s = .next t) : ∃ e, t = s.afterStill e :=
  ⟨_, (Host.Outcome.next.inj h).symm⟩

/-- A debug request that is neither refused nor names an absent address is served as any command (R330). -/
theorem execMpDebugRequest_next {r : DebugRequest} {s t : State} (h : execMpDebugRequest r s = .next t) : ∃ e, t = s.afterStill e := by
  unfold execMpDebugRequest at h
  split at h
  · exact ran_next h
  · split at h
    · cases h
    · split at h
      · cases h
      · exact ran_next h

/-- Every command that answers a next state ends by bringing its own effect up to date; only a debug request can answer otherwise. -/
theorem exec_next {c : Instr} {s t : State} (h : exec c s = .next t) : ∃ e, t = s.afterStill e := by
  cases c with
  | mpDebugRequest r => exact execMpDebugRequest_next h
  | _ => exact ⟨_, (Host.Outcome.next.inj h).symm⟩

theorem State.judged_withClock (e s : State) : (e.withClock s).judged = e.judged := rfl

theorem State.judged_afterStill (s e : State) : (s.afterStill e).judged = true :=
  (e.derive.judged_withClock s).trans e.judged_derive

/-- Settles O5: a tick changes nothing that the status registers follow; every command ends by bringing the state up to date. -/
theorem statusRegistersFollow : Obligations.StatusRegistersFollow := by
  unfold Obligations.StatusRegistersFollow
  intro s t hjudged hstep
  unfold step at hstep
  split at hstep
  · rw [← Host.Outcome.next.inj hstep]
    exact judged_tick hjudged
  · obtain ⟨e, rfl⟩ := exec_next hstep
    exact State.judged_afterStill _ e

end Sys2Proof.Machine
end

section
/-!
SUPPORT. The registers of BAR0 after reset (spec 21 Table 21-2): what each array of registers holds there, and O6
(ResetLeavesWhatTheTablesGive) put together from it.
-/
namespace Sys2Proof.Machine

/-! ## Every element of an array of registers holds the same value -/

theorem vget_replicate {α : Type} {n : Nat} (x : α) (i : Fin n) : vget (Vector.replicate n x) i = x := by
  simp [vget]

theorem State.sq_reset (q : Fin 32) : State.reset.sq q = ⟨0, 0x40000#32, 0, 0, 0, false⟩ := vget_replicate _ q

theorem State.cq_reset (q : Fin 32) : State.reset.cq q = ⟨0, 0x40100#32, 0, 0, true, [], 0, none⟩ := vget_replicate _ q

theorem State.mq_reset (r : Fin 4) : State.reset.mq r = RoleQueue.reset := vget_replicate _ r

theorem State.stk_reset (k : Fin 8) : State.reset.stk k = Stack.reset := vget_replicate _ k

theorem State.port_reset (p : Fin 24) : State.reset.port p = Port.reset := vget_replicate _ p

theorem State.die_reset (d : Fin 4) : State.reset.die d = Die.reset := vget_replicate _ d

theorem State.bundle_reset (b : Fin 80) : vget State.reset.fab.bundles b = Bundle.reset := vget_replicate _ b

theorem DieRegs.value_reset (r : DieReg) : r.value DieRegs.reset = if r = .repair then 0xFFFF0000 else 0 := by
  cases r with
  | idle n => rw [DieReg.value, DieRegs.reset, vget_replicate]; rfl
  | _ => rfl

/-- A die's own registers and the hub's copy of them agree after reset (R347). -/
theorem State.regValue_die_reset (d : Fin 4) (r : DieReg) : State.reset.regValue (.die d r) = r.value DieRegs.reset := by
  have hnow : Die.reset.regsNow = DieRegs.reset := rfl
  have hcopy : Die.reset.copy = DieRegs.reset := rfl
  rw [State.regValue, State.die_reset, hnow, hcopy, ite_self]

/-- Settles O6: the whole state by evaluation; each register by the array it belongs to. -/
theorem resetLeavesWhatTheTablesGive : Obligations.ResetLeavesWhatTheTablesGive := by
  unfold Obligations.ResetLeavesWhatTheTablesGive
  refine ⟨rfl, rfl, by decide +kernel, by decide +kernel, fun r => ?_⟩
  cases r with
  | sqBase q | sqCfg q | sqSeq q => rw [State.regValue, State.sq_reset]; rfl
  | cqBase q | cqCfg q => rw [State.regValue, State.cq_reset]; rfl
  | roleCfg r | fpay r | bpay r | stashCfg r | stashUse r | stashMb r | stepStat r => rw [State.regValue, State.mq_reset]; rfl
  | stkStatus k | stkCfg k | stkScrub k | stkEcc k | stkUe k => rw [State.regValue, State.stk_reset]; rfl
  | portCfg p | portStatus p | portPartner p | vcWeight p | vlogStat p | linkErr p | vlog p i =>
    rw [State.regValue, State.port_reset]; rfl
  | vcount p c => rw [State.regValue, State.port_reset, Port.reset, vget_replicate]; rfl
  | bundleStatus b | laneMap b | bundleErr b => rw [State.regValue, State.bundle_reset]; rfl
  | die d r =>
    rw [State.regValue_die_reset, DieRegs.value_reset]
    cases r <;> rfl
  | sleUp r | sleDown r => exact congrArg (fun l : StageLink => l.reg.toNat) (vget_replicate _ r)
  | spbuf r => exact congrArg (fun b : SpBuf => b.reg.toNat) (vget_replicate _ r)
  | grpStatus g => exact congrArg (fun x : GroupSlot => x.status.toNat) (vget_replicate _ g)
  | dvfs i | ldgStep i | role i | stashArea i | roleRange i | copy i | decision i | dieState i | regionMode i =>
    exact congrArg BitVec.toNat (vget_replicate _ i)
  | _ => rfl

end Sys2Proof.Machine
end

section
/-!
SUPPORT. The commands that install, adopt and remove roles, weight versions and groups (spec 11 R208 to R210; spec 12 R215, R236): the
read of a command's block, one equation for each outcome of a command, and O51 (InstallsAndRemovals) put together from them.
-/
namespace Sys2Proof.Machine

/-! ## Each command runs its own effect -/

theorem exec_roleInstall (h : Quad) (src : HostData) (s : State) :
    exec (.roleInstall h src) s = .next (s.after (doRoleInstall h src s)) :=
  ran_eq_next_after (doRoleInstall h src) s

theorem exec_roleRemove (h : Quad) (src : HostData) (s : State) :
    exec (.roleRemove h src) s = .next (s.after (doRoleRemove h src s)) :=
  ran_eq_next_after (doRoleRemove h src) s

theorem exec_wvtInstall (h : Quad) (src : HostData) (s : State) :
    exec (.wvtInstall h src) s = .next (s.after (doWvtInstall h src s)) :=
  ran_eq_next_after (doWvtInstall h src) s

theorem exec_groupInstall (h : Quad) (src : HostData) (s : State) :
    exec (.groupInstall h src) s = .next (s.after (doGroupInstall h src s)) :=
  ran_eq_next_after (doGroupInstall h src) s

theorem exec_groupRemove (h : Quad) (s : State) : exec (.groupRemove h) s = .next (s.after (doGroupRemove h s)) :=
  ran_eq_next_after (doGroupRemove h) s

theorem exec_groupAdopt (h : Quad) (s : State) : exec (.groupAdopt h) s = .next (s.after (doGroupAdopt h s)) :=
  ran_eq_next_after (doGroupAdopt h) s

/-- A block that is read is passed on. -/
theorem State.withSource_of_ok {s t : State} {addr n : Nat} {src : HostData} {b : List Byte} (h : Quad)
    (hread : s.source addr n src = (t, .ok b)) (f : List Byte → State → State) : s.withSource h addr n src f = f b t := by
  rw [State.withSource, hread]

/-! ## Roles (R208, R215) -/

section
variable {s t : State} {h : Quad} {src : HostData} {c : Command} {r : Fin 4} {b : List Byte}
  (hbegins : s.begins h 0x21 = some c) (hrole : fin? 4 (c.arg 8 1) = some r)
include hbegins hrole

section
variable (hinstall : c.arg 9 1 % 2 = 0) (hread : (s.running h).source (c.arg 16 8) 256 src = (t, .ok b))
include hinstall hread

theorem doRoleInstall_of_passed (hpass : t.roleRefused r b (parseRoleBlock b) = none) :
    doRoleInstall h src s =
      ((t.installRole r (parseRoleBlock b)).loadForwarding (parseForwarding (slice b 80 16) t.aon)).finalOk h [] := by
  have hnot : ¬c.arg 9 1 % 2 = 1 := by omega
  simp only [doRoleInstall, hbegins, hnot, if_false, hrole, State.withSource_of_ok h hread, hpass]

theorem doRoleInstall_of_refused {x : Half × Half} (hrefused : t.roleRefused r b (parseRoleBlock b) = some x) :
    doRoleInstall h src s = t.final h x.1 x.2 := by
  have hnot : ¬c.arg 9 1 % 2 = 1 := by omega
  simp only [doRoleInstall, hbegins, hnot, if_false, hrole, State.withSource_of_ok h hread, hrefused]

end

variable (hremove : c.arg 9 1 % 2 = 1) (hused : (s.running h).roleUsed r = true)
  (hidle : ((s.running h).mbq.slots.toList.any fun x => x.running && x.role == r) = false)
include hremove hused hidle

theorem doRoleRemove_of_no_block (hnone : c.arg 16 8 = 0) :
    doRoleRemove h src s = ((s.running h).removeRole r).finalOk h [] := by
  simp [doRoleRemove, hbegins, hrole, hremove, hused, hidle, hnone]

theorem doRoleRemove_of_block (hsome : c.arg 16 8 ≠ 0) (hread : (s.running h).source (c.arg 16 8 + 80) 16 src = (t, .ok b))
    (hreserved : forwardingReserved b = false) :
    doRoleRemove h src s = ((t.removeRole r).loadForwarding (parseForwarding b t.aon)).finalOk h [] := by
  simp [doRoleRemove, hbegins, hrole, hremove, hused, hidle, hsome, State.withSource_of_ok h hread, hreserved]

end

/-! ## Weight versions (R236) -/

theorem doWvtInstall_of_table {s t : State} {h : Quad} {src : HostData} {c : Command} {b : List Byte} {l : List WvtEntry}
    (hbegins : s.begins h 0x22 = some c) (hsome : c.arg 10 2 ≠ 0) (hfits : c.arg 8 2 + c.arg 10 2 ≤ 4096)
    (hfree : ((s.running h).wvt.entries.any fun x =>
      c.arg 8 2 ≤ x.1 && x.1 < c.arg 8 2 + c.arg 10 2 && x.2.bufs.any (fun b => b.pins != 0)) = false)
    (hread : (s.running h).source (c.arg 16 8) (128 * c.arg 10 2) src = (t, .ok b)) (hparse : parseWvtTable (c.arg 10 2) b = .ok l) :
    doWvtInstall h src s = (t.modWvt fun w => { w with
      entries := ((List.range (c.arg 10 2)).zip l).foldl (fun es x => sput es (c.arg 8 2 + x.1) x.2) w.entries }).finalOk h [] := by
  have hargs : ¬(c.arg 10 2 = 0 ∨ 4096 < c.arg 8 2 + c.arg 10 2) := by omega
  rw [doWvtInstall, State.start_of_begins hbegins]
  simp only [hargs, if_false, hfree, Bool.false_eq_true, State.withSource_of_ok h hread, hparse]

/-! ## Groups (R209, R210) -/

/-- The entry waits in its slot for its adoption, and GRP.STATUS shows it (R209). -/
def State.stageGroup (s : State) (i : Fin 64) (e : GroupEntry) : State :=
  (s.modJob fun j => { j with groups := vmod j.groups i fun x => { x with staged := some e } }).refreshGroups

/-- The slot has lost its active entry, and GRP.STATUS shows it. -/
def State.emptyGroup (s : State) (i : Fin 64) : State :=
  (s.modJob fun j => { j with groups := vmod j.groups i fun x => { x with active := none } }).refreshGroups

section
variable {s t u : State} {h : Quad} {src : HostData} {c : Command} {i : Fin 64} {b w : List Byte} {e : GroupEntry}
  (hbegins : s.begins h 0x23 = some c) (hslot : fin? 64 (c.arg 8 1) = some i)
include hbegins hslot

section
variable (hinstall : c.arg 9 1 % 2 = 0) (hhead : (s.running h).source (c.arg 16 8) 64 src = (t, .ok b))
  (hreserved : groupReserved b = false) (hcount : membersAllowed (leAt b 16 2) = true)
  (hlist : t.source (c.arg 16 8) (64 + 8 * leAt b 16 2) src = (u, .ok w)) (hparse : parseGroup w = some e)
  (hgood : u.installBad i e = false)
include hinstall hhead hreserved hcount hlist hparse hgood

theorem doGroupInstall_of_behind {a : GroupEntry} (hactive : (u.grp i).active = some a)
    (hbehind : epochDiff e.layout a.layout < 0 ∨ epochDiff e.memb a.memb < 0) : doGroupInstall h src s = u.denied h dtEpoch := by
  have hnot : ¬c.arg 9 1 % 2 = 1 := by omega
  simp [doGroupInstall, hbegins, hslot, hnot, State.withSource_of_ok h hhead, State.withSource_of_ok h hlist, hreserved, hcount, hparse,
    hgood, hactive, hbehind]

theorem doGroupInstall_of_free (hactive : (u.grp i).active = none) :
    doGroupInstall h src s = (u.stageGroup i e).finalOk h [] := by
  have hnot : ¬c.arg 9 1 % 2 = 1 := by omega
  simp [doGroupInstall, hbegins, hslot, hnot, State.withSource_of_ok h hhead, State.withSource_of_ok h hlist, hreserved, hcount, hparse,
    hgood, hactive, State.stageGroup]

end

variable (hremove : c.arg 9 1 % 2 = 1)
include hremove

/-- A removal turns on whether the slot has an active entry that no job uses. -/
theorem doGroupRemove_of_slot :
    doGroupRemove h s = if ((s.running h).grp i).active = none ∨ (s.running h).jobOn i = true then (s.running h).denied h dtState
      else ((s.running h).emptyGroup i).finalOk h [] := by
  simp [doGroupRemove, hbegins, hslot, hremove, State.emptyGroup]

end

section
variable {s : State} {h : Quad} {c : Command} (hbegins : s.begins h 0x24 = some c)
include hbegins

theorem doGroupAdopt_of_refused {x : Half × Half} (herror : (s.running h).adoptError (BitVec.ofNat 64 (c.arg 8 8)) = some x) :
    doGroupAdopt h s = (s.running h).final h x.1 x.2 := by
  simp only [doGroupAdopt, State.start_of_begins hbegins, herror]

/-- An adoption in which nothing is wrong turns on the running jobs whose layout it raises. -/
theorem doGroupAdopt_of_sound (herror : (s.running h).adoptError (BitVec.ofNat 64 (c.arg 8 8)) = none) :
    doGroupAdopt h s =
      if ((s.running h).layoutRises (BitVec.ofNat 64 (c.arg 8 8))).any (fun i => (s.running h).jobRuns i) = true then
        (s.running h).denied h dtRunning
      else ((s.running h).adopt (BitVec.ofNat 64 (c.arg 8 8))).finalOk h [] := by
  simp only [doGroupAdopt, State.start_of_begins hbegins, herror]

end

/-- Settles O51: each command by the read of its block and by what then refuses it. -/
theorem installsAndRemovals : Obligations.InstallsAndRemovals := by
  unfold Obligations.InstallsAndRemovals
  refine ⟨fun s t h src c r b hbegins hinstall hrole hread => ⟨fun hpass => ?_, fun x hrefused => ?_⟩,
    fun s h src c r hbegins hremove hrole hused hidle => ⟨fun hnone => ?_, fun t b hsome hread hreserved => ?_⟩,
    fun s t h src c b l hbegins hsome hfits hfree hread hparse => ?_,
    fun s t u h src c i b w e hbegins hinstall hslot hhead hreserved hcount hlist hparse hgood => ⟨fun a hactive hbehind => ?_,
      fun hactive => ?_⟩,
    fun s h c i hbegins hremove hslot => ⟨fun hactive hfree => ?_, fun hrefused => ?_⟩,
    fun s h c hbegins => ⟨fun x herror => ?_, fun herror hfree => ?_, fun herror hrunning => ?_⟩⟩
  · rw [exec_roleInstall, doRoleInstall_of_passed hbegins hrole hinstall hread hpass]
  · rw [exec_roleInstall, doRoleInstall_of_refused hbegins hrole hinstall hread hrefused]
  · rw [exec_roleRemove, doRoleRemove_of_no_block hbegins hrole hremove hused hidle hnone]
  · rw [exec_roleRemove, doRoleRemove_of_block hbegins hrole hremove hused hidle hsome hread hreserved]
  · rw [exec_wvtInstall, doWvtInstall_of_table hbegins hsome hfits hfree hread hparse]
  · rw [exec_groupInstall, doGroupInstall_of_behind hbegins hslot hinstall hhead hreserved hcount hlist hparse hgood hactive hbehind]
  · rw [exec_groupInstall, doGroupInstall_of_free hbegins hslot hinstall hhead hreserved hcount hlist hparse hgood hactive,
      State.stageGroup]
  · rw [exec_groupRemove, doGroupRemove_of_slot hbegins hslot hremove, if_neg (by simp [hactive, hfree]), State.emptyGroup]
  · rw [exec_groupRemove, doGroupRemove_of_slot hbegins hslot hremove, if_pos hrefused]
  · rw [exec_groupAdopt, doGroupAdopt_of_refused hbegins herror]
  · rw [exec_groupAdopt, doGroupAdopt_of_sound hbegins herror, if_neg (by simp [hfree])]
  · rw [exec_groupAdopt, doGroupAdopt_of_sound hbegins herror, if_pos hrunning]

end Sys2Proof.Machine
end

section
/-!
SUPPORT. Outputs, shards and sparse blocks between the stages of a job (spec 12 R216, R219, R232, R233, R237): what a stage link sends, how
a request for a shard is served or relayed and its answer taken, and how a block is stored; O36 (StageLinksShardsAndSparseBlocks) put
together from them.
-/
namespace Sys2Proof.Machine

/-! ## Each command of a stage link, a shard or a block runs its own effect -/

theorem exec_stageLinkSend (r : Fin 4) (d : Dir) (s : State) :
    exec (.stageLinkSend r d) s = .next (s.after (doStageLinkSend r d s)) :=
  ran_eq_next_after (doStageLinkSend r d) s

theorem exec_shardReq (p : Fin 24) (s : State) : exec (.shardReq p) s = .next (s.after (doShardReq p s)) :=
  ran_eq_next_after (doShardReq p) s

theorem exec_shardData (p : Fin 24) (s : State) : exec (.shardData p) s = .next (s.after (doShardData p s)) :=
  ran_eq_next_after (doShardData p) s

theorem exec_shardFail (p : Fin 24) (s : State) : exec (.shardFail p) s = .next (s.after (doShardFail p s)) :=
  ran_eq_next_after (doShardFail p) s

theorem exec_spBlock (p : Fin 24) (s : State) : exec (.spBlock p) s = .next (s.after (doSpBlock p s)) :=
  ran_eq_next_after (doSpBlock p) s

/-! ## Outputs of a stage link (R216, R218) -/

/-- The first segment of an output takes a credit of its link. -/
def State.startOutput (s : State) (r : Fin 4) (d : Dir) (o : Output) : State :=
  if o.started then s else s.modLink r d fun x => { x with started := (x.started + 1) % 65536 }

/-- The segments of an output that have not been sent yet. -/
def Output.unsent (o : Output) : List Nat := (List.range (o.segments - o.next)).map (· + o.next)

/-- An output sends what it owes: the returned segments, then those not sent yet. -/
def State.sendOwed (s : State) (r : Fin 4) (d : Dir) (o : Output) : State :=
  forEach o.unsent (fun s i => s.sendSegment r d o i o.resend)
    (forEach o.again (fun s off => s.sendSegment r d o (off / o.seg) true) (s.startOutput r d o))

/-- The record of an output once all that `o` owes has been sent. -/
def Output.sentAs (o x : Output) : Output :=
  { x with started := true, next := x.segments, again := [], unacked := x.unacked ++ x.again ++ o.unsent.map (· * x.seg) }

theorem doStageLinkSend_of_next {s : State} {r : Fin 4} {d : Dir} {o : Output}
    (hstate : (s.link r d).state = lkUp ∨ (s.link r d).state = lkPartial) (hports : (s.linkPorts (s.link r d)).isEmpty = false)
    (hnext : (s.link r d).nextOutput = some o) :
    doStageLinkSend r d s = (s.sendOwed r d o).modOutput r d (fun x => x == o) o.sentAs := by
  have hopen : ¬((s.link r d).state ≠ lkUp ∧ (s.link r d).state ≠ lkPartial) := fun ⟨hup, hpartial⟩ => hstate.elim hup hpartial
  simp only [doStageLinkSend, if_neg hopen, hports, hnext, Bool.false_eq_true, if_false]
  rfl

/-! ## Requests for a shard (R233) -/

/-- The request of a message is remembered as relayed from one port to another. -/
def State.relayed (s : State) (p q : Fin 24) (m : Msg) : State :=
  s.modWvt fun w => { w with
    relays := w.relays ++ [⟨m.hdr.wver, leAt m.payload 16 4, 0, p, m.hdr.group, q, w.orders⟩], orders := w.orders + 1 }

section
variable {s t : State} {p : Fin 24} {m : Msg} (htake : s.takeMsg p kShardReq = some (m, t))
include htake

theorem doShardReq_of_here {x : WvtEntry} {b : WvtBuf} {a : State × Rd} (hhere : t.shardFor m.hdr.group m.payload = .here)
    (hlive : t.liveTensor (bytesWord m.payload 0) m.hdr.wver = some x) (hbuf : (x.bufs.find? fun y => y.live m.hdr.wver) = some b)
    (hread : t.readDev (b.w + leAt m.payload 8 8) (leAt m.payload 16 4) = a) (hfail : a.2.fail = none) (hgood : a.2.bad = false) :
    doShardReq p s = a.1.sendShard p m.hdr.group m.hdr.wver a.2.data := by
  simp only [doShardReq, htake, hhere, hlive, hbuf, hread, hfail, hgood, Bool.false_eq_true, if_false]

theorem doShardReq_of_away_reached {g : GroupEntry} {q : Fin 24} (haway : t.shardFor m.hdr.group m.payload = .away g)
    (hport : t.usablePort (g.portTo (leAt m.payload 4 2)) = some q) :
    doShardReq p s = (t.relayed p q m).send q
      ⟨{ (t.relayed p q m).groupHdr g q kShardReq 32 with wver := m.hdr.wver }, padTo 32 m.payload⟩ (.relay p) := by
  simp only [doShardReq, htake, haway, hport]
  rfl

theorem doShardReq_of_away_lost {g : GroupEntry} (haway : t.shardFor m.hdr.group m.payload = .away g)
    (hport : t.usablePort (g.portTo (leAt m.payload 4 2)) = none) :
    doShardReq p s = t.sendShardFail p m.hdr.group m.hdr.wver stPortLost := by
  simp only [doShardReq, htake, haway, hport]

end

/-! ## Answers to a request (R232) -/

/-- A gather that did not come by its first path counts as a fallback. -/
def State.countFallback (s : State) (path : Nat) : State :=
  if path = 0 then s else s.modWvt fun w => { w with cfg := fsat wvtFallbacks 1 w.cfg }

section
variable {s t u : State} {p : Fin 24} {m : Msg} {d : Fin 4} {g : Gather} (htake : s.takeMsg p kShardData = some (m, t))
  (hasker : t.asker p m.hdr.wver (some m.hdr.offset) = some (.die d g))
  (hwrite : t.writeDev .hub (gaDest g.msg + g.got) (m.payload.map some) = (u, none))
include htake hasker hwrite

/-- Data for a die's gather turns on whether the last byte has come. -/
theorem doShardData_of_die :
    doShardData p s =
      if g.got + m.payload.length < gaBytes g.msg then u.setGather d (some { g with got := g.got + m.payload.length, since := u.aon })
      else ((u.setGather d none).countFallback g.path).answer g.msg stOk 0 (natLe 1 (b2n (g.path != 0))) := by
  simp only [doShardData, htake, hasker, hwrite]
  rfl

theorem doShardData_of_part (hpart : g.got + m.payload.length < gaBytes g.msg) :
    doShardData p s = u.setGather d (some { g with got := g.got + m.payload.length, since := u.aon }) :=
  (doShardData_of_die htake hasker hwrite).trans (if_pos hpart)

theorem doShardData_of_whole (hwhole : gaBytes g.msg ≤ g.got + m.payload.length) :
    doShardData p s = ((u.setGather d none).countFallback g.path).answer g.msg stOk 0 (natLe 1 (b2n (g.path != 0))) :=
  (doShardData_of_die htake hasker hwrite).trans (if_neg (Nat.not_lt.2 hwhole))

theorem doShardData_of_whole_first_path (hwhole : gaBytes g.msg ≤ g.got + m.payload.length) (hpath : g.path = 0) :
    doShardData p s = (u.setGather d none).answer g.msg stOk 0 (natLe 1 0) := by
  rw [doShardData_of_whole htake hasker hwrite hwhole, hpath, State.countFallback, if_pos rfl]
  rfl

theorem doShardData_of_whole_fallback (hwhole : gaBytes g.msg ≤ g.got + m.payload.length) (hpath : g.path ≠ 0) :
    doShardData p s =
      ((u.setGather d none).modWvt fun w => { w with cfg := fsat wvtFallbacks 1 w.cfg }).answer g.msg stOk 0 (natLe 1 1) := by
  rw [doShardData_of_whole htake hasker hwrite hwhole, State.countFallback, if_neg hpath, bne_iff_ne.2 hpath]
  rfl

end

theorem doShardFail_of_asker {s t : State} {p : Fin 24} {m : Msg} {a : Asker} (htake : s.takeMsg p kShardFail = some (m, t))
    (hasker : t.asker p m.hdr.wver none = some a) : doShardFail p s = t.askerFailed a (bytesHalf m.payload 0) := by
  simp only [doShardFail, htake, hasker]

/-! ## Sparse blocks (R237) -/

/-- A role's block with the segment of a message added. -/
def SpBuf.grown (b : SpBuf) (m : Msg) : SpBuf :=
  { b with
    segs := b.segs ++ [(m.hdr.offset, m.payload.length)]
    last := if m.hdr.flags.getLsbD hfLast then some (m.hdr.offset + m.payload.length) else b.last }

/-- Whether every byte of a block is there. -/
def SpBuf.whole (b : SpBuf) : Bool := b.last.any (coversBelow b.segs)

/-- The segment of a message stored in a role's block. -/
def State.storeBlock (s : State) (b : SpBuf) (m : Msg) : State :=
  s.putHub (fget spbufHubBase b.reg * 4096 + m.hdr.offset) m.payload

/-- A role's block replaced. -/
def State.setBlock (s : State) (r : Fin 4) (b : SpBuf) : State := s.modSle fun y => { y with spbuf := vset y.spbuf r b }

section
variable {s t : State} {p : Fin 24} {m : Msg} {x : Fin 64 × GroupEntry} {r : Fin 4} (htake : s.takeMsg p kSpBlock = some (m, t))
  (hactive : t.activeGroup m.hdr.group = some x) (hrole : fin? 4 x.2.role = some r)
include htake hactive hrole

theorem doSpBlock_of_beyond
    (hbeyond : fget spbufLimitKib (vget t.sle.spbuf r).reg * 1024 < m.hdr.offset + m.payload.length) :
    doSpBlock p s = t.log .hub lgSpBlock [r.1, m.hdr.offset, m.payload.length] := by
  simp only [doSpBlock, htake, hactive, Option.bind_some, hrole, if_pos hbeyond]

section
variable (hwithin : m.hdr.offset + m.payload.length ≤ fget spbufLimitKib (vget t.sle.spbuf r).reg * 1024)
include hwithin

theorem doSpBlock_of_whole (hwhole : ((vget t.sle.spbuf r).grown m).whole = true) :
    doSpBlock p s = ((t.storeBlock (vget t.sle.spbuf r) m).setBlock r { vget t.sle.spbuf r with segs := [], last := none }).postMask
      (fget spbufDies (vget t.sle.spbuf r).reg) (fget spbufSem (vget t.sle.spbuf r).reg) := by
  simp only [SpBuf.whole, SpBuf.grown] at hwhole
  simp only [doSpBlock, htake, hactive, Option.bind_some, hrole, if_neg (Nat.not_lt.2 hwithin), hwhole, if_true]
  rfl

theorem doSpBlock_of_part (hpart : ((vget t.sle.spbuf r).grown m).whole = false) :
    doSpBlock p s = (t.storeBlock (vget t.sle.spbuf r) m).setBlock r ((vget t.sle.spbuf r).grown m) := by
  simp only [SpBuf.whole, SpBuf.grown] at hpart
  simp only [doSpBlock, htake, hactive, Option.bind_some, hrole, if_neg (Nat.not_lt.2 hwithin), hpart, Bool.false_eq_true, if_false]
  rfl

end

end

/-- Settles O36: the next output of a link; a request by whom it is for, data by the last byte, a failure; a block by its limit and by
what then covers it. -/
theorem stageLinksShardsAndSparseBlocks : Obligations.StageLinksShardsAndSparseBlocks := by
  unfold Obligations.StageLinksShardsAndSparseBlocks
  refine ⟨fun s r d o hstate hports hnext => ?_, fun s t p m x b htake hhere hlive hbuf hfail hgood => ?_,
    fun s t p m g htake haway => ⟨fun q hport => ?_, fun hport => ?_⟩,
    fun s t u p m d g htake hasker hwrite => ⟨fun hpart => ?_, fun hwhole hpath => ?_, fun hwhole hpath => ?_⟩,
    fun s t p m a htake hasker => ?_,
    fun s t p m x r htake hactive hrole => ⟨fun hwithin hwhole => ?_, fun hwithin hpart => ?_, fun hbeyond => ?_⟩⟩
  · rw [exec_stageLinkSend, doStageLinkSend_of_next hstate hports hnext]
    rfl
  · rw [exec_shardReq, doShardReq_of_here htake hhere hlive hbuf rfl hfail hgood]
  · rw [exec_shardReq, doShardReq_of_away_reached htake haway hport]
    rfl
  · rw [exec_shardReq, doShardReq_of_away_lost htake haway hport]
  · rw [exec_shardData, doShardData_of_part htake hasker hwrite hpart]
  · rw [exec_shardData, doShardData_of_whole_first_path htake hasker hwrite hwhole hpath]
  · rw [exec_shardData, doShardData_of_whole_fallback htake hasker hwrite hwhole hpath]
  · rw [exec_shardFail, doShardFail_of_asker htake hasker]
  · rw [exec_spBlock, doSpBlock_of_whole htake hactive hrole hwithin hwhole]
    rfl
  · rw [exec_spBlock, doSpBlock_of_part htake hactive hrole hwithin hpart]
    rfl
  · rw [exec_spBlock, doSpBlock_of_beyond htake hactive hrole hbeyond]

end Sys2Proof.Machine
end

section
/-!
SUPPORT. The slots of the micro-batch queue manager (spec 12 R221 to R225, R230): the binding of a free slot and the ends of a slot by its
state; O37 (SlotsBindAndFree) put together from them.
-/
namespace Sys2Proof.Machine

theorem exec_mbqBind (s : State) : exec .mbqBind s = .next (s.after (doMbqBind s)) :=
  ran_eq_next_after doMbqBind s

theorem exec_slotOutputAcked (i : Fin 16) (s : State) : exec (.slotOutputAcked i) s = .next (s.after (doSlotOutputAcked i s)) :=
  ran_eq_next_after (doSlotOutputAcked i) s

theorem exec_slotDroppedRelease (i : Fin 16) (s : State) :
    exec (.slotDroppedRelease i) s = .next (s.after (doSlotDroppedRelease i s)) :=
  ran_eq_next_after (doSlotDroppedRelease i) s

/-- A slot that is free takes the first queue head that can be bound to it, or bounced or dropped in its place. -/
theorem doMbqBind_of_choice {s t u : State} {i : Fin 16}
    (hslot : (forEach (allFin 4) State.generate s).choose
      ((allFin 16).filter fun j => ((forEach (allFin 4) State.generate s).slot j).state == slFree) = (some i, t))
    (hhead : (firstSome t.candidates fun c => t.tryHead i c.1 c.2.1 c.2.2) = some u) : doMbqBind s = u := by
  simp only [doMbqBind, hslot, hhead, Option.getD_some]

/-- A micro-batch that has done its gradient counts in DONE of its role, unless it is an evaluation. -/
def State.countDone (s : State) (x : Slot) : State :=
  if x.eval then s else s.modMq x.role fun q => { q with stepStat := fsat stepDone 1 q.stepStat }

section
variable {s : State} {i : Fin 16} (hacked : (s.slot i).acked = true)
include hacked

theorem doSlotOutputAcked_of_stashed (hstate : (s.slot i).state = slStashed) (hquiet : s.stashQuiet (s.slot i) = true) :
    doSlotOutputAcked i s = s.freeSlot i := by
  simp only [doSlotOutputAcked, hacked, Bool.not_true, Bool.false_eq_true, if_false, if_pos hstate, if_pos hquiet]

theorem doSlotOutputAcked_of_done (hstate : (s.slot i).state = slDone) :
    doSlotOutputAcked i s = ((s.modWvt fun w => w.unpin (s.slot i).role (s.slot i).wver).countDone (s.slot i)).freeSlot i := by
  have hnot : (s.slot i).state ≠ slStashed := by rw [hstate]; decide
  simp only [doSlotOutputAcked, hacked, Bool.not_true, Bool.false_eq_true, if_false, if_neg hnot, if_pos hstate]
  rfl

end

theorem doSlotDroppedRelease_of_dropped {s : State} {i : Fin 16} (hstate : (s.slot i).state = slDropped) :
    doSlotDroppedRelease i s =
      (s.freeSlot i).countDropped (s.slot i).role (s.slot i).step (s.slot i).mb (s.slot i).eval :=
  if_pos hstate

/-- Settles O37: the slot and the head that are chosen; a slot whose output is acknowledged by its state, and a dropped one. -/
theorem slotsBindAndFree : Obligations.SlotsBindAndFree := by
  unfold Obligations.SlotsBindAndFree
  refine ⟨fun s t u i hslot hhead => ?_, fun s i hacked hstate hquiet => ?_, fun s i hacked hstate => ?_, fun s i hstate => ?_⟩
  · rw [exec_mbqBind, doMbqBind_of_choice hslot hhead]
  · rw [exec_slotOutputAcked, doSlotOutputAcked_of_stashed hacked hstate hquiet]
  · rw [exec_slotOutputAcked, doSlotOutputAcked_of_done hacked hstate]
    rfl
  · rw [exec_slotDroppedRelease, doSlotDroppedRelease_of_dropped hstate]

end Sys2Proof.Machine
end

section
/-!
SUPPORT. The HUBOPs of the weight version table (spec 12 R231, R232, Table 12-15): how a message of each that is well formed is answered,
and the limit of a gather; O38 (WeightVersionsAnswerHubops) put together from them.
-/
namespace Sys2Proof.Machine

theorem exec_lookup (d : Fin 4) (s : State) : exec (.lookup d) s = .next (s.after (doLookup d s)) :=
  ran_eq_next_after (doLookup d) s

theorem exec_openPending (d : Fin 4) (s : State) : exec (.openPending d) s = .next (s.after (doOpenPending d s)) :=
  ran_eq_next_after (doOpenPending d) s

theorem exec_gather (d : Fin 4) (s : State) : exec (.gather d) s = .next (s.after (doGather d s)) :=
  ran_eq_next_after (doGather d) s

theorem exec_gatherLimitExpiry (d : Fin 4) (s : State) : exec (.gatherLimitExpiry d) s = .next (s.after (doGatherLimitExpiry d s)) :=
  ran_eq_next_after (doGatherLimitExpiry d) s

/-! ## LOOKUP -/

section
variable {s : State} {d : Fin 4} {m : HubMsg} (hknown : s.hubOdd? d unitWvt [1, 2, 3, 4] = none)
  (hmsg : s.hubMsg? d unitWvt 1 = some m) (hreserved : allZero (m.bytes.drop 8) = true) (hentry : leAt m.bytes 2 2 < 4096)
include hknown hmsg hreserved hentry

theorem doLookup_of_found {x : WvtEntry} {i : Nat} {b : WvtBuf} (hget : sget s.wvt.entries (leAt m.bytes 2 2) = some x)
    (hidx : (x.bufs.findIdx? fun y => y.version == bytesWord m.bytes 4 && y.st != .empty) = some i) (hbuf : x.bufs[i]? = some b) :
    doLookup d s = s.answer m stOk 0 (natLe 1 i ++ natLe 1 b.st.code ++ natLe 2 (min b.pins 0xFFFF)) := by
  simp only [doLookup, hknown, hmsg, hreserved, if_neg (Nat.not_le.2 hentry), hget, hidx, hbuf, Bool.not_true, Bool.false_eq_true,
    if_false]

theorem doLookup_of_no_entry (hget : sget s.wvt.entries (leAt m.bytes 2 2) = none) :
    doLookup d s = s.answer m stVersionGone (BitVec.ofNat 16 (leAt m.bytes 2 2)) := by
  simp only [doLookup, hknown, hmsg, hreserved, if_neg (Nat.not_le.2 hentry), hget, Bool.not_true, Bool.false_eq_true, if_false]

end

/-! ## OPEN_PENDING (R231) -/

/-- Whether an entry of a role has no empty buffer for a pending version. -/
def Wvt.fullFor (w : Wvt) (r : Fin 4) : Bool := (w.entriesOf r).any fun e => e.bufs.all fun b => b.st != .empty

section
variable {s : State} {d : Fin 4} {m : HubMsg} {r : Fin 4} (hmsg : s.hubMsg? d unitWvt 2 = some m)
  (hreserved : allZero (m.bytes.drop 3) = true) (hrole : fin? 4 (byteAt m.bytes 2) = some r) (hused : s.roleUsed r = true)
  (hnone : (vget s.wvt.pendingVer r).isSome = false)
include hmsg hreserved hrole hused hnone

/-- The request for a role that has no pending version turns on the room in its entries. -/
theorem doOpenPending_of_none_pending :
    doOpenPending d s =
      if s.wvt.fullFor r = true then s.answer m stConflict (part 0 6)
      else ((s.fresh 12).2.modWvt fun w => w.openPending r (s.fresh 12).1).answer m stOk 0
        (natLe 1 (((s.wvt.entriesOf r).head?.map (·.pick (s.fresh 12).1)).getD 0)) := by
  simp only [doOpenPending, hmsg, hreserved, hrole, hused, hnone, Bool.not_true, Bool.or_self, Bool.false_eq_true, if_false]
  rfl

theorem doOpenPending_of_full (hfull : s.wvt.fullFor r = true) : doOpenPending d s = s.answer m stConflict (part 0 6) :=
  (doOpenPending_of_none_pending hmsg hreserved hrole hused hnone).trans (if_pos hfull)

theorem doOpenPending_of_room (hroom : s.wvt.fullFor r = false) :
    doOpenPending d s = ((s.fresh 12).2.modWvt fun w => w.openPending r (s.fresh 12).1).answer m stOk 0
      (natLe 1 (((s.wvt.entriesOf r).head?.map (·.pick (s.fresh 12).1)).getD 0)) :=
  (doOpenPending_of_none_pending hmsg hreserved hrole hused hnone).trans (if_neg (Bool.eq_false_iff.1 hroom))

end

/-! ## GATHER (R232) -/

/-- The messages that wait, without one that has been taken. -/
def State.takeHubMsg (s : State) (m : HubMsg) : State :=
  { s with hubMsgs := dropFirst (fun y => y.die == m.die && y.issue == m.issue) s.hubMsgs }

/-- A gather whose arguments are sound turns on whether its version is live, and on its bytes. -/
theorem doGather_of_sound {s : State} {d : Fin 4} {m : HubMsg} {x : WvtEntry} {e : GroupEntry} (hmsg : s.hubMsg? d unitWvt 3 = some m)
    (hidle : s.gather? d = none) (hentry : sget s.wvt.entries (gaEntry m) = some x) (hgroup : s.entry (gaTSlot m) = some e)
    (hfits : gaDest m + gaBytes m ≤ devSize) (haxis : e.axis = 1) (hrank : gaRank m < e.members.length) (hother : gaRank m ≠ e.rank)
    (hdslot : gaDSlot m = 0xFF ∨ (s.entry (gaDSlot m)).map (·.axis) = some 0) :
    doGather d s =
      if x.live (gaVersion m) = false then (s.takeHubMsg m).gatherGone d m
      else if gaBytes m = 0 then (s.takeHubMsg m).answer m stOk
      else (s.takeHubMsg m).gatherFrom d m x.tensorId 3 0 := by
  have hsound : ¬(e.axis ≠ 1 ∨ e.members.length ≤ gaRank m ∨ gaRank m = e.rank ∨
      (gaDSlot m ≠ 0xFF ∧ (s.entry (gaDSlot m)).map (·.axis) ≠ some 0)) := by
    rintro (haxis' | hrank' | hown | ⟨hnamed, hnot⟩)
    · exact haxis' haxis
    · exact Nat.not_le.2 hrank hrank'
    · exact hother hown
    · exact hdslot.elim hnamed hnot
  simp only [doGather, hmsg, hidle, hentry, hgroup, if_neg (Nat.not_lt.2 hfits), if_neg hsound, Bool.not_eq_true']
  rfl

theorem doGatherLimitExpiry_of_late {s : State} {d : Fin 4} {g : Gather} (hgather : s.gather? d = some g)
    (hlate : g.since + max 1 (fget wvtGatherLimit s.wvt.cfg) ≤ s.aon) : doGatherLimitExpiry d s = s.gatherFail d := by
  simp only [doGatherLimitExpiry, hgather, if_neg (Nat.not_lt.2 hlate)]

/-- Settles O38: LOOKUP by what the entry holds, OPEN_PENDING by the room for a version, GATHER by its version and its bytes, and a gather
whose limit has passed. -/
theorem weightVersionsAnswerHubops : Obligations.WeightVersionsAnswerHubops := by
  unfold Obligations.WeightVersionsAnswerHubops
  refine ⟨fun s d m hknown hmsg hreserved hentry => ⟨fun x i b hget hidx hbuf => ?_, fun hget => ?_⟩,
    fun s d m r hmsg hreserved hrole hused hnone => ⟨fun hfull => ?_, fun hroom => ?_⟩,
    fun s d m x e hmsg hidle hentry hgroup hfits haxis hrank hother hdslot => ?_, fun s d g hgather hlate => ?_⟩
  · rw [exec_lookup, doLookup_of_found hknown hmsg hreserved hentry hget hidx hbuf]
  · rw [exec_lookup, doLookup_of_no_entry hknown hmsg hreserved hentry hget]
  · rw [exec_openPending, doOpenPending_of_full hmsg hreserved hrole hused hnone hfull]
  · rw [exec_openPending, doOpenPending_of_room hmsg hreserved hrole hused hnone hroom]
  · rw [exec_gather, doGather_of_sound hmsg hidle hentry hgroup hfits haxis hrank hother hdslot]
    refine ⟨fun hgone => ?_, fun hlive hempty => ?_, fun hlive hsome => ?_⟩
    · rw [if_pos hgone, State.takeHubMsg]
    · rw [if_neg (by simp [hlive]), if_pos hempty, State.takeHubMsg]
    · rw [if_neg (by simp [hlive]), if_neg hsome, State.takeHubMsg]
  · rw [exec_gatherLimitExpiry, doGatherLimitExpiry_of_late hgather hlate]

end Sys2Proof.Machine
end

section
/-!
SUPPORT. The HUBOPs of the tally engines (spec 13 R238, R239, Table 13-1): how ARM, START and DISARM of a job that are well formed are
answered; O40 (TallyJobsArmStartAndDisarm) put together from them.
-/
namespace Sys2Proof.Machine

theorem exec_arm (d : Fin 4) (s : State) : exec (.arm d) s = .next (s.after (doArm d s)) := ran_eq_next_after (doArm d) s

theorem exec_start (d : Fin 4) (s : State) : exec (.start d) s = .next (s.after (doStart d s)) := ran_eq_next_after (doStart d) s

theorem exec_disarm (d : Fin 4) (s : State) : exec (.disarm d) s = .next (s.after (doDisarm d s)) := ran_eq_next_after (doDisarm d) s

/-! ## ARM (R238) -/

theorem State.busy_getD_eq_any (s : State) (j : Fin 64) : ((s.tjob j).map (·.busy)).getD false = (s.tjob j).any (·.busy) := by
  cases s.tjob j <;> rfl

section
variable {s : State} {d : Fin 4} {m : HubMsg} {j : Fin 64}
  (hknown : (firstSome [0, 1, 2, 3] fun u => s.hubOdd? d u [1, 2, 3]) = none) (hmsg : s.tlyMsg? d 1 = some m)
  (hmid : allZero (slice m.bytes 3 5) = true) (htail : allZero (m.bytes.drop 12) = true) (hentry : fin? 64 (byteAt m.bytes 2) = some j)
include hknown hmsg hmid htail hentry

theorem doArm_of_busy (hbusy : (s.tjob j).any (·.busy) = true) : doArm d s = s.answerDenied m dtState := by
  simp only [doArm, hknown, hmsg, hmid, htail, hentry, State.busy_getD_eq_any, hbusy, Bool.and_self, Bool.not_true, Bool.false_eq_true,
    if_false, if_true]

theorem doArm_of_sound {t : State} {x : TlyJob} (hidle : (s.tjob j).any (·.busy) = false)
    (hread : s.readJob m.unit (leAt m.bytes 8 4) = (t, .ok x)) : doArm d s = (t.setTjob j (some x)).answer m stOk := by
  simp only [doArm, hknown, hmsg, hmid, htail, hentry, State.busy_getD_eq_any, hidle, hread, Bool.and_self, Bool.not_true,
    Bool.false_eq_true, if_false]

end

/-! ## START (R239): the conditions of `startJob` by name -/

/-- A step is above the last step started of a job. -/
def TlyJob.isAbove (t : TlyJob) (step : Word) : Bool := match t.last with
  | some l => 0 < epochDiff step l
  | none => true

/-- The role of a job has finished a step, where the job's operation asks for it. -/
def State.readyFor (s : State) (t : TlyJob) (step : Word) : Bool :=
  t.desc.op != opAllreduce || match s.jobRole t with
    | some r => s.roleFinished r step
    | none => false

/-- The arrival of a segment has opened the run of a step, which waits for its START. -/
def TlyJob.opened (t : TlyJob) (step : Word) : Bool := match t.run with
  | some r => r.step == step && !r.started
  | none => false

/-- This member was absent from a step whose record has been written. -/
def TlyJob.missed (t : TlyJob) (step : Word) : Bool := match t.run with
  | some r => r.absent && r.recorded && !r.started && epochDiff step r.step ≤ 0
  | none => false

/-- Close the window of an opened run if its time has come. -/
def State.closeOpened (s : State) (j : Fin 64) (t : TlyJob) (opened : Bool) : State := match s.trun j with
  | some r => if opened && s.windowClosed t r then s.goAbsent j else s
  | none => s

theorem TlyJob.isAbove_of_last {t : TlyJob} {step : Word} (h : ∀ l, t.last = some l → 0 < epochDiff step l) :
    t.isAbove step = true := by
  unfold TlyJob.isAbove
  cases hlast : t.last with
  | none => rfl
  | some l => exact decide_eq_true (h l hlast)

theorem State.readyFor_of_finished {s : State} {t : TlyJob} {step : Word} {r : Fin 4} (hrole : s.jobRole t = some r)
    (hdone : s.roleFinished r step = true) : s.readyFor t step = true := by
  simp only [State.readyFor, hrole, hdone, Bool.or_true]

theorem TlyJob.opened_of_other {t : TlyJob} {step : Word} (h : ∀ x, t.run = some x → x.step ≠ step) : t.opened step = false := by
  unfold TlyJob.opened
  cases hrun : t.run with
  | none => rfl
  | some x => simp [h x hrun]

theorem TlyJob.missed_of_present {t : TlyJob} {step : Word} (h : ∀ x, t.run = some x → x.absent = false) : t.missed step = false := by
  unfold TlyJob.missed
  cases hrun : t.run with
  | none => rfl
  | some x => simp [h x hrun]

theorem State.closeOpened_false (s : State) (j : Fin 64) (t : TlyJob) : s.closeOpened j t false = s := by
  unfold State.closeOpened
  cases s.trun j <;> rfl

/-- A START on an armed job turns on its refusal, on this member's absence, and on whether a segment has opened its run. -/
theorem State.startJob_eq (s : State) (m : HubMsg) (j : Fin 64) (t : TlyJob) :
    let step := bytesWord m.bytes 4
    let count := s.startCount t (leAt m.bytes 8 4)
    s.startJob m j t =
      if m.unit ≠ t.unit || !t.isAbove step || !s.readyFor t step || (t.busy && !t.opened step) then s.answerDenied m dtState
      else
        let u := (s.modTjob j fun t => { t with last := some step }).closeOpened j t (t.opened step)
        if t.opened step && ((u.trun j).map (·.absent)).getD false || t.missed step then
          ((u.keepCarry j t count).modTrun j fun r => { r with started := true }).answer m stOk 0 [1]
        else
          let v := (if t.opened step then u else u.openRun j step u.aon).modTrun j fun r => { r with started := true, count := count }
          ((v.beginRun j).nextRun j).answer m stOk := rfl

/-- A START that is not refused, of a step that has no run and from which this member was not absent, opens the step and begins it. -/
theorem State.startJob_of_new {s : State} {m : HubMsg} {j : Fin 64} {t : TlyJob} (hunit : m.unit = t.unit)
    (habove : t.isAbove (bytesWord m.bytes 4) = true) (hready : s.readyFor t (bytesWord m.bytes 4) = true) (hidle : t.busy = false)
    (hnew : t.opened (bytesWord m.bytes 4) = false) (hpresent : t.missed (bytesWord m.bytes 4) = false) :
    let u := (s.modTjob j fun t => { t with last := some (bytesWord m.bytes 4) }).openRun j (bytesWord m.bytes 4) s.aon
    s.startJob m j t = (((u.modTrun j fun x => { x with
      started := true, count := s.startCount t (leAt m.bytes 8 4) }).beginRun j).nextRun j).answer m stOk := by
  rw [State.startJob_eq]
  simp only [hunit, habove, hready, hidle, hnew, hpresent, State.closeOpened_false, ne_eq, not_true_eq_false, decide_false, Bool.not_true,
    Bool.false_and, Bool.or_self, Bool.false_eq_true, if_false]
  rfl

section
variable {s : State} {d : Fin 4} {m : HubMsg} {j : Fin 64} (hmsg : s.tlyMsg? d 2 = some m) (hzero : byteAt m.bytes 3 = 0)
  (htail : allZero (m.bytes.drop 12) = true) (hentry : fin? 64 (byteAt m.bytes 2) = some j)
include hmsg hzero htail hentry

theorem doStart_of_unarmed (hnone : s.tjob j = none) : doStart d s = s.answerDenied m dtState := by
  simp [doStart, hmsg, hzero, htail, hentry, hnone]

theorem doStart_of_held {t : TlyJob} {k : Reshard} (hjob : s.tjob j = some t)
    (hheld : s.reshardHolds t (bytesWord m.bytes 4) = some k) :
    doStart d s = (s.takeHubMsg m).modTly fun x => { x with
      reshards := updateWhere (fun y => y.handle == k.handle) (fun y => { y with held := y.held ++ [m] }) x.reshards } := by
  simp [doStart, hmsg, hzero, htail, hentry, hjob, hheld, State.takeHubMsg]

theorem doStart_of_free {t : TlyJob} (hjob : s.tjob j = some t) (hfree : s.reshardHolds t (bytesWord m.bytes 4) = none) :
    doStart d s = s.startJob m j t := by
  simp [doStart, hmsg, hzero, htail, hentry, hjob, hfree]

end

/-! ## DISARM (Table 13-4) -/

/-- A well-formed DISARM of an armed entry turns on whether its job is in progress. -/
theorem doDisarm_of_armed {s : State} {d : Fin 4} {m : HubMsg} {j : Fin 64} {t : TlyJob} (hmsg : s.tlyMsg? d 3 = some m)
    (htail : allZero (m.bytes.drop 3) = true) (hentry : fin? 64 (byteAt m.bytes 2) = some j) (hjob : s.tjob j = some t) :
    doDisarm d s =
      ((if t.busy then (s.record j (some stCancelled)).log .tly 0 [j.1] else s).setTjob j none).answer m stOk := by
  simp only [doDisarm, hmsg, htail, hentry, hjob, Bool.not_true, Bool.false_eq_true, if_false]

/-- Settles O40: ARM by what the entry holds and by its descriptor, START by the entry, by a pending re-shard and by the conditions that
refuse it, DISARM by whether a step is in progress. -/
theorem tallyJobsArmStartAndDisarm : Obligations.TallyJobsArmStartAndDisarm := by
  unfold Obligations.TallyJobsArmStartAndDisarm
  refine ⟨fun s d m j hknown hmsg hmid htail hentry => ?_, fun s d m j hmsg hzero htail hentry => ⟨fun hnone => ?_,
    fun t k hjob hheld => ?_, fun t r hjob hfree hunit hlast hrole hdone hidle hrun => ?_⟩,
    fun s d m j t hmsg htail hentry hjob => ?_⟩
  · exact ⟨fun t x hidle hread => by rw [exec_arm, doArm_of_sound hknown hmsg hmid htail hentry hidle hread],
      fun hbusy => by rw [exec_arm, doArm_of_busy hknown hmsg hmid htail hentry hbusy]⟩
  · rw [exec_start, doStart_of_unarmed hmsg hzero htail hentry hnone]
  · rw [exec_start, doStart_of_held hmsg hzero htail hentry hjob hheld]
    rfl
  · have hnew : t.opened (bytesWord m.bytes 4) = false := TlyJob.opened_of_other fun x hx => (hrun x hx).1
    have hpresent : t.missed (bytesWord m.bytes 4) = false := TlyJob.missed_of_present fun x hx => (hrun x hx).2
    rw [exec_start, doStart_of_free hmsg hzero htail hentry hjob hfree, State.startJob_of_new hunit (TlyJob.isAbove_of_last hlast)
      (State.readyFor_of_finished hrole hdone) hidle hnew hpresent]
  · rw [exec_disarm, doDisarm_of_armed hmsg htail hentry hjob]
    exact ⟨fun hidle => by rw [hidle]; rfl, fun hbusy => by rw [hbusy]; rfl⟩

end Sys2Proof.Machine
end

section
/-!
SUPPORT. The commit vote (spec 14 R265 to R268): what a VOTE, a record, a decision and a request for one do where they are sound, and what
the two limits of a vote do once they have passed; O39 (CommitVotes) put together from them.
-/
namespace Sys2Proof.Machine

theorem exec_voteHubop (d : Fin 4) (s : State) : exec (.voteHubop d) s = .next (s.after (s.voteHubop d).startDrains) :=
  ran_eq_next_after (doVoteHubop d) s

theorem exec_vote (p : Fin 24) (s : State) : exec (.vote p) s = .next (s.after (s.voteMsg p).startDrains) :=
  ran_eq_next_after (doVote p) s

theorem exec_decision (p : Fin 24) (s : State) : exec (.decision p) s = .next (s.after (s.decisionMsg p).startDrains) :=
  ran_eq_next_after (doDecision p) s

theorem exec_voteLimitExpiry (r : Fin 4) (s : State) : exec (.voteLimitExpiry r) s = .next (s.after (doVoteLimitExpiry r s)) :=
  ran_eq_next_after (doVoteLimitExpiry r) s

theorem exec_decideWaitExpiry (r : Fin 4) (s : State) : exec (.decideWaitExpiry r) s = .next (s.after (doDecideWaitExpiry r s)) :=
  ran_eq_next_after (doDecideWaitExpiry r) s

theorem exec_decisionReq (p : Fin 24) (s : State) : exec (.decisionReq p) s = .next (s.after (doDecisionReq p s)) :=
  ran_eq_next_after (doDecisionReq p) s

/-- A limit has passed where it is counted in ticks from a tick on. -/
theorem not_lt_frTicks {w : Word} {f : Fld} {unit from_ now : Nat} (h : from_ + unit * max 1 (fget f w) ≤ now) :
    ¬now < from_ + frTicks w f unit :=
  Nat.not_lt.2 h

/-! ## Votes (R266, R267) -/

theorem State.voteHubop_of_sound {s : State} {d : Fin 4} {m : HubMsg} {r : Fin 4} {w : Word} (hmsg : s.hubMsg? d unitWvt 4 = some m)
    (hreserved : voteReserved m.bytes = false) (hrole : fin? 4 (byteAt m.bytes 2) = some r) (hpending : vget s.wvt.pendingVer r = some w)
    (hopen : (s.rv r).holds (parseVoteArgs m.bytes).step = false ∨ (s.rv r).held.map (·.commit) ≠ some true)
    (hslot : s.voteSlotOk r (parseVoteArgs m.bytes).slot = true) (hrecord : twinOffOk (parseVoteArgs m.bytes).drec 32 32 = true) :
    s.voteHubop d = (s.answer m stOk).castVote r (parseVoteArgs m.bytes) true w := by
  have hundecided : ((s.rv r).holds (parseVoteArgs m.bytes).step && (s.rv r).held.map (·.commit) == some true) = false := by
    rcases hopen with hother | habort
    · rw [hother, Bool.false_and]
    · rw [beq_eq_false_iff_ne.2 habort, Bool.and_false]
  simp only [State.voteHubop, hmsg, hreserved, hrole, hpending, hundecided, hslot, hrecord, Bool.not_true, Bool.or_self,
    Bool.false_eq_true, if_false]

section
variable {s t : State} {p : Fin 24} {m : Msg} (htake : s.takeMsg p kVote = some (m, t)) (hpass : t.epochCheck m.hdr = .pass)
include htake hpass

theorem State.voteMsg_of_record {v : VoteRec} {r : Fin 4} {e : GroupEntry} (hparse : parseVote m.payload = some v)
    (hrole : t.voteRole m.hdr = some (r, e)) : s.voteMsg p = t.voteArrive p m r e v := by
  simp only [State.voteMsg, htake, hpass, hparse, hrole]

theorem State.voteMsg_of_malformed (hparse : parseVote m.payload = none) :
    s.voteMsg p = t.reject p m.hdr 0x06 stBadDescriptor := by
  simp only [State.voteMsg, htake, hpass, hparse]

end

/-! ## Decisions (R268) -/

/-- A decision is held already, at its attempt or at a later one. -/
def RoleVote.knows (v : RoleVote) (d : DecisionRec) : Bool := match v.held with
  | some x => x.step == d.step && decide (d.attempt ≤ x.attempt)
  | none => false

/-- A vote has gone on past a decision, to a later step or a later attempt. -/
def RoleVote.isPast (v : RoleVote) (d : DecisionRec) : Bool := match v.args with
  | some a => epochDiff d.step a.step < 0 || (a.step == d.step && decide (d.attempt < v.attempt))
  | none => false

theorem RoleVote.knows_of_held {v : RoleVote} {d x : DecisionRec} (hheld : v.held = some x) (hstep : x.step = d.step)
    (hattempt : d.attempt ≤ x.attempt) : v.knows d = true := by
  simp [RoleVote.knows, hheld, hstep, hattempt]

theorem RoleVote.knows_eq_false {v : RoleVote} {d : DecisionRec}
    (h : ∀ x, v.held = some x → x.step ≠ d.step ∨ x.attempt < d.attempt) : v.knows d = false := by
  unfold RoleVote.knows
  cases hheld : v.held with
  | none => rfl
  | some x =>
    rcases h x hheld with hstep | hattempt
    · simp [hstep]
    · simp [hattempt]

theorem RoleVote.isPast_eq_false {v : RoleVote} {d : DecisionRec}
    (h : ∀ a, v.args = some a → 0 ≤ epochDiff d.step a.step ∧ (a.step = d.step → v.attempt ≤ d.attempt)) : v.isPast d = false := by
  unfold RoleVote.isPast
  cases hargs : v.args with
  | none => rfl
  | some a =>
    obtain ⟨hstep, hattempt⟩ := h a hargs
    simpa [hstep] using hattempt

/-- A decision that is well formed is discarded or forwarded and adopted, by what the role's vote holds. -/
theorem State.decisionMsg_of_sound {s t : State} {p : Fin 24} {m : Msg} {d : DecisionRec} {r : Fin 4} {e : GroupEntry}
    (htake : s.takeMsg p kDecision = some (m, t)) (hpass : t.epochCheck m.hdr = .pass) (hparse : parseDecision m.payload = some d)
    (hrole : t.voteRole m.hdr = some (r, e)) :
    s.decisionMsg p = if ((t.rv r).knows d || (t.rv r).isPast d) = true then t else (t.flood r d (some p)).takeDecision r d false := by
  simp only [State.decisionMsg, htake, hpass, hparse, hrole]
  rfl

theorem doVoteLimitExpiry_of_late {s : State} {r : Fin 4} {at_ : Nat} (hvoted : (s.rv r).votedAt = some at_)
    (hanchor : isAnchor (s.voteChain r) = true) (hlate : at_ + 1024 * max 1 (fget frCfgVoteLimit s.fr.cfg) ≤ s.aon) :
    doVoteLimitExpiry r s = (s.takeDecision r (s.decisionOf r (s.voteChain r) none) true).flood r
      (s.decisionOf r (s.voteChain r) none) none := by
  simp [doVoteLimitExpiry, hvoted, hanchor, not_lt_frTicks hlate]

/-! ## Requests for a decision (R268) -/

/-- Ask the neighbour over one port of a chain for the decision of a role's vote. -/
def State.askDecision (r : Fin 4) (step wver : Word) (attempt : Nat) (s : State) (x : Nat × GroupEntry) : State :=
  match port? x.1 with
  | some p => s.send p ⟨{ s.voteHdr r x.2 p kDecisionReq step wver with length := 8 },
      natLe 4 step.toNat ++ natLe 1 attempt ++ [0, 0, 0]⟩ (.fr r)
  | none => s

theorem doDecideWaitExpiry_of_late {s : State} {r : Fin 4} {at_ : Nat} {a : VoteArgs} (hvoted : (s.rv r).votedAt = some at_)
    (hargs : (s.rv r).args = some a) (hlate : (s.rv r).askedAt + 1024 * max 1 (fget frCfgDecideWait s.fr.cfg) ≤ s.aon) :
    let t := s.modRv r fun x => { x with askedAt := s.aon }
    doDecideWaitExpiry r s = forEach (chainPorts (t.voteChain r)) (State.askDecision r a.step (s.rv r).wver (s.rv r).attempt) t := by
  simp only [doDecideWaitExpiry, hvoted, hargs, if_neg (not_lt_frTicks hlate)]
  rfl

theorem doDecisionReq_of_held {s t : State} {p : Fin 24} {m : Msg} {r : Fin 4} {e : GroupEntry} {d : DecisionRec}
    (htake : s.takeMsg p kDecisionReq = some (m, t)) (hpass : t.epochCheck m.hdr = .pass) (hlength : m.payload.length = 8)
    (hreserved : allZero (m.payload.drop 5) = true) (hrole : t.voteRole m.hdr = some (r, e)) (hheld : (t.rv r).held = some d)
    (hstep : d.step = bytesWord m.payload 0) (hattempt : d.attempt = byteAt m.payload 4) :
    doDecisionReq p s = t.send p ⟨t.voteHdr r e p kDecision d.step d.version, d.bytes⟩ (.fr r) := by
  simp [doDecisionReq, htake, hpass, hlength, hreserved, hrole, hheld, ← hstep, ← hattempt]

/-- Settles O39: a VOTE that is sound, a record and a malformed one, a decision by what the role's vote holds, and the limits and the
requests of a decision. -/
theorem commitVotes : Obligations.CommitVotes := by
  unfold Obligations.CommitVotes
  refine ⟨fun s d m r w hmsg hreserved hrole hpending hopen hslot hrecord => ?_,
    fun s t p m htake hpass => ⟨fun v r e hparse hrole => ?_, fun hparse => ?_⟩,
    fun s t p m d r e htake hpass hparse hrole => ⟨fun hnew hcurrent => ?_, fun x hheld hstep hattempt => ?_⟩,
    fun s r at_ hvoted hanchor hlate => ⟨rfl, rfl, ?_⟩,
    fun s r at_ a hvoted hargs hlate => ?_,
    fun s t p m r e d htake hpass hlength hreserved hrole hheld hstep hattempt => ?_⟩
  · rw [exec_voteHubop, State.voteHubop_of_sound hmsg hreserved hrole hpending hopen hslot hrecord]
  · rw [exec_vote, State.voteMsg_of_record htake hpass hparse hrole]
  · rw [exec_vote, State.voteMsg_of_malformed htake hpass hparse]
  · rw [exec_decision, State.decisionMsg_of_sound htake hpass hparse hrole, RoleVote.knows_eq_false hnew,
      RoleVote.isPast_eq_false hcurrent]
    rfl
  · rw [exec_decision, State.decisionMsg_of_sound htake hpass hparse hrole, RoleVote.knows_of_held hheld hstep hattempt]
    rfl
  · rw [exec_voteLimitExpiry, doVoteLimitExpiry_of_late hvoted hanchor hlate]
  · rw [exec_decideWaitExpiry, doDecideWaitExpiry_of_late hvoted hargs hlate]
    rfl
  · rw [exec_decisionReq, doDecisionReq_of_held htake hpass hlength hreserved hrole hheld hstep hattempt]

end Sys2Proof.Machine
end

section
/-!
SUPPORT. Copies (spec 14 R262, R263): the answer to PAIR, how a pairing ends, and where the segments of a copy go; O42
(CopiesPairAndArrive) put together from them.
-/
namespace Sys2Proof.Machine

theorem exec_pair (p : Fin 24) (s : State) : exec (.pair p) s = .next (s.after (doPair p s)) := ran_eq_next_after (doPair p) s

theorem exec_pairAck (p : Fin 24) (s : State) : exec (.pairAck p) s = .next (s.after (doPairAck p s)) :=
  ran_eq_next_after (doPairAck p) s

theorem exec_copyData (p : Fin 24) (s : State) : exec (.copyData p) s = .next (s.after (doCopyData p s)) :=
  ran_eq_next_after (doCopyData p) s

theorem exec_copyDone (p : Fin 24) (s : State) : exec (.copyDone p) s = .next (s.after (doCopyDone p s)) :=
  ran_eq_next_after (doCopyDone p) s

/-! ## Pairing (R262) -/

/-- Whether this device takes the copies that a PAIR over a port asks it to hold. -/
def State.takesCopies (s : State) (p : Fin 24) (b : List Byte) : Bool :=
  s.holdsFor p && fget holdOwner s.fr.hold == leAt b 0 4 && decide (byteAt b 5 * leAt b 8 8 ≤ s.fr.holdBytes)

theorem doPair_of_sound {s t : State} {p : Fin 24} {m : Msg} (htake : s.takeMsg p kPair = some (m, t)) (hlength : m.payload.length = 32)
    (hmid : allZero (slice m.payload 6 2) = true) (htail : allZero (m.payload.drop 16) = true) :
    doPair p s = t.sendFill p kPairAck .fill (natLe 2 (if t.takesCopies p m.payload then stOk else stNotPermitted).toNat ++
      natLe 1 t.feed ++ natLe 1 (fget holdSlots t.fr.hold) ++ natLe 8 t.fr.holdBytes ++ List.replicate 20 0) := by
  simp only [doPair, htake, hlength, hmid, htail, ne_eq, not_true_eq_false, Bool.not_true, Bool.false_eq_true, or_self, if_false]
  rfl

/-- Whether a feed may be the one that supplies this device too. -/
def State.sharesFeed (s : State) (feed : Nat) : Bool := feed == 0 || s.feed == 0 || feed == s.feed

/-- The state once its pairing has ended. -/
def State.endPairing (s : State) : State := s.modFr fun y => { y with pairing := none }

/-- The state once its pairing has ended without a buddy. -/
def State.unpaired (s : State) : State := s.endPairing.modFr fun y => { y with buddy := buddyNone }

/-- The answer that a pairing waits for ends it by its status, the feeds and the override. -/
theorem doPairAck_of_pairing {s t : State} {p : Fin 24} {m : Msg} {x : Pairing} (htake : s.takeMsg p kPairAck = some (m, t))
    (hlength : m.payload.length = 32) (htail : allZero (m.payload.drop 12) = true) (hpairing : t.fr.pairing = some x) (hport : x.port = p) :
    doPairAck p s =
      if bytesHalf m.payload 0 ≠ stOk then t.unpaired.denied x.handle dtState
      else if (t.sharesFeed (byteAt m.payload 2) && !x.override) = true then
        t.unpaired.final x.handle stSharedFeed (BitVec.ofNat 16 (byteAt m.payload 2))
      else (t.endPairing.modFr fun y => { y with
        buddy := fput buddyBuddyFeed (byteAt m.payload 2) (fput buddyState (if t.sharesFeed (byteAt m.payload 2) then 2 else 1)
          (fput buddySlots (min x.slots (byteAt m.payload 3)) y.buddy)) }).finalOkPorts x.handle [p] := by
  simp only [doPairAck, htake, hlength, htail, hpairing, hport, ne_eq, not_true_eq_false, Bool.not_true, Bool.false_eq_true, or_self,
    if_false]
  rfl

/-! ## Segments of a copy (R263) -/

/-- The class and the kind of a segment of a copy: the record, or one of the three buffers of a tensor. -/
def copyFieldsOk (b : List Byte) : Bool :=
  (byteAt b 0 == 1 && byteAt b 2 == 0) || (byteAt b 0 == 2 && decide (1 ≤ byteAt b 2) && decide (byteAt b 2 ≤ 3))

theorem copyFieldsOk_of_record {b : List Byte} (hcls : byteAt b 0 = 1) (hkind : byteAt b 2 = 0) : copyFieldsOk b = true := by
  simp [copyFieldsOk, hcls, hkind]

theorem copyFieldsOk_of_buffer {b : List Byte} (hcls : byteAt b 0 = 2) (hlo : 1 ≤ byteAt b 2) (hhi : byteAt b 2 ≤ 3) :
    copyFieldsOk b = true := by
  simp [copyFieldsOk, hcls, hlo, hhi]

/-- A segment that is well formed is refused, or goes to the copy's record or buffer, by its port and its class. -/
theorem doCopyData_of_sound {s t : State} {p : Fin 24} {m : Msg} (htake : s.takeMsg p kCopyData = some (m, t))
    (hlength : 32 ≤ m.payload.length) (hmid : allZero (slice m.payload 24 8) = true)
    (hcount : leAt m.payload 20 4 = (m.payload.drop 32).length) (hrole : byteAt m.payload 1 < 4)
    (hslot : byteAt m.payload 3 < max 1 (fget holdSlots t.fr.hold)) (hfields : copyFieldsOk m.payload = true) :
    let b := m.payload
    doCopyData p s =
      if t.holdsFor p = false then t.fillFail p stNotPermitted (byteAt b 0) (byteAt b 1) (bytesWord b 4) (bytesWord b 8)
      else if byteAt b 0 = 1 then t.copyRecord (byteAt b 3) (byteAt b 1) (bytesWord b 8) (leAt b 12 8) (b.drop 32)
      else t.copyBuffer (byteAt b 3) (byteAt b 1) (byteAt b 2) (bytesWord b 4) (bytesWord b 8) (leAt b 12 8) (b.drop 32) := by
  unfold copyFieldsOk at hfields
  simp only [doCopyData, htake, hmid, hfields, Nat.not_lt.2 hlength, Nat.not_le.2 hrole, Nat.not_le.2 hslot, hcount, ne_eq,
    not_true_eq_false, Bool.not_true, Bool.false_eq_true, or_self, if_false, Bool.not_eq_true']

/-- The segments of COPY_DONE put together with one that has come: none where one is missing. -/
def Fr.copyJoined (x : Fr) (m : Msg) : List Byte :=
  if m.hdr.offset = 0 then m.payload else if m.hdr.offset = x.copyBuf.length then x.copyBuf ++ m.payload else []

theorem doCopyDone_of_owner {s t : State} {p : Fin 24} {m : Msg} (htake : s.takeMsg p kCopyDone = some (m, t))
    (howner : t.holdsFor p = true) :
    doCopyDone p s =
      if m.hdr.flags.getLsbD hfLast then (t.modFr fun x => { x with copyBuf := [] }).copyDone p (t.fr.copyJoined m)
      else t.modFr fun x => { x with copyBuf := t.fr.copyJoined m } := by
  simp only [doCopyDone, htake, howner, Bool.not_true, Bool.false_eq_true, if_false]
  rfl

/-- Settles O42: the answer to PAIR, the end of a pairing by its answer, a segment of a copy by its port and class, and the segments of
COPY_DONE. -/
theorem copiesPairAndArrive : Obligations.CopiesPairAndArrive := by
  unfold Obligations.CopiesPairAndArrive
  refine ⟨fun s t p m htake hlength hmid htail => ?_, fun s t p m x htake hlength htail hpairing hport => ?_,
    fun s t p m htake hlength hmid hcount hrole hslot => ?_, fun s t p m htake howner => ?_⟩
  · rw [exec_pair, doPair_of_sound htake hlength hmid htail]
    rfl
  · rw [exec_pairAck, doPairAck_of_pairing htake hlength htail hpairing hport]
    refine ⟨fun hok halone => ?_, fun hok hshared hbare => ?_, fun hrefused => ?_⟩
    · have hallowed : ¬(t.sharesFeed (byteAt m.payload 2) && !x.override) = true := by
        rcases halone with hsep | hover
        · simp [State.sharesFeed, hsep]
        · simp [hover]
      rw [if_neg (not_not_intro hok), if_neg hallowed]
      rfl
    · have hbarred : (t.sharesFeed (byteAt m.payload 2) && !x.override) = true := by simp [State.sharesFeed, hshared, hbare]
      rw [if_neg (not_not_intro hok), if_pos hbarred]
      rfl
    · rw [if_pos hrefused]
      rfl
  · refine ⟨fun howner hcls hkind => ?_, fun howner hcls hlo hhi => ?_, fun hother hcls hkind => ?_⟩
    · rw [exec_copyData, doCopyData_of_sound htake hlength hmid hcount hrole hslot (copyFieldsOk_of_record hcls hkind),
        if_neg (by simp [howner]), if_pos hcls]
    · have hbuffer : byteAt m.payload 0 ≠ 1 := by rw [hcls]; decide
      rw [exec_copyData, doCopyData_of_sound htake hlength hmid hcount hrole hslot (copyFieldsOk_of_buffer hcls hlo hhi),
        if_neg (by simp [howner]), if_neg hbuffer]
    · rw [exec_copyData, doCopyData_of_sound htake hlength hmid hcount hrole hslot (copyFieldsOk_of_record hcls hkind),
        if_pos hother, hcls]
  · rw [exec_copyDone, doCopyDone_of_owner htake howner]
    rfl

end Sys2Proof.Machine
end

section
/-!
SUPPORT. Fills (spec 14 R270 to R275): the requests that a source queues and serves, and what a reply, a failure and the fill limit do to
the promotion that waits; O43 (FillsServeAndArrive) put together from them.
-/
namespace Sys2Proof.Machine

theorem exec_fillReq (p : Fin 24) (s : State) : exec (.fillReq p) s = .next (s.after (doFillReq p s)) :=
  ran_eq_next_after (doFillReq p) s

theorem exec_digestReq (p : Fin 24) (s : State) : exec (.digestReq p) s = .next (s.after (doDigestReq p s)) :=
  ran_eq_next_after (doDigestReq p) s

theorem exec_fillData (p : Fin 24) (s : State) : exec (.fillData p) s = .next (s.after (doFillData p s)) :=
  ran_eq_next_after (doFillData p) s

theorem exec_fillFail (p : Fin 24) (s : State) : exec (.fillFail p) s = .next (s.after (doFillFail p s)) :=
  ran_eq_next_after (doFillFail p) s

theorem exec_fillLimitExpiry (s : State) : exec .fillLimitExpiry s = .next (s.after (doFillLimitExpiry s)) :=
  ran_eq_next_after doFillLimitExpiry s

theorem exec_digestData (p : Fin 24) (s : State) : exec (.digestData p) s = .next (s.after (doDigestData p s)) :=
  ran_eq_next_after (doDigestData p) s

/-! ## Requests (R271, R272) -/

/-- The kind of a request fits its class: a buffer has one of three kinds, everything else has none. -/
def fillKindOk (b : List Byte) : Bool :=
  if fqCls b = fillBuffer then decide (1 ≤ fqKind b) && decide (fqKind b ≤ 3) else fqKind b == 0

theorem fillKindOk_iff (b : List Byte) :
    fillKindOk b = true ↔
      (fqCls b = fillBuffer ∧ 1 ≤ fqKind b ∧ fqKind b ≤ 3) ∨ (fqCls b ≠ fillBuffer ∧ fqKind b = 0) := by
  unfold fillKindOk
  by_cases hcls : fqCls b = fillBuffer <;> simp [hcls]

theorem doFillReq_of_sound {s t : State} {p : Fin 24} {m : Msg} (htake : s.takeMsg p kFillReq = some (m, t))
    (hlength : m.payload.length = 32) (hzero : byteAt m.payload 3 = 0) (htail : allZero (m.payload.drop 28) = true)
    (hlo : 1 ≤ fqCls m.payload) (hhi : fqCls m.payload ≤ 5) (hrole : fqRole m.payload ≤ 3) (hkind : fillKindOk m.payload = true) :
    doFillReq p s = (t.modFr fun x => { x with fillQueue := x.fillQueue ++ [⟨p, m.payload⟩] }).serveNext (t.fr.fillQueue.length + 1) := by
  unfold fillKindOk at hkind
  simp only [doFillReq, htake, hlength, hzero, htail, Nat.one_le_iff_ne_zero.1 hlo, Nat.not_lt.2 hhi, Nat.not_lt.2 hrole, hkind, ne_eq,
    not_true_eq_false, Bool.not_true, Bool.false_eq_true, or_self, if_false]

theorem doDigestReq_of_sound {s t : State} {p : Fin 24} {m : Msg} (htake : s.takeMsg p kDigestReq = some (m, t))
    (hlength : m.payload.length = 32) (hroles : byteAt m.payload 4 < 16) (htail : allZero (m.payload.drop 5) = true) :
    doDigestReq p s = (t.modFr fun x => { x with digestQueue := x.digestQueue ++ [⟨p, m.payload⟩] }).answerDigests := by
  simp only [doDigestReq, htake, hlength, Nat.not_le.2 hroles, htail, ne_eq, not_true_eq_false, Bool.not_true, Bool.false_eq_true,
    or_self, if_false]

/-! ## Segments of FILL_DATA (R271) -/

section
variable {s t : State} {p : Fin 24} {m : Msg} {x : Promotion} (htake : s.takeMsg p kFillData = some (m, t))
  (hlength : 32 ≤ m.payload.length) (hmid : allZero (slice m.payload 24 8) = true) (hzero : byteAt m.payload 3 = 0)
  (hcount : leAt m.payload 20 4 = (m.payload.drop 32).length) (hpromotion : t.fr.promotion = some x) (hport : x.onPort p = true)
include htake hlength hmid hzero hcount hpromotion hport

theorem doFillData_of_record_part (hwait : x.wait = .record) (hcls : fqCls m.payload = fillRecord)
    (hnext : leAt m.payload 12 8 = x.record.length) (hmore : m.hdr.flags.getLsbD hfLast = false) :
    doFillData p s = t.modPromo fun y => { y with
      record := x.record ++ m.payload.drop 32, heard := true, since := t.aon, bytes := y.bytes + (m.payload.drop 32).length } := by
  simp only [doFillData, htake, Nat.not_lt.2 hlength, hmid, hzero, hcount, hpromotion, hport, hwait, hcls, hnext, hmore, ne_eq,
    not_true_eq_false, Bool.not_true, Bool.not_false, Bool.false_eq_true, or_self, if_false, if_true]

/-- A segment of the range under way, in order, turns on whether it lies within the range and brings something. -/
theorem doFillData_of_range {f : FillRange} {rest : List FillRange} (hwait : x.wait = .range) (htodo : x.todo = f :: rest)
    (hcls : fqCls m.payload = f.cls) (hkind : fqKind m.payload = f.kind) (hid : fqId m.payload = f.id)
    (hnext : leAt m.payload 12 8 = x.offset) :
    doFillData p s =
      if f.bytes < x.offset + (m.payload.drop 32).length ∨ ((m.payload.drop 32).isEmpty = true ∧ x.offset < f.bytes) then t.sourceFailed
      else t.fillRangeBytes x f x.offset (m.payload.drop 32) := by
  simp only [doFillData, htake, Nat.not_lt.2 hlength, hmid, hzero, hcount, hpromotion, hport, hwait, htodo, hcls, hkind, hid, hnext, ne_eq,
    not_true_eq_false, Bool.not_true, Bool.false_eq_true, or_self, if_false]

end

/-! ## Failures and the fill limit (R271, R275) -/

theorem doFillFail_of_source {s t : State} {p : Fin 24} {m : Msg} {x : Promotion} (htake : s.takeMsg p kFillFail = some (m, t))
    (hlength : m.payload.length = 32) (htail : allZero (m.payload.drop 12) = true) (hpromotion : t.fr.promotion = some x)
    (hwaits : x.wait ≠ .idle) (hport : x.onPort p = true) : doFillFail p s = t.sourceFailed := by
  simp only [doFillFail, htake, hlength, htail, hpromotion, bne_iff_ne.2 hwaits, hport, ne_eq, not_true_eq_false, Bool.not_true,
    Bool.false_eq_true, or_self, Bool.and_self, if_false, if_true]

theorem doFillLimitExpiry_of_late {s : State} {x : Promotion} (hpromotion : s.fr.promotion = some x) (hwaits : x.wait ≠ .idle)
    (hlate : x.since + 2 ^ 14 * max 1 (fget frCfgFillLimit s.fr.cfg) ≤ s.aon) : doFillLimitExpiry s = s.sourceFailed := by
  simp only [doFillLimitExpiry, hpromotion, beq_eq_false_iff_ne.2 hwaits, decide_eq_false (not_lt_frTicks hlate), Bool.or_self,
    Bool.false_eq_true, if_false]

/-! ## Digests (R270) -/

/-- A replica's sections show another version than the promotion is to restore. -/
def Promotion.differs (x : Promotion) (l : List Located) : Bool := x.version != noPos && l.any fun y => y.committed != x.version

theorem doDigestData_of_last {s t : State} {p : Fin 24} {m : Msg} {x : Promotion} {all : List Byte} {l : List Located}
    (htake : s.takeMsg p kDigestData = some (m, t)) (hwaits : t.fillFrom p .digests = some x) (hjoined : joined x.inbuf m = some all)
    (hlast : m.hdr.flags.getLsbD hfLast = true) (hparse : parseDigestData all = some l) (hsome : l ≠ []) :
    doDigestData p s = (t.modPromo fun x => { x with inbuf := all, heard := true, since := t.aon }).modPromo fun y => { y with
      located := if x.differs l then [] else l, fromCopy := x.differs l, wait := .idle, inbuf := [] } := by
  simp only [doDigestData, htake, hwaits, hjoined, hlast, hparse, List.isEmpty_eq_false_iff.2 hsome, Bool.not_true, Bool.false_eq_true,
    if_false]
  rfl

/-- Settles O43: the two kinds of request, a segment of the record and one of a range by where it ends, a failure, the fill limit, and the
last segment of the digests. -/
theorem fillsServeAndArrive : Obligations.FillsServeAndArrive := by
  unfold Obligations.FillsServeAndArrive
  refine ⟨fun s t p m htake hlength hzero htail hlo hhi hrole hkind => ?_, fun s t p m htake hlength hroles htail => ?_,
    fun s t p m x htake hlength hmid hzero hcount hpromotion hport => ⟨fun hwait hcls hnext hmore => ?_,
      fun f rest hwait htodo hcls hkind hid hnext => ⟨fun hwithin hsome => ?_, fun hbeyond => ?_⟩⟩,
    fun s t p m x htake hlength htail hpromotion hwaits hport => ?_, fun s x hpromotion hwaits hlate => ?_,
    fun s t p m x all l htake hwaits hjoined hlast hparse hsome => ?_⟩
  · rw [exec_fillReq, doFillReq_of_sound htake hlength hzero htail hlo hhi hrole ((fillKindOk_iff _).2 hkind)]
  · rw [exec_digestReq, doDigestReq_of_sound htake hlength hroles htail]
  · rw [exec_fillData, doFillData_of_record_part htake hlength hmid hzero hcount hpromotion hport hwait hcls hnext hmore]
  · have hfits : ¬(f.bytes < x.offset + (m.payload.drop 32).length ∨ ((m.payload.drop 32).isEmpty = true ∧ x.offset < f.bytes)) := by
      rintro (hover | ⟨hempty, -⟩)
      · exact Nat.not_lt.2 hwithin hover
      · exact hsome (List.isEmpty_iff.1 hempty)
    rw [exec_fillData, doFillData_of_range htake hlength hmid hzero hcount hpromotion hport hwait htodo hcls hkind hid hnext, if_neg hfits]
  · rw [exec_fillData, doFillData_of_range htake hlength hmid hzero hcount hpromotion hport hwait htodo hcls hkind hid hnext,
      if_pos (.inl hbeyond)]
  · rw [exec_fillFail, doFillFail_of_source htake hlength htail hpromotion hwaits hport]
  · rw [exec_fillLimitExpiry, doFillLimitExpiry_of_late hpromotion hwaits hlate]
  · rw [exec_digestData, doDigestData_of_last htake hwaits hjoined hlast hparse hsome]
    rfl

end Sys2Proof.Machine
end

section
/-!
SUPPORT. The register map of BAR0 (spec 21 Tables 21-1 and 21-2): where a part of the map answers and with what, and O60
(RegisterMapIsExact) put together from it.
-/
namespace Sys2Proof.Machine

theorem fin?_val {n : Nat} (k : Fin n) : fin? n k.1 = some k := dif_pos k.2

theorem val_of_fin? {n i : Nat} {k : Fin n} (h : fin? n i = some k) : i = k.1 := by
  unfold fin? at h
  split at h
  · rw [← Option.some.inj h]
  · cases h

/-! ## Every byte of a slot is mapped -/

section
variable {α : Type} {n base step size o i : Nat}

theorem oneAt_add (r : α) (hi : i < 8) : oneAt base (base + i) r = some (r, i) := by
  rw [oneAt, if_pos (by omega), Nat.add_sub_cancel_left]

theorem oneAt_of_ge (r : α) (h : base + 8 ≤ o) : oneAt base o r = none := if_neg (by omega)

theorem arrAt_add (k : Fin n) (hsize : i < size) (hstep : i < step) : arrAt n base step size (base + (step * k.1 + i)) = some (k, i) := by
  have hmod : (step * k.1 + i) % step = i := by rw [Nat.mul_add_mod, Nat.mod_eq_of_lt hstep]
  have hdiv : (step * k.1 + i) / step = k.1 := by
    rw [Nat.mul_add_div (by omega), Nat.div_eq_of_lt hstep, Nat.add_zero]
  rw [arrAt, Nat.add_sub_cancel_left, hmod, hdiv, if_pos ⟨by omega, hsize⟩, fin?_val]
  rfl

theorem arrAt_of_ge (hstep : 0 < step) (h : base + step * n ≤ o) : arrAt n base step size o = none := by
  have hidx : n ≤ (o - base) / step := by
    rw [Nat.le_div_iff_mul_le hstep, Nat.mul_comm]
    omega
  simp [arrAt, fin?, Nat.not_lt.2 hidx]

end

/-- The offset within a block of 64 KiB that a register's place and a byte of its slot make. -/
theorem add_mod_block {c x : Nat} (h : c % 0x10000 + x < 0x10000) : (c + x) % 0x10000 = c % 0x10000 + x := by omega

theorem add_div_block {c x : Nat} (h : c % 0x10000 + x < 0x10000) : (c + x) / 0x10000 = c / 0x10000 := by omega

theorem DieReg.off_lt (r : DieReg) : r.off < 0x4008 := by
  cases r <;> simp only [DieReg.off] <;> omega

theorem dieRegAt_off (r : DieReg) {i : Nat} (hi : i < 8) : dieRegAt (r.off + i) = some (r, i) := by
  cases r <;>
    simp (disch := omega) only [DieReg.off, dieRegAt, arr8, arrAt_of_ge, arrAt_add, oneAt_of_ge, oneAt_add, Nat.add_assoc,
      Option.orElse_some, Option.orElse_none, Option.map_none, Option.map_some]

/-- The block of 64 KiB of the hub in which a register stands (Table 21-1). -/
def Reg.hubBlock : Reg → Option Nat
  | .devId => some 0
  | .sampled => some 1
  | .sqBase _ | .cqBase _ | .sqCfg _ | .cqCfg _ | .sqSeq _ | .ringErr | .memErr => some 2
  | .clkFault | .pwcMode | .power | .dvfs _ | .thermCfg | .thermStatus | .watchCfg | .lastWake | .padHold => some 3
  | .secStatus | .tamper => some 4
  | .ldgStart | .ldgCtrl | .ldgStep _ => some 5
  | .marbStatus | .wdog | .dietest => some 6
  | .timeAon | .snapCfg => some 7
  | .identity | .role _ | .grpStatus _ => some 8
  | .sleUp _ | .sleDown _ | .spbuf _ => some 9
  | .roleCfg _ | .fpay _ | .bpay _ | .stashCfg _ | .stashUse _ | .stashMb _ | .stepStat _ | .stashArea _ | .mbqBase => some 10
  | .wvtCfg | .roleRange _ | .buddy | .hold | .copy _ | .decision _ | .frCfg => some 11
  | .tlyCfg | .staging | .tlyStat | .tlyCheck => some 12
  | .hubEcc | .hubUe | .hubRepair => some 13
  | _ => none

theorem regAt_addr_of_hub {r : Reg} {blk i : Nat} (hblk : r.hubBlock = some blk) (hi : i < max 8 r.bytes) :
    regAt (r.addr + i) = some (r, i) := by
  have hhub : r.addr + i < 0x100000 := by
    cases r <;> cases hblk <;> simp only [Reg.addr, Reg.bytes] at * <;> omega
  rw [regAt, if_pos hhub]
  cases r <;> cases hblk <;> simp only [Reg.bytes] at hi <;>
    simp (disch := omega) only [Reg.addr, hubRegAt, Nat.add_assoc, add_mod_block, add_div_block, Nat.reduceMod, Nat.reduceDiv, arr8,
      arrAt_of_ge, arrAt_add, oneAt_of_ge, oneAt_add, Option.orElse_some, Option.orElse_none, Option.map_none, Option.map_some]

theorem regAt_port (p : Fin 24) {c i : Nat} (hc : 0x400000 ≤ c) (hi : c - 0x400000 + i < 0x10000) :
    regAt (c + 0x10000 * p.1 + i) = portRegAt p (c - 0x400000 + i) := by
  have hp : (c + 0x10000 * p.1 + i - 0x400000) / 0x10000 = p.1 := by omega
  have hmod : (c + 0x10000 * p.1 + i) % 0x10000 = c - 0x400000 + i := by omega
  rw [regAt, if_neg (by omega), if_neg (by omega), if_neg (by omega), if_pos (by omega), hp, fin?_val, hmod,
    Option.bind_some]

theorem regAt_die (d : Fin 4) {o : Nat} (ho : o < 0x200000) :
    regAt (0x1000000 + (0x200000 * d.1 + o)) = (dieRegAt o).map fun x => (.die d x.1, x.2) := by
  have hd : (0x200000 * d.1 + o) / 0x200000 = d.1 := by omega
  have hmod : (0x1000000 + (0x200000 * d.1 + o)) % 0x200000 = o := by omega
  rw [regAt, if_neg (by omega), if_neg (by omega), if_neg (by omega), if_neg (by omega), if_pos (by omega), Nat.add_sub_cancel_left, hd,
    fin?_val, hmod]
  rfl

/-- A bundle has a slot for each of its three registers, one after another (Table 21-2). -/
theorem regAt_bundle (b : Fin 80) {c i : Nat} (hc : 0x100000 ≤ c) (hi : c - 0x100000 + i < 32) :
    regAt (c + 32 * b.1 + i) = ((oneAt 0 (c - 0x100000 + i) (Reg.bundleStatus b)).orElse fun _ =>
      (oneAt 8 (c - 0x100000 + i) (.laneMap b)).orElse fun _ => oneAt 16 (c - 0x100000 + i) (.bundleErr b)) := by
  obtain ⟨j, k, hk, hj, hjk⟩ : ∃ j k, k < 8 ∧ j < 4 ∧ c - 0x100000 + i = 8 * j + k :=
    ⟨(c - 0x100000 + i) / 8, (c - 0x100000 + i) % 8, by omega, by omega, by omega⟩
  have hoff : c + 32 * b.1 + i - 0x100000 = 32 * b.1 + (8 * j + k) := by omega
  have hb : (32 * b.1 + (8 * j + k)) / 32 = b.1 := by omega
  have hreg : (32 * b.1 + (8 * j + k)) % 32 / 8 = j := by omega
  have hbyte : (32 * b.1 + (8 * j + k)) % 8 = k := by omega
  rw [regAt, if_neg (by omega), if_pos (by omega), hoff, fabRegAt, if_pos (by omega), hb, fin?_val, Option.bind_some, hreg, hbyte, hjk]
  interval_cases j <;>
    simp (disch := omega) only [Nat.reduceMul, oneAt_add, oneAt_of_ge, Option.orElse_some, Option.orElse_none]

theorem regAt_fabTail {c x : Nat} (hc : 0x101000 ≤ c) (hx : c - 0x100000 + x < 0x100000) :
    regAt (c + x) = ((arr8 4 0x1000 (c - 0x100000 + x) .dieState).orElse fun _ => oneAt 0x1020 (c - 0x100000 + x) .castleCfg) := by
  rw [regAt, if_neg (by omega), if_pos (by omega), Nat.sub_add_comm (by omega), fabRegAt, if_neg (by omega)]

theorem regAt_stack (k : Fin 8) {c i : Nat} (hc : 0x200000 ≤ c) (hi : c - 0x200000 + i < 0x1000) :
    regAt (c + 0x1000 * k.1 + i) = ((oneAt 0 (c - 0x200000 + i) (Reg.stkStatus k)).orElse fun _ =>
      (oneAt 8 (c - 0x200000 + i) (.stkCfg k)).orElse fun _ => (oneAt 0x10 (c - 0x200000 + i) (.stkScrub k)).orElse fun _ =>
      (oneAt 0x18 (c - 0x200000 + i) (.stkEcc k)).orElse fun _ => oneAt 0x20 (c - 0x200000 + i) (.stkUe k)) := by
  have hk : (c + 0x1000 * k.1 + i - 0x200000) / 0x1000 = k.1 := by omega
  have hmod : (c + 0x1000 * k.1 + i - 0x200000) % 0x1000 = c - 0x200000 + i := by omega
  rw [regAt, if_neg (by omega), if_neg (by omega), if_pos (by omega), stkRegAt, hk, fin?_val, hmod]

theorem regAt_stkTail {c x : Nat} (hc : 0x208000 ≤ c) (hx : c - 0x200000 + x < 0x200000) :
    regAt (c + x) = arr8 8 0x8000 (c - 0x200000 + x) .regionMode := by
  have hk : fin? 8 ((c - 0x200000 + x) / 0x1000) = none := dif_neg (by omega)
  rw [regAt, if_neg (by omega), if_neg (by omega), if_pos (by omega), Nat.sub_add_comm (by omega), stkRegAt, hk]

theorem regAt_addr {r : Reg} {i : Nat} (hi : i < max 8 r.bytes) : regAt (r.addr + i) = some (r, i) := by
  cases r with
  | bundleStatus b | laneMap b | bundleErr b =>
    simp only [Reg.bytes] at hi
    simp (disch := omega) only [Reg.addr, regAt_bundle, Nat.reduceSub, oneAt_add, oneAt_of_ge, Option.orElse_some, Option.orElse_none]
  | dieState d | castleCfg =>
    simp only [Reg.bytes] at hi
    simp (disch := omega) only [Reg.addr, Nat.add_assoc, regAt_fabTail, Nat.reduceSub, arr8, oneAt_add, arrAt_add, arrAt_of_ge,
      Option.orElse_some, Option.orElse_none, Option.map_some, Option.map_none]
  | stkStatus k | stkCfg k | stkScrub k | stkEcc k | stkUe k =>
    simp only [Reg.bytes] at hi
    simp (disch := omega) only [Reg.addr, regAt_stack, Nat.reduceSub, oneAt_add, oneAt_of_ge, Option.orElse_some, Option.orElse_none]
  | regionMode n =>
    simp only [Reg.bytes] at hi
    simp (disch := omega) only [Reg.addr, Nat.add_assoc, regAt_stkTail, Nat.reduceSub, arr8, arrAt_add, Option.map_some]
  | portCfg p | portStatus p | portPartner p | vcWeight p | vlogStat p | linkErr p =>
    simp only [Reg.bytes] at hi
    simp (disch := omega) only [Reg.addr, regAt_port, portRegAt, Nat.reduceSub, oneAt_add, oneAt_of_ge, Option.orElse_some,
      Option.orElse_none]
  | vcount p c =>
    have hoff : 0x400088 + 8 * c.1 - 0x400000 + i = 0x88 + (8 * c.1 + i) := by omega
    simp only [Reg.bytes] at hi
    rw [Reg.addr, regAt_port p (by omega) (by omega), hoff]
    simp (disch := omega) only [portRegAt, arr8, arrAt_add, oneAt_of_ge, Option.orElse_some, Option.orElse_none, Option.map_some]
  | vlog p j =>
    have hoff : 0x400800 + 32 * j.1 - 0x400000 + i = 0x800 + (32 * j.1 + i) := by omega
    simp only [Reg.bytes] at hi
    rw [Reg.addr, regAt_port p (by omega) (by omega), hoff]
    simp (disch := omega) only [portRegAt, arr8, arrAt_add, arrAt_of_ge, oneAt_of_ge, Option.orElse_none, Option.map_some,
      Option.map_none]
  | die d r =>
    have hi : i < 8 := by cases r <;> simpa [Reg.bytes, DieReg.bytes] using hi
    have hoff := r.off_lt
    rw [Reg.addr, Nat.add_assoc, Nat.add_assoc, regAt_die d (by omega), dieRegAt_off r hi]
    rfl
  | _ => exact regAt_addr_of_hub rfl hi

/-! ## Every answer lies in a slot -/

/-- An answer of a part of the map, at offset `o` of a block that begins at `base`, lies in the slot of the register it names. -/
def AnswersIn {α : Type} (place width : α → Nat) (base o : Nat) (m : Option (α × Nat)) : Prop :=
  ∀ r i, m = some (r, i) → base + o = place r + i ∧ i < width r

section
variable {α : Type} {place width : α → Nat} {base o : Nat}

theorem AnswersIn.none : AnswersIn place width base o none := fun _ _ h => by cases h

theorem AnswersIn.orElse {m : Option (α × Nat)} {f : Unit → Option (α × Nat)} (hm : AnswersIn place width base o m)
    (hf : AnswersIn place width base o (f ())) : AnswersIn place width base o (m.orElse f) := by
  cases m with
  | none => exact hf
  | some x => exact hm

/-- A single register is an array of one. -/
theorem oneAt_eq_map_arrAt (b : Nat) (r : α) : oneAt b o r = (arrAt 1 b 8 8 o).map fun x => (r, x.2) := by
  by_cases hlo : b ≤ o
  · obtain ⟨i, rfl⟩ := Nat.exists_eq_add_of_le hlo
    by_cases hhi : i < 8
    · have harr : arrAt 1 b 8 8 (b + i) = some (0, i) := by simpa using arrAt_add (base := b) (0 : Fin 1) hhi hhi
      rw [oneAt_add r hhi, harr]
      rfl
    · rw [oneAt_of_ge r (by omega), arrAt_of_ge (by decide) (by omega)]
      rfl
  · rw [oneAt, if_neg fun h => hlo h.1, arrAt, if_neg fun h => hlo h.1]
    rfl

theorem answersIn_arrAt {n b step size : Nat} {g : Fin n × Nat → α × Nat}
    (hg : ∀ x, (g x).2 = x.2 ∧ place (g x).1 = base + (b + step * x.1.1) ∧ size ≤ width (g x).1) :
    AnswersIn place width base o ((arrAt n b step size o).map g) := by
  intro r i h
  rw [arrAt] at h
  split at h
  next hin =>
    obtain ⟨hlo, hsize⟩ := hin
    rw [Option.map_map] at h
    obtain ⟨k, hk, hgk⟩ := Option.map_eq_some_iff.1 h
    obtain ⟨hbyte, hplace, hwidth⟩ := hg (k, (o - b) % step)
    have hdiv := Nat.div_add_mod (o - b) step
    rw [val_of_fin? hk] at hdiv
    rw [Function.comp_apply] at hgk
    simp only [hgk] at hbyte hplace hwidth
    exact ⟨by omega, by omega⟩
  next => cases h

end

theorem answersIn_dieRegAt (o : Nat) : AnswersIn DieReg.off (fun _ => 8) 0 o (dieRegAt o) := by
  simp only [dieRegAt, arr8, oneAt_eq_map_arrAt]
  repeat' apply AnswersIn.orElse
  all_goals
    refine answersIn_arrAt fun x => ⟨rfl, ?_, Nat.le_refl 8⟩
    simp only [DieReg.off]
    omega

/-- The width of a register's slot. -/
def Reg.slot (r : Reg) : Nat := max 8 r.bytes

theorem Reg.le_slot (r : Reg) : 8 ≤ r.slot := Nat.le_max_left _ _

theorem answersIn_hubRegAt (blk o : Nat) : AnswersIn Reg.addr Reg.slot (0x10000 * blk) o (hubRegAt blk o) := by
  simp only [hubRegAt, arr8, oneAt_eq_map_arrAt]
  split
  case h_15 => exact AnswersIn.none
  all_goals
    repeat' apply AnswersIn.orElse
    all_goals
      refine answersIn_arrAt fun x => ⟨rfl, ?_, ?_⟩ <;> simp only [Reg.addr, Reg.slot, Reg.bytes] <;> omega

theorem answersIn_fabRegAt (o : Nat) : AnswersIn Reg.addr Reg.slot 0x100000 o (fabRegAt o) := by
  unfold fabRegAt
  split
  · cases hb : fin? 80 (o / 32) with
    | none => exact AnswersIn.none
    | some b =>
      have hbundle := val_of_fin? hb
      intro r i h
      rw [Option.bind_some] at h
      split at h <;> cases h <;> simp only [Reg.addr, Reg.slot, Reg.bytes] <;> omega
  · simp only [arr8, oneAt_eq_map_arrAt]
    apply AnswersIn.orElse
    all_goals
      refine answersIn_arrAt fun x => ⟨rfl, ?_, ?_⟩ <;> simp only [Reg.addr, Reg.slot, Reg.bytes] <;> omega

theorem answersIn_stack (k : Fin 8) (o : Nat) : AnswersIn Reg.addr Reg.slot (0x200000 + 0x1000 * k.1) o
    ((oneAt 0 o (Reg.stkStatus k)).orElse fun _ => (oneAt 8 o (.stkCfg k)).orElse fun _ => (oneAt 0x10 o (.stkScrub k)).orElse fun _ =>
      (oneAt 0x18 o (.stkEcc k)).orElse fun _ => oneAt 0x20 o (.stkUe k)) := by
  simp only [oneAt_eq_map_arrAt]
  repeat' apply AnswersIn.orElse
  all_goals
    refine answersIn_arrAt fun x => ⟨rfl, ?_, ?_⟩ <;> simp only [Reg.addr, Reg.slot, Reg.bytes] <;> omega

theorem answersIn_stkRegAt (o : Nat) : AnswersIn Reg.addr Reg.slot 0x200000 o (stkRegAt o) := by
  unfold stkRegAt
  split
  · refine answersIn_arrAt fun x => ⟨rfl, ?_, ?_⟩ <;> simp only [Reg.addr, Reg.slot, Reg.bytes] <;> omega
  next k hk =>
    have hstack := val_of_fin? hk
    intro r i h
    obtain ⟨haddr, hslot⟩ := answersIn_stack k (o % 0x1000) r i h
    exact ⟨by omega, hslot⟩

theorem answersIn_portRegAt (p : Fin 24) (o : Nat) : AnswersIn Reg.addr Reg.slot (0x400000 + 0x10000 * p.1) o (portRegAt p o) := by
  simp only [portRegAt, arr8, oneAt_eq_map_arrAt]
  repeat' apply AnswersIn.orElse
  all_goals
    refine answersIn_arrAt fun x => ⟨rfl, ?_, ?_⟩ <;> simp only [Reg.addr, Reg.slot, Reg.bytes] <;> omega

/-- The map answers an offset by a register whose slot holds it (Table 21-1: the blocks one after another). -/
theorem slot_of_regAt {off i : Nat} {r : Reg} (h : regAt off = some (r, i)) : off = r.addr + i ∧ i < r.slot := by
  unfold regAt at h
  split at h
  · obtain ⟨haddr, hslot⟩ := answersIn_hubRegAt _ _ r i h
    exact ⟨by omega, hslot⟩
  split at h
  · obtain ⟨haddr, hslot⟩ := answersIn_fabRegAt _ r i h
    exact ⟨by omega, hslot⟩
  split at h
  · obtain ⟨haddr, hslot⟩ := answersIn_stkRegAt _ r i h
    exact ⟨by omega, hslot⟩
  split at h
  · obtain ⟨p, hp, hreg⟩ := Option.bind_eq_some_iff.1 h
    have hport := val_of_fin? hp
    obtain ⟨haddr, hslot⟩ := answersIn_portRegAt p _ r i hreg
    exact ⟨by omega, hslot⟩
  split at h
  · obtain ⟨d, hd, hreg⟩ := Option.bind_eq_some_iff.1 h
    obtain ⟨⟨x, j⟩, hx, hpair⟩ := Option.map_eq_some_iff.1 hreg
    cases hpair
    have hdie := val_of_fin? hd
    obtain ⟨haddr, hslot⟩ := answersIn_dieRegAt _ x j hx
    exact ⟨by simp only [Reg.addr]; omega, hslot.trans_le (Reg.die d x).le_slot⟩
  · cases h

/-- Settles O60: a byte of a slot by the block of its register, an answer by the part of the map that gives it. -/
theorem registerMapIsExact : Obligations.RegisterMapIsExact := by
  unfold Obligations.RegisterMapIsExact
  exact ⟨fun r i hi => regAt_addr hi, fun off r i h => slot_of_regAt h⟩

end Sys2Proof.Machine
end

section
/-!
SUPPORT. Steps that run the queue (spec 95; spec 20 R338): which commands answer a next state, what every command leaves alone, and
O1 (StepRunsFrontCommand), O3 (CommandsKeepQueueAndClock) and O4 (QueueDrainsInOrder) put together from them.
-/
namespace Sys2Proof.Machine

/-- Settles O1: the two cases of a step. -/
theorem stepRunsFrontCommand : Obligations.StepRunsFrontCommand := by
  unfold Obligations.StepRunsFrontCommand
  exact fun c rest s => rfl

/-- Every command but a debug request ends by bringing its own effect up to date. -/
theorem exec_answers {c : Instr} (s : State) (hdebug : isDebug c = false) : ∃ t, exec c s = .next t := by
  cases c with
  | mpDebugRequest r => cases hdebug
  | _ => exact ⟨_, rfl⟩

theorem exec_keeps_queue_and_clock {c : Instr} {s t : State} (h : exec c s = .next t) : t.pending = s.pending ∧ t.aon = s.aon := by
  obtain ⟨e, he⟩ := exec_next h
  rw [he]
  unfold State.afterStill
  exact ⟨rfl, rfl⟩

/-- Settles O3: only a debug request can answer otherwise, and every command ends by setting the queue and the clock it was given. -/
theorem commandsKeepQueueAndClock : Obligations.CommandsKeepQueueAndClock := by
  unfold Obligations.CommandsKeepQueueAndClock
  exact ⟨fun c s hdebug => exec_answers s hdebug, fun c s t h => exec_keeps_queue_and_clock h⟩

/-- A step on a queue whose front is no debug request takes that command off the queue and nothing else of it. -/
theorem step_of_front {s : State} {c : Instr} {rest : List Instr} (hqueue : s.pending = c :: rest) (hdebug : isDebug c = false) :
    ∃ t, step s = .next t ∧ t.pending = rest ∧ t.aon = s.aon := by
  obtain ⟨t, ht⟩ := exec_answers { s with pending := rest } hdebug
  obtain ⟨hpending, haon⟩ := exec_keeps_queue_and_clock ht
  refine ⟨t, ?_, hpending, haon⟩
  rw [step, hqueue, ← ht]

/-- As many steps as there are commands in the queue empty it. -/
theorem run_drains (l : List Instr) (s : State) (hqueue : s.pending = l) (hdebug : (l.all fun c => !isDebug c) = true) :
    ∃ t, Host.Core.run Sys2Proof.core l.length s = .next t ∧ t.pending = [] ∧ t.aon = s.aon := by
  induction l generalizing s with
  | nil => exact ⟨s, rfl, hqueue, rfl⟩
  | cons c rest ih =>
    obtain ⟨hfront, hrest⟩ := by simpa using hdebug
    obtain ⟨u, hstep, hpending, haon⟩ := step_of_front hqueue hfront
    obtain ⟨t, hrun, hempty, hclock⟩ := ih u hpending (by simpa using hrest)
    refine ⟨t, ?_, hempty, hclock.trans haon⟩
    have hcore : Host.Core.step Sys2Proof.core s = .next u := hstep
    simp only [List.length_cons, Host.Core.run, hcore]
    exact hrun

/-- Settles O4, by induction on the queue. -/
theorem queueDrainsInOrder : Obligations.QueueDrainsInOrder := by
  unfold Obligations.QueueDrainsInOrder
  exact fun s hdebug => run_drains s.pending s rfl hdebug

end Sys2Proof.Machine
end

section
/-!
SUPPORT. The host's CXL.mem accesses (spec 15 R279, R280; spec 07 R137, R141): one equation for each place that an HDM offset leads to,
and O24 (HostMemoryAccesses) put together from them.
-/
namespace Sys2Proof.Machine

/-! ## Each command runs its own effect -/

theorem exec_hostMemRead (a n busy : Nat) (own : Bool) (u : List Upset) (s : State) :
    exec (.hostMemRead a n busy own u) s = .next (s.after (doHostMemRead a n busy own u s)) :=
  ran_eq_next_after (doHostMemRead a n busy own u) s

theorem exec_hostMemWrite (a : Nat) (bs : List Byte) (busy : Bool) (u : List Upset) (s : State) :
    exec (.hostMemWrite a bs busy u) s = .next (s.after (doHostMemWrite a bs busy u s)) :=
  ran_eq_next_after (doHostMemWrite a bs busy u) s

theorem exec_backInvalidateResponse (h : Nat) (dirty : HostData) (s : State) :
    exec (.backInvalidateResponse h dirty) s = .next (s.after (doBackInvalidateResponse h dirty s)) :=
  ran_eq_next_after (doBackInvalidateResponse h dirty) s

theorem exec_h2dSnoop (l : Nat) (s : State) : exec (.h2dSnoop l) s = .next (s.afterStill (doSnoop l s)) :=
  ranStill_eq_next_afterStill (doSnoop l) s

/-! ## Reads (R279) -/

section
variable {s : State} {a n busy : Nat} {own : Bool} {u : List Upset} (hup : s.host.linkUp = true)
include hup

theorem doHostMemRead_of_hole (hplace : hdmOf a = .nothing) :
    doHostMemRead a n busy own u s = s.hostReturn a (List.replicate n 0) false := by
  simp only [doHostMemRead, hup, hplace, Bool.not_true, Bool.false_eq_true, if_false]

theorem doHostMemRead_of_twin {d : Fin 4} {sel off : Nat} (hplace : hdmOf a = .twin d sel off) :
    doHostMemRead a n busy own u s = (s.upset u).hostTwinRead a d sel off n busy := by
  simp only [doHostMemRead, hup, hplace, Bool.not_true, Bool.false_eq_true, if_false]

variable (hplace : hdmOf a = .dev)
  (hclear : (s.fab.pendingWrites.any fun w => lineOf a ≤ w.line && w.line ≤ lineOf (a + n - 1)) = false)
  (hroom : s.fab.hostFilter.length < hostFilterSize)
include hplace hclear hroom

theorem doHostMemRead_of_dev :
    doHostMemRead a n busy own u s =
      let r := (s.upset u).readDev a n
      let bad := r.2.bad || r.2.fail.isSome
      (if bad then r.1 else r.1.grantHost a n own).hostReturn a r.2.data bad := by
  simp only [doHostMemRead, hup, hplace, hclear, Nat.not_le.2 hroom, Bool.not_true, Bool.false_eq_true, if_false]

theorem doHostMemRead_of_good (hgood : ((s.upset u).readDev a n).2.bad = false) (hok : ((s.upset u).readDev a n).2.fail = none) :
    doHostMemRead a n busy own u s =
      (((s.upset u).readDev a n).1.grantHost a n own).hostReturn a ((s.upset u).readDev a n).2.data false := by
  simp only [doHostMemRead_of_dev hup hplace hclear hroom, hgood, hok, Option.isSome_none, Bool.or_self, Bool.false_eq_true, if_false]

theorem doHostMemRead_of_poison (hbad : ((s.upset u).readDev a n).2.bad = true) :
    doHostMemRead a n busy own u s = ((s.upset u).readDev a n).1.hostReturn a ((s.upset u).readDev a n).2.data true := by
  simp only [doHostMemRead_of_dev hup hplace hclear hroom, hbad, Bool.true_or, if_true]

end

/-! ## Writes (R279) -/

section
variable {s : State} {a : Nat} {bs : List Byte} {busy : Bool} {u : List Upset} (hup : s.host.linkUp = true)
include hup

theorem doHostMemWrite_of_hole (hplace : hdmOf a = .nothing) : doHostMemWrite a bs busy u s = s.hostWrote a false := by
  simp only [doHostMemWrite, hup, hplace, Bool.not_true, Bool.false_eq_true, if_false]

theorem doHostMemWrite_of_dev (hplace : hdmOf a = .dev) :
    doHostMemWrite a bs busy u s = ((s.upset u).writeDev .host a (bs.map some)).1.hostWrote a
      ((s.upset u).writeDev .host a (bs.map some)).2.isNone := by
  simp only [doHostMemWrite, hup, hplace, Bool.not_true, Bool.false_eq_true, if_false]

/-- Beyond the semaphore words of the twin region, a write that meets no other and overflows nothing is a write of the die's bytes. -/
theorem doHostMemWrite_of_twin {d : Fin 4} {sel off : Nat} (hplace : hdmOf a = .twin d sel off) (hserved : s.twinStatus d = none)
    (hbeyond : twinBase + 2048 ≤ off) (hfits : (((s.upset u).die d).write sel off (bs.map some)).2.2 = false) :
    doHostMemWrite a bs false u s =
      ((s.upset u).modDie d fun _ => (((s.upset u).die d).write sel off (bs.map some)).1).hostWrote a true := by
  simp only [doHostMemWrite, hup, hplace, hserved, hfits, Nat.not_lt.2 hbeyond, decide_false, Option.isSome_none, Bool.and_false,
    Bool.or_self, Bool.false_and, Bool.not_true, Bool.false_eq_true, if_false]

end

/-! ## Answers to snoops (R280) -/

/-- A line that the host has answered for leaves the host filter. -/
def State.dropHostLine (s : State) (h : Nat) : State :=
  { s with fab := { s.fab with hostFilter := s.fab.hostFilter.filter fun x => x.line != h } }

/-- The writes to a line wait for the host no longer once it holds none of the line. -/
def State.answered (s : State) (l : Nat) : State :=
  let up := fun (w : PendingWrite) => { w with needBi := w.needBi && !(s.hostLines l).isEmpty }
  s.modFab fun f => { f with pendingWrites := updateWhere (fun w => w.line == l) up f.pendingWrites }

theorem doBackInvalidateResponse_of_clean {s : State} {h : Nat} (hheld : (s.fab.hostFilter.any fun x => x.line == h) = true) :
    doBackInvalidateResponse h none s = ((s.dropHostLine h).answered (h / 2)).release (h / 2) := by
  simp only [doBackInvalidateResponse, hheld, Bool.not_true, Bool.false_eq_true, if_false]
  rfl

/-- Settles O24: a read and a write by where the offset leads, a read of stack memory also by what it gives; a clean answer and a snoop. -/
theorem hostMemoryAccesses : Obligations.HostMemoryAccesses := by
  unfold Obligations.HostMemoryAccesses
  refine ⟨fun s a n busy own u hup => ⟨fun hplace => ?_, fun hplace hclear hroom => ⟨fun hgood hok => ?_, fun hbad => ?_⟩,
      fun d sel off hplace => ?_⟩,
    fun s a bs busy u hup => ⟨fun hplace => ?_, fun hplace => ?_, fun d sel off hplace hserved hbeyond hbusy hfits => ?_⟩,
    fun s h hheld => ?_, fun s l hup => ?_⟩
  · rw [exec_hostMemRead, doHostMemRead_of_hole hup hplace]
  · rw [exec_hostMemRead, doHostMemRead_of_good hup hplace hclear hroom hgood hok]
  · rw [exec_hostMemRead, doHostMemRead_of_poison hup hplace hclear hroom hbad]
  · rw [exec_hostMemRead, doHostMemRead_of_twin hup hplace]
  · rw [exec_hostMemWrite, doHostMemWrite_of_hole hup hplace]
  · rw [exec_hostMemWrite, doHostMemWrite_of_dev hup hplace]
  · rw [exec_hostMemWrite, hbusy, doHostMemWrite_of_twin hup hplace hserved hbeyond hfits]
  · rw [exec_backInvalidateResponse, doBackInvalidateResponse_of_clean hheld]
    rfl
  · rw [exec_h2dSnoop, doSnoop, if_pos hup]

end Sys2Proof.Machine
end

section
/-!
SUPPORT. The host's rings (spec 15 R281 to R284, R289 to R292): reads of a ring after its own updates, one equation for each outcome of an
enable, a doorbell, a fetch, a record, an interrupt and a change of the link, and O48 (HostRingsMove) and O49 (RecordsAndInterrupts) put
together from them.
-/
namespace Sys2Proof.Machine

/-! ## Each ring command runs its own effect -/

theorem exec_sqEnable (q : Fin 32) (v : Word) (s : State) : exec (.sqEnable q v) s = .next (s.afterStill (doSqEnable q v s)) :=
  ranStill_eq_next_afterStill (doSqEnable q v) s

theorem exec_cqEnable (q : Fin 32) (v : Word) (s : State) : exec (.cqEnable q v) s = .next (s.afterStill (doCqEnable q v s)) :=
  ranStill_eq_next_afterStill (doCqEnable q v) s

theorem exec_sqTail (q : Fin 32) (v : Half) (s : State) : exec (.sqTail q v) s = .next (s.afterStill (doSqTail q v s)) :=
  ranStill_eq_next_afterStill (doSqTail q v) s

theorem exec_cqHead (q : Fin 32) (v : Half) (s : State) : exec (.cqHead q v) s = .next (s.afterStill (doCqHead q v s)) :=
  ranStill_eq_next_afterStill (doCqHead q v) s

theorem exec_descriptorFetch (q : Fin 32) (batch : List HostData) (s : State) :
    exec (.descriptorFetch q batch) s = .next (s.afterStill (doDescriptorFetch q batch s)) :=
  ranStill_eq_next_afterStill (doDescriptorFetch q batch) s

theorem exec_hostLinkDown (s : State) : exec .hostLinkDown s = .next (s.after (doHostLinkDown s)) :=
  ran_eq_next_after doHostLinkDown s

theorem exec_hostLinkUp (s : State) : exec .hostLinkUp s = .next (s.afterStill (doHostLinkUp s)) :=
  ranStill_eq_next_afterStill doHostLinkUp s

theorem exec_completionRecordWrite (q : Fin 32) (s : State) :
    exec (.completionRecordWrite q) s = .next (s.afterStill (doCompletionRecordWrite q s)) :=
  ranStill_eq_next_afterStill (doCompletionRecordWrite q) s

theorem exec_cqInterruptTimer (q : Fin 32) (s : State) :
    exec (.cqInterruptTimer q) s = .next (s.afterStill (doCqInterruptTimer q s)) :=
  ranStill_eq_next_afterStill (doCqInterruptTimer q) s

theorem exec_progressRecordTimer (h : Quad) (s : State) :
    exec (.progressRecordTimer h) s = .next (s.afterStill (doProgressRecordTimer h s)) :=
  ranStill_eq_next_afterStill (doProgressRecordTimer h) s

/-! ## Reads of a ring after its own updates -/

theorem State.sq_modSq_self (s : State) (q : Fin 32) (f : SqRing → SqRing) : (s.modSq q f).sq q = f (s.sq q) :=
  vget_vmod_self s.host.sqs q f

theorem State.cq_modCq_self (s : State) (q : Fin 32) (f : CqRing → CqRing) : (s.modCq q f).cq q = f (s.cq q) :=
  vget_vmod_self s.host.cqs q f

theorem State.modSq_congr {s : State} {q : Fin 32} {f g : SqRing → SqRing} (h : f (s.sq q) = g (s.sq q)) :
    s.modSq q f = s.modSq q g := by
  rw [State.modSq, State.modSq, State.modHost, State.modHost, vmod_congr h]

theorem State.modCq_congr {s : State} {q : Fin 32} {f g : CqRing → CqRing} (h : f (s.cq q) = g (s.cq q)) :
    s.modCq q f = s.modCq q g := by
  rw [State.modCq, State.modCq, State.modHost, State.modHost, vmod_congr h]

theorem vset_vset {α : Type} {n : Nat} (v : Vector α n) (i : Fin n) (x y : α) : vset (vset v i x) i y = vset v i y := by
  simp [vset]

/-- Two updates of one ring are one. -/
theorem State.modCq_modCq (s : State) (q : Fin 32) (f g : CqRing → CqRing) :
    (s.modCq q f).modCq q g = s.modCq q fun r => g (f r) := by
  simp only [State.modCq, State.modHost, vmod, vget_vset_self, vset_vset]

/-! ## Enables (R281, Table 15-9) -/

/-- What a write of SQ_CFG sets in a disabled ring besides the enable. -/
def sqSetUp (v cfg : Word) : Word := fput sqCfgCq (fget sqCfgCq v) (fput sqCfgLog2size (fget sqCfgLog2size v) cfg)

/-- A disabled ring that a write of SQ_CFG sets up. -/
def State.setUpSq (s : State) (q : Fin 32) (v : Word) : State := s.modSq q fun r => { r with cfg := sqSetUp v (s.sq q).cfg }

section
variable {s : State} {q : Fin 32} {v : Word}

theorem ringLog_of_range {f : Fld} {old new : Word} (hlo : 4 ≤ fget f new) (hhi : fget f new ≤ 16) : ringLog f old new = fget f new :=
  if_pos ⟨hlo, hhi⟩

section
variable (hoff : (s.sq q).on = false) (henable : fon sqCfgEnable v = true) (hlo : 4 ≤ fget sqCfgLog2size v)
  (hhi : fget sqCfgLog2size v ≤ 16)
include hoff henable hlo hhi

theorem doSqEnable_of_enabling :
    doSqEnable q v s = if (!((s.setUpSq q v).cq ((s.setUpSq q v).sq q).cqOf).on) = true then (s.setUpSq q v).ringError errCqDisabled q true
      else (s.setUpSq q v).modSq q fun r => { r with cfg := fflag sqCfgEnable true r.cfg, head := 0, tail := 0, stopped := false } := by
  have hset : (s.modSq q fun r => { r with
      cfg := fput sqCfgCq (fget sqCfgCq v) (fput sqCfgLog2size (fget sqCfgLog2size v) r.cfg) }) = s.setUpSq q v :=
    State.modSq_congr rfl
  simp only [doSqEnable, hoff, henable, ringLog_of_range hlo hhi, hset, Bool.false_eq_true, Bool.not_true, if_false]

theorem doSqEnable_of_cqOn (hcq : ((s.setUpSq q v).cq ((s.setUpSq q v).sq q).cqOf).on = true) :
    doSqEnable q v s = (s.setUpSq q v).modSq q fun r => { r with
      cfg := fflag sqCfgEnable true (sqSetUp v (s.sq q).cfg), head := 0, tail := 0, stopped := false } := by
  rw [doSqEnable_of_enabling hoff henable hlo hhi, hcq]
  refine State.modSq_congr ?_
  rw [State.setUpSq, State.sq_modSq_self]

theorem doSqEnable_of_cqOff (hcq : ((s.setUpSq q v).cq ((s.setUpSq q v).sq q).cqOf).on = false) :
    doSqEnable q v s = (s.setUpSq q v).ringError errCqDisabled q true := by
  rw [doSqEnable_of_enabling hoff henable hlo hhi, hcq]
  rfl

end

/-- A completion ring with the threshold and timer of a write of CQ_CFG. -/
def State.paceCq (s : State) (q : Fin 32) (v : Word) : State :=
  s.modCq q fun r => { r with cfg := fput cqCfgThresh (fget cqCfgThresh v) (fput cqCfgTimer (fget cqCfgTimer v) r.cfg) }

section
variable (hon : (s.cq q).on = true)
include hon

theorem doCqEnable_of_kept (henable : fon cqCfgEnable v = true) : doCqEnable q v s = s.paceCq q v := by
  simp only [doCqEnable, hon, henable, if_true, State.paceCq]

theorem doCqEnable_of_inUse (hdisable : fon cqCfgEnable v = false) (hinUse : (s.paceCq q v).cqInUse q = true) :
    doCqEnable q v s = (s.paceCq q v).ringError errCqInUse q false := by
  unfold State.paceCq at hinUse
  simp only [doCqEnable, hon, hdisable, hinUse, if_true, if_false, Bool.false_eq_true, State.paceCq]

theorem doCqEnable_of_unused (hdisable : fon cqCfgEnable v = false) (hunused : (s.paceCq q v).cqInUse q = false) :
    doCqEnable q v s = (s.paceCq q v).modCq q fun r => { r with cfg := fflag cqCfgEnable false r.cfg } := by
  unfold State.paceCq at hunused
  simp only [doCqEnable, hon, hdisable, hunused, if_true, if_false, Bool.false_eq_true, State.paceCq]

end

theorem doCqEnable_of_enabling (hoff : (s.cq q).on = false) (henable : fon cqCfgEnable v = true) (hlo : 4 ≤ fget cqCfgLog2size v)
    (hhi : fget cqCfgLog2size v ≤ 16) :
    doCqEnable q v s = (s.paceCq q v).modCq q fun r => { r with
      cfg := fflag cqCfgEnable true (fput cqCfgVector (fget cqCfgVector v) (fput cqCfgLog2size (fget cqCfgLog2size v) r.cfg))
      head := 0, tail := 0, phase := true, r := 0, first := none } := by
  simp only [doCqEnable, hoff, henable, ringLog_of_range hlo hhi, Bool.false_eq_true, Bool.not_true, if_false, State.modCq_modCq,
    State.paceCq]

end

/-! ## Doorbells and fetches (R282 to R284) -/

section
variable {s : State} {q : Fin 32}

section
variable {v : Half} (hon : (s.sq q).on = true) (hgoes : (s.sq q).stopped = false)
include hon hgoes

theorem doSqTail_of_within (hwithin : v.toNat < (s.sq q).size) :
    doSqTail q v s = s.modSq q fun r => { r with tail := v.toNat } := by
  simp only [doSqTail, hon, hgoes, Nat.not_le.2 hwithin, Bool.not_true, Bool.false_eq_true, or_self, if_false]

theorem doSqTail_of_beyond (hbeyond : (s.sq q).size ≤ v.toNat) :
    doSqTail q v s = (s.modSq q fun r => { r with stopped := true }).ringError errTail q true := by
  simp only [doSqTail, hon, hgoes, hbeyond, Bool.not_true, Bool.false_eq_true, or_self, if_false, if_true]

end

theorem doCqHead_of_within {v : Half} (hon : (s.cq q).on = true) (hwithin : v.toNat < (s.cq q).size) :
    doCqHead q v s = s.modCq q fun r =>
      if v.toNat = r.tail then { r with head := v.toNat, r := 0, first := none } else { r with head := v.toNat } := by
  simp only [doCqHead, hon, Nat.not_le.2 hwithin, Bool.not_true, Bool.false_eq_true, or_self, if_false]

theorem doDescriptorFetch_of_on {batch : List HostData} (hon : (s.sq q).on = true) (hgoes : (s.sq q).stopped = false)
    (hup : s.host.linkUp = true) :
    doDescriptorFetch q batch s = forEach (batch.take (min (min (((s.sq q).tail + (s.sq q).size - (s.sq q).head) % (s.sq q).size)
      fetchBatch) (maxCommands - s.host.cmds.length))) (fun s x => s.fetchOne q x) s := by
  simp only [doDescriptorFetch, hon, hgoes, hup, Bool.not_true, Bool.false_eq_true, or_self, if_false]

/-- The command that a descriptor of the ring would become. -/
def State.fetchedCommand (s : State) (q : Fin 32) (bs : List Byte) : Command :=
  ⟨BitVec.ofNat 64 (q.1 * 2 ^ 48 + (s.sq q).seq.toNat), (s.sq q).cqOf, BitVec.ofNat 512 (leNat (padTo 64 bs)), .accepted,
    s.host.orders, s.aon, 0, 0⟩

/-- A descriptor has its place in the ring and its handle taken. -/
def State.takeDescriptor (s : State) (q : Fin 32) : State :=
  s.modSq q fun r => { r with head := (r.head + 1) % r.size, seq := BitVec.ofNat 64 ((r.seq.toNat + 1) % 2 ^ 48) }

theorem State.fetchOne_of_sound {bs : List Byte} (hsound : decodeBad (s.fetchedCommand q bs) = none) :
    s.fetchOne q (some bs) = ((s.takeDescriptor q).pushRecord (s.sq q).cqOf ⟨(s.fetchedCommand q bs).handle, stAccepted, 0, 0, 0, 0,
      padTo 12 (natLe 1 (s.fetchedCommand q bs).opc), false, false, false⟩).modHost fun p =>
        { p with cmds := p.cmds ++ [s.fetchedCommand q bs], orders := p.orders + 1 } := by
  unfold State.fetchedCommand at hsound
  simp only [State.fetchOne, State.modSq, State.modHost_host, State.modHost_aon, hsound]
  rfl

theorem State.fetchOne_of_bad {bs : List Byte} {d : Half} (hbad : decodeBad (s.fetchedCommand q bs) = some d) :
    s.fetchOne q (some bs) = (s.takeDescriptor q).pushRecord (s.sq q).cqOf ⟨(s.fetchedCommand q bs).handle, stBadDescriptor, d, 0, 0, 0,
      padTo 12 [], true, (s.fetchedCommand q bs).urgent, false⟩ := by
  unfold State.fetchedCommand at hbad
  simp only [State.fetchOne, State.modSq, State.modHost_host, State.modHost_aon, hbad]
  rfl

end

/-! ## The host link (R292) -/

/-- What the loss of the link leaves before the writes that waited for the host go on: no ring and no line of the host. -/
def State.unlinked (s : State) : State :=
  let up := fun (w : PendingWrite) => { w with needBi := false }
  (s.modHost fun h => { h with
    linkUp := false, memErr := fsat memErrLinkDown 1 h.memErr
    sqs := vmap h.sqs fun _ r => { r with cfg := fflag sqCfgEnable false r.cfg }
    cqs := vmap h.cqs fun _ r => { r with cfg := fflag cqCfgEnable false r.cfg } }).modFab fun f =>
      { f with hostFilter := [], pendingWrites := f.pendingWrites.map up }

theorem doHostLinkDown_of_up {s : State} (hup : s.host.linkUp = true) :
    doHostLinkDown s =
      (forEach ((s.fab.pendingWrites.map (·.line)).eraseDups) (fun s l => s.release l) s.unlinked).emit (.report rpHostLinkDown []) := by
  simp only [doHostLinkDown, hup, Bool.not_true, Bool.false_eq_true, if_false]
  rfl

theorem doHostLinkUp_of_ready {s : State} (hport : s.boot.xUp = true) (hpower : s.pwc.state ≤ 1) (hlight : s.pwc.oeDark.getLsbD 6 = false) :
    doHostLinkUp s = s.modHost fun h => { h with linkUp := true } := by
  simp only [doHostLinkUp, hport, hpower, hlight, Bool.not_false, and_self, if_true]

/-- Settles O48: an enable by what it meets, a doorbell by the size, a fetch by its limits, a descriptor by its check, and the link. -/
theorem hostRingsMove : Obligations.HostRingsMove := by
  unfold Obligations.HostRingsMove
  refine ⟨fun s q v hoff henable hlo hhi => ⟨fun hcq => ?_, fun hcq => ?_⟩,
    fun s q v => ⟨fun hon hdisable hinUse => ?_, fun hon hdisable hunused => ?_, fun hon henable => ?_, fun hoff henable hlo hhi => ?_⟩,
    fun s q v hon hgoes => ⟨fun hwithin => ?_, fun hbeyond => ?_⟩, fun s q v hon hwithin => ?_, fun s q batch hon hgoes hup => ?_,
    fun s q bs => ⟨fun hsound => ?_, fun d hbad => ?_⟩, fun s hup => ?_, fun s hport hpower hlight => ?_⟩
  · rw [exec_sqEnable, doSqEnable_of_cqOn hoff henable hlo hhi hcq]
    rfl
  · rw [exec_sqEnable, doSqEnable_of_cqOff hoff henable hlo hhi hcq]
    rfl
  · rw [exec_cqEnable, doCqEnable_of_inUse hon hdisable hinUse]
    rfl
  · rw [exec_cqEnable, doCqEnable_of_unused hon hdisable hunused]
    rfl
  · rw [exec_cqEnable, doCqEnable_of_kept hon henable]
    rfl
  · rw [exec_cqEnable, doCqEnable_of_enabling hoff henable hlo hhi]
    rfl
  · rw [exec_sqTail, doSqTail_of_within hon hgoes hwithin]
  · rw [exec_sqTail, doSqTail_of_beyond hon hgoes hbeyond]
  · rw [exec_cqHead, doCqHead_of_within hon hwithin]
  · rw [exec_descriptorFetch, doDescriptorFetch_of_on hon hgoes hup]
    rfl
  · exact State.fetchOne_of_sound hsound
  · exact State.fetchOne_of_bad hbad
  · rw [exec_hostLinkDown, doHostLinkDown_of_up hup]
    rfl
  · rw [exec_hostLinkUp, doHostLinkUp_of_ready hport hpower hlight]

/-! ## Records (R285, R289 to R291) -/

section
variable {s : State} {q : Fin 32} {x : HostRecord} {rest : List HostRecord}

/-- The records of a completion ring that are free. -/
def CqRing.room (r : CqRing) : Nat := r.size - (r.tail + r.size - r.head) % r.size

/-- The oldest record that waits for a ring leaves its queue. -/
def State.takeHeld (s : State) (q : Fin 32) (rest : List HostRecord) : State := s.modCq q fun r => { r with held := rest }

/-- A completion ring with a record more, written at the given tick. -/
def CqRing.wrote (r : CqRing) (aon : Nat) (y : CqRing) : CqRing :=
  { y with
    tail := if r.tail + 1 = r.size then 0 else r.tail + 1, phase := if r.tail + 1 = r.size then !r.phase else r.phase
    r := r.r + 1, first := if r.first.isNone then some aon else r.first }

/-- A record written at CQ_TAIL; the command of a final one is outstanding no longer. -/
def State.placeRecord (s : State) (q : Fin 32) (x : HostRecord) : State :=
  let t := (s.emit (.hostWrite ((s.cq q).base.toNat + 32 * (s.cq q).tail) (x.bytes (s.cq q).phase))).modCq q ((s.cq q).wrote s.aon)
  if x.final then t.modHost fun p => { p with cmds := p.cmds.filter fun c => c.handle != x.handle } else t

/-- Writing a record is placing it, and the vector when the count or an URGENT descriptor asks for it. -/
theorem State.writeRecord_eq (s : State) (q : Fin 32) (x : HostRecord) :
    s.writeRecord q x = if fget cqCfgThresh (s.cq q).cfg ≠ 0 ∧
        (fget cqCfgThresh (s.cq q).cfg ≤ (s.cq q).r + 1 ∨ (x.final = true ∧ x.urgent = true)) then (s.placeRecord q x).interrupt q
      else s.placeRecord q x := rfl

variable (hheld : (s.cq q).held = x :: rest) (hon : (s.cq q).on = true) (hup : s.host.linkUp = true)
include hheld hon hup

theorem doCompletionRecordWrite_of_skipped (hprogress : x.progress = true) (hquarter : 4 * (s.cq q).room ≤ (s.cq q).size) :
    doCompletionRecordWrite q s = s.takeHeld q rest := by
  unfold CqRing.room at hquarter
  simp only [doCompletionRecordWrite, hheld, hon, hup, hprogress, hquarter, Bool.not_true, Bool.false_eq_true, or_self, and_self, if_true,
    if_false, State.takeHeld]

theorem doCompletionRecordWrite_of_full (hkept : x.progress = false) (hfull : ((s.cq q).tail + 1) % (s.cq q).size = (s.cq q).head) :
    doCompletionRecordWrite q s = s := by
  simp only [doCompletionRecordWrite, hheld, hon, hup, hkept, hfull, Bool.not_true, Bool.false_eq_true, or_self, false_and, if_true,
    if_false]

theorem doCompletionRecordWrite_of_room (hkept : x.progress = false ∨ (s.cq q).size < 4 * (s.cq q).room)
    (hroom : ((s.cq q).tail + 1) % (s.cq q).size ≠ (s.cq q).head) :
    doCompletionRecordWrite q s = (s.takeHeld q rest).writeRecord q x := by
  have hnotSkipped : ¬(x.progress = true ∧ 4 * (s.cq q).room ≤ (s.cq q).size) := by
    rintro ⟨hprogress, hquarter⟩
    rcases hkept with hfinal | hspace
    · rw [hprogress] at hfinal
      cases hfinal
    · omega
  unfold CqRing.room at hnotSkipped
  simp only [doCompletionRecordWrite, hheld, hon, hup, hnotSkipped, hroom, Bool.not_true, Bool.false_eq_true, or_self, if_false,
    State.takeHeld]

end

/-! ## Interrupts and progress (R290, R291) -/

theorem doCqInterruptTimer_of_due {s : State} {q : Fin 32} {f : Nat} (hfirst : (s.cq q).first = some f) (hon : (s.cq q).on = true)
    (hthresh : fget cqCfgThresh (s.cq q).cfg ≠ 0) (htimer : fget cqCfgTimer (s.cq q).cfg ≠ 0) (hcount : (s.cq q).r ≠ 0)
    (hdue : f + 25 * fget cqCfgTimer (s.cq q).cfg ≤ s.aon) : doCqInterruptTimer q s = s.interrupt q := by
  simp only [doCqInterruptTimer, hfirst, hon, hthresh, htimer, hcount, Nat.not_lt.2 hdue, Bool.not_true, Bool.false_eq_true, or_self,
    if_false]

section
variable {s : State} {h : Quad} {c : Command} (hcmd : s.cmd? h = some c) (hlong : isLong c.opc = true) (hdue : c.tick + 2 ^ 20 ≤ s.aon)
include hcmd hlong hdue

theorem doProgressRecordTimer_of_queued (hqueued : c.st = .queued) (hopc : c.opc ∉ [0x32, 0x33, 0x34, 0x35]) :
    doProgressRecordTimer h s = s.actProgress h stQueued 0 c.total := by
  simp only [List.mem_cons, List.not_mem_nil, or_false, not_or] at hopc
  obtain ⟨hpromote, hfill, hdrain, hreshard⟩ := hopc
  simp only [doProgressRecordTimer, hcmd, hlong, hqueued, Nat.not_lt.2 hdue, hpromote, hfill, hdrain, hreshard, or_true, decide_true,
    Bool.not_true, Bool.false_eq_true, or_self, if_false, if_true]

theorem doProgressRecordTimer_of_running (hrunning : c.st = .running) (hopc : c.opc ∉ [0x32, 0x33, 0x34, 0x35]) :
    doProgressRecordTimer h s = s.unitsProgress h stAccepted c.total := by
  simp only [List.mem_cons, List.not_mem_nil, or_false, not_or] at hopc
  obtain ⟨hpromote, hfill, hdrain, hreshard⟩ := hopc
  simp only [doProgressRecordTimer, hcmd, hlong, hrunning, Nat.not_lt.2 hdue, hpromote, hfill, hdrain, hreshard, true_or, decide_true,
    Bool.not_true, Bool.false_eq_true, or_self, if_false, reduceCtorEq]

theorem doProgressRecordTimer_of_promotion {p : Promotion} (hrunning : c.st = .running) (hopc : c.opc = 0x32 ∨ c.opc = 0x33)
    (hpromotion : s.fr.promotion = some p) (hhandle : p.handle = h) :
    doProgressRecordTimer h s = s.progress h p.status p.failure p.result := by
  simp only [doProgressRecordTimer, hcmd, hlong, hrunning, Nat.not_lt.2 hdue, hopc, hpromotion, hhandle, true_or, decide_true,
    Bool.not_true, Bool.false_eq_true, or_self, if_false, if_true]

theorem doProgressRecordTimer_of_reshard {r : Reshard} (hrunning : c.st = .running) (hopc : c.opc = 0x35)
    (hreshard : (s.tly.reshards.find? fun r => r.handle == h) = some r) : doProgressRecordTimer h s = s.reshardProgress r := by
  rw [hopc] at hlong
  simp only [doProgressRecordTimer, hcmd, hopc, hlong, hrunning, Nat.not_lt.2 hdue, hreshard, true_or, decide_true, Bool.not_true,
    Bool.false_eq_true, or_self, Nat.reduceEqDiff, if_false, if_true]

end

/-- Settles O49: the oldest record by the room it finds, a ring's timer, and a long command's progress by its kind. -/
theorem recordsAndInterrupts : Obligations.RecordsAndInterrupts := by
  unfold Obligations.RecordsAndInterrupts
  refine ⟨fun s q x rest hheld hon hup => ⟨fun hprogress hquarter => ?_, fun hkept hroom => ?_, fun hkept hfull => ?_⟩,
    fun s q f hfirst hon hthresh htimer hcount hdue => ?_,
    fun s h c hcmd hlong hdue => ⟨fun hqueued hopc => ?_, fun hrunning hopc => ?_, fun p hrunning hopc hpromotion hhandle => ?_,
      fun r hrunning hopc hreshard => ?_⟩⟩
  · rw [exec_completionRecordWrite, doCompletionRecordWrite_of_skipped hheld hon hup hprogress hquarter]
    rfl
  · rw [exec_completionRecordWrite, doCompletionRecordWrite_of_room hheld hon hup hkept hroom, State.writeRecord_eq, State.placeRecord,
      State.takeHeld, State.cq_modCq_self]
    rfl
  · rw [exec_completionRecordWrite, doCompletionRecordWrite_of_full hheld hon hup hkept hfull]
  · rw [exec_cqInterruptTimer, doCqInterruptTimer_of_due hfirst hon hthresh htimer hcount hdue]
    rfl
  · rw [exec_progressRecordTimer, doProgressRecordTimer_of_queued hcmd hlong hdue hqueued hopc]
  · rw [exec_progressRecordTimer, doProgressRecordTimer_of_running hcmd hlong hdue hrunning hopc]
  · rw [exec_progressRecordTimer, doProgressRecordTimer_of_promotion hcmd hlong hdue hrunning hopc hpromotion hhandle]
  · rw [exec_progressRecordTimer, doProgressRecordTimer_of_reshard hcmd hlong hdue hrunning hopc hreshard]

end Sys2Proof.Machine
end

section
/-!
SUPPORT. Starts and stops (spec 16 R293 to R302; spec 17 R306; spec 22 R350, R351): one equation for each pin's edge, what a stop leaves,
the limits of a start, and O8 (PinsAndStraps), O9 (StopKeepsOnlyTheAlwaysOnDomain) and O12 (LedgerLimitsRestartsAndClear) put together
from them.
-/
namespace Sys2Proof.Machine

/-! ## Each command of the pins and of a start runs its own effect -/

theorem exec_pwrOkRise (s : State) : exec .pwrOkRise s = .next (s.afterStill (doPwrOkRise s)) :=
  ranStill_eq_next_afterStill doPwrOkRise s

theorem exec_pwrOkFall (s : State) : exec .pwrOkFall s = .next (s.afterStill (doPwrOkFall s)) :=
  ranStill_eq_next_afterStill doPwrOkFall s

theorem exec_rstNAssert (n : Nat) (s : State) : exec (.rstNAssert n) s = .next (s.afterStill (doRstNAssert n s)) :=
  ranStill_eq_next_afterStill (doRstNAssert n) s

theorem exec_rstNRelease (a b c : Word) (s : State) : exec (.rstNRelease a b c) s = .next (s.afterStill (doRstNRelease a b c s)) :=
  ranStill_eq_next_afterStill (doRstNRelease a b c) s

theorem exec_bootStepTimeout (s : State) : exec .bootStepTimeout s = .next (s.afterStill (doBootStepTimeout s)) :=
  ranStill_eq_next_afterStill doBootStepTimeout s

theorem exec_bootRestart (s : State) : exec .bootRestart s = .next (s.afterStill (doBootRestart s)) :=
  ranStill_eq_next_afterStill doBootRestart s

theorem exec_bootImageArrival (p : BootPath) (image : List Byte) (s : State) :
    exec (.bootImageArrival p image) s = .next (s.afterStill (doBootImageArrival p image s)) :=
  ranStill_eq_next_afterStill (doBootImageArrival p image) s

theorem exec_ldgCtrlClear (v : Word) (s : State) : exec (.ldgCtrlClear v) s = .next (s.afterStill (doLdgCtrlClear v s)) :=
  ranStill_eq_next_afterStill (doLdgCtrlClear v) s

/-! ## The pins (R293, R350, R351) -/

/-- What PWR_OK clears as it rises; AON_FALLBACK stays as it is (spec 01 R19). -/
def State.powered (s : State) : State := { s with
  boot := { s.boot with pwrOk := true, retained := stopPowerOn }
  pwc := { s.pwc with
    clkFault := fput clkFaultAonFallback (fget clkFaultAonFallback s.pwc.clkFault) 0
    lastWake := fput lastWakeCount 0 s.pwc.lastWake, thermStatus := fput thermTrips 0 s.pwc.thermStatus } }

theorem doPwrOkRise_of_low {s : State} (hlow : s.boot.pwrOk = false) (hvin : s.boot.vinOk = true) :
    doPwrOkRise s = if s.boot.rstN = true then s.powered.beginStart false else s.powered := by
  simp only [doPwrOkRise, hlow, hvin, Bool.not_true, Bool.or_self, Bool.false_eq_true, if_false]
  rfl

theorem doPwrOkFall_of_high {s : State} (hhigh : s.boot.pwrOk = true) :
    doPwrOkFall s = ((s.stop stopPowerOn .pin false).modBoot fun b =>
      { b with pwrOk := false, wakeLatch := none, tamperHalt := false }).modPwc fun p => { p with tripped := false, brown := false } := by
  simp only [doPwrOkFall, hhigh, Bool.not_true, Bool.false_eq_true, if_false]

section
variable {s : State} {n : Nat}

theorem doRstNAssert_of_long (hhigh : s.boot.rstN = true) (hlong : 4 ≤ n) :
    doRstNAssert n s = ((s.stop stopRst .pin false).modBoot fun b => { b with rstN := false }).modPwc fun p =>
      { p with tripped := false, brown := false } := by
  simp only [doRstNAssert, hhigh, Nat.not_lt.2 hlong, Bool.not_true, Bool.false_eq_true, or_self, if_false]

theorem doRstNAssert_of_short (hshort : n < 4) : doRstNAssert n s = s := if_pos (.inl hshort)

end

/-- What RST_N samples and restarts as it rises. -/
def State.sampled (s : State) (a b c : Word) : State := { s with
  boot := { s.boot with rstN := true, straps := majority a b c }
  host := { s.host with sqs := vmap s.host.sqs fun _ r => { r with seq := 0 } } }

theorem doRstNRelease_of_low {s : State} {a b c : Word} (hlow : s.boot.rstN = false) :
    doRstNRelease a b c s = if s.boot.pwrOk = true then (s.sampled a b c).beginStart false else s.sampled a b c := by
  simp only [doRstNRelease, hlow, Bool.false_eq_true, if_false]
  rfl

/-- Settles O8: an edge by the level of its pin, a rise also by the level of the other, a low RST_N by its length. -/
theorem pinsAndStraps : Obligations.PinsAndStraps := by
  unfold Obligations.PinsAndStraps
  refine ⟨fun s hlow hvin => ⟨fun hrst => ?_, fun hrst => ?_⟩, fun s hhigh => ?_, fun s n hhigh => ⟨fun hlong => ?_, fun hshort => ?_⟩,
    fun s a b c hlow => ?_⟩
  · rw [exec_pwrOkRise, doPwrOkRise_of_low hlow hvin, hrst]
    rfl
  · rw [exec_pwrOkRise, doPwrOkRise_of_low hlow hvin, hrst]
    rfl
  · rw [exec_pwrOkFall, doPwrOkFall_of_high hhigh]
    rfl
  · rw [exec_rstNAssert, doRstNAssert_of_long hhigh hlong]
    rfl
  · rw [exec_rstNAssert, doRstNAssert_of_short hshort]
  · rw [exec_rstNRelease, doRstNRelease_of_low hlow]
    rfl

/-! ## Stops (R295, R298, R306, R348) -/

/-- FAILED_RUN after a stop: a start that has not reached BS-14 counts in it (R298 item 6). -/
def State.runFailed (s : State) : Quad :=
  if 1 ≤ s.boot.step ∧ s.boot.step ≤ 13 then fsat ldgStartFailedRun 1 s.boot.ldgStart else s.boot.ldgStart

/-- What a stop leaves, whatever is to start the device again. -/
def State.stoppedBy (s : State) (cause : Nat) : State :=
  let b := { s.boot with
    retained := cause, step := 0, inService := false, restartAt := none, mpUp := false, window := none
    erasedStacks := s.boot.erasedStacks ||| s.erasedNow, ldgStart := s.runFailed }
  let p := { s.pwc with
    state := pwStopped, stopped := true, padHold := 0x1FFF, mode := fput modeArmed 0 s.pwc.mode, cmd := none, cmdFail := none, exiting := 0 }
  let x := { s.sec with wipe := none, lifecycle := none, fuseHeld := false, debugHalt := 0 }
  State.cold { s with boot := b, pwc := p, sec := x }

/-- What is to start a stopped device again: when, with MP up or not, and by which registers. -/
def State.restartable (s : State) (at? : Option Nat) (up : Bool) (start : Quad) (trip brown : Bool) (os : List Out) : State :=
  { s with
    boot := { s.boot with restartAt := at?, mpUp := up, ldgStart := start }, pwc := { s.pwc with tripped := trip, brown := brown }, out := os }

theorem State.stop_after (s : State) (cause : Nat) (mp : Bool) :
    s.stop cause .after mp =
      if 8 ≤ fget ldgStartFailedRun s.runFailed then (s.stoppedBy cause).halt s.boot.step (mp && s.boot.mpUp)
      else (s.stoppedBy cause).modBoot fun b => { b with restartAt := some (s.aon + 2 ^ 16), mpUp := false } := by
  simp only [State.stop, decide_eq_true_eq]
  rfl

theorem State.halt_eq (s : State) (step : Nat) (mp : Bool) : ∃ os,
    s.halt step mp = s.restartable none mp (fput ldgStartHaltStep step (fput ldgStartHalted 1 s.boot.ldgStart)) false false os := by
  cases mp
  · exact ⟨s.out, rfl⟩
  · exact ⟨.report rpHalt [step] :: s.out, rfl⟩

theorem fget_ldgStartHalted (step : Nat) (w : Quad) : fget ldgStartHalted (fput ldgStartHaltStep step (fput ldgStartHalted 1 w)) = 1 := by
  rw [fget_fput_of_disjoint (by decide) (by decide) (by decide) (by decide), fget_fput_self (by decide) (by decide) (by decide)]

/-- A stop that is to be followed by a restart leaves the always-on domain, and a device that restarts or is halted. -/
theorem State.stop_after_eq (s : State) (cause : Nat) (mp : Bool) : ∃ at? up start trip brown os,
    s.stop cause .after mp = (s.stoppedBy cause).restartable at? up start trip brown os ∧
    (fget ldgStartFailedRun s.runFailed < 8 → at? = some (s.aon + 2 ^ 16)) ∧
    (8 ≤ fget ldgStartFailedRun s.runFailed → at? = none ∧ fget ldgStartHalted start = 1) := by
  rw [s.stop_after]
  split
  next hlimit =>
    obtain ⟨os, heq⟩ := (s.stoppedBy cause).halt_eq s.boot.step (mp && s.boot.mpUp)
    exact ⟨_, _, _, _, _, os, heq, fun hbelow => absurd hlimit (Nat.not_le.2 hbelow), fun _ => ⟨rfl, fget_ldgStartHalted _ _⟩⟩
  next hbelow =>
    exact ⟨some (s.aon + 2 ^ 16), false, _, _, _, _, rfl, fun _ => rfl, fun hlimit => absurd hlimit hbelow⟩

/-- Updating the elements of a list without repeats one after another updates each of them once. -/
theorem vget_foldl_vmod {α : Type} {n : Nat} (f : Fin n → α → α) {l : List (Fin n)} (hl : l.Nodup) (v : Vector α n) (i : Fin n) :
    vget (l.foldl (fun u j => vmod u j (f j)) v) i = if i ∈ l then f i (vget v i) else vget v i := by
  induction l generalizing v with
  | nil => simp
  | cons j l ih =>
    obtain ⟨hj, hl⟩ := List.nodup_cons.1 hl
    rw [List.foldl_cons, ih hl]
    by_cases hij : i = j
    · subst hij
      simp [hj]
    · simp [vmod, hij, vget_vset_of_ne v _ hij]

theorem vget_vmap {α : Type} {n : Nat} (v : Vector α n) (f : Fin n → α → α) (i : Fin n) : vget (vmap v f) i = f i (vget v i) :=
  (vget_foldl_vmod f (List.nodup_finRange n) v i).trans (if_pos (List.mem_finRange i))

theorem State.stoppedBy_sqSeq (s : State) (cause : Nat) (q : Fin 32) :
    (vget (s.stoppedBy cause).host.sqs q).seq = (vget s.host.sqs q).seq := by
  have hsqs : (s.stoppedBy cause).host.sqs = vmap HostPort.reset.sqs fun q r => { r with seq := (vget s.host.sqs q).seq } := rfl
  rw [hsqs, vget_vmap]

/-- Settles O9: what the stop leaves, field by field; the restart or the halt as FAILED_RUN decides. -/
theorem stopKeepsOnlyTheAlwaysOnDomain : Obligations.StopKeepsOnlyTheAlwaysOnDomain := by
  unfold Obligations.StopKeepsOnlyTheAlwaysOnDomain
  intro s cause mp
  obtain ⟨at?, up, start, trip, brown, os, heq, hrestart, hhalt⟩ := s.stop_after_eq cause mp
  simp only [heq]
  refine ⟨rfl, rfl, rfl, rfl, rfl, rfl, rfl, rfl, rfl, rfl, rfl, rfl, rfl, rfl, rfl, rfl, rfl, s.stoppedBy_sqSeq cause, rfl, rfl, rfl, rfl,
    rfl, rfl, rfl, rfl, rfl, rfl, rfl, hrestart, hhalt⟩

/-! ## Limits, restarts, an image and the ledger's counts (R298, R300, R302) -/

/-- The instances of a step that were running when its limit passed, closed as INTERNAL. -/
def State.closedBy (s : State) (k : Nat) : List InstOut :=
  (s.instances k).filterMap fun i =>
    if s.methodOf k i = methodPrimary ∨ s.methodOf k i = methodAlternate then some ⟨i, s.methodOf k i, stInternal, 1, instPart k i, []⟩
    else none

theorem doBootStepTimeout_of_late {s : State} (hunder : s.boot.step ≠ 0) (himage : s.boot.step ≠ 5) (hopen : s.boot.stepOpen = true)
    (hlate : s.boot.stepBegin + s.stepLimit s.boot.step ≤ s.aon) :
    doBootStepTimeout s = (s.endStep s.boot.step (s.closedBy s.boot.step)).stop stopWatchdog .after true := by
  have henter : s.enterBoot = s := if_pos hopen
  simp only [doBootStepTimeout, henter, hunder, himage, Nat.not_lt.2 hlate, or_self, false_and, if_false]
  rfl

theorem doBootRestart_of_due {s : State} {t : Nat} (hat : s.boot.restartAt = some t) (hdue : t ≤ s.aon) (hpower : s.boot.pwrOk = true)
    (hreset : s.boot.rstN = true) : doBootRestart s = s.beginStart true := by
  simp only [doBootRestart, hat, hdue, hpower, hreset, and_self, if_true]

theorem doBootImageArrival_of_awaited {s : State} {p : BootPath} {image : List Byte} (hstep : s.boot.step = 5)
    (hsource : s.imageSource = .port p) (hfits : image.length ≤ windowBytes) :
    doBootImageArrival p image s = (s.putHub 0 image).modBoot fun b => { b with window := some (p, image) } := by
  have hat : s.atStep 5 = true := beq_iff_eq.2 hstep
  exact if_pos ⟨hat, hsource, hfits⟩

theorem doLdgCtrlClear_of_live {s : State} (hlive : s.live = true) (v : Word) :
    doLdgCtrlClear v s = forEach ((List.range 14).filter fun k => v.getLsbD (k + 1)) (fun s k =>
      forEach (List.range (stepInstances (k + 1))) (fun s i => s.journal (k + 1) i recClear 0 0 0 0 0 []) s) s := by
  simp only [doLdgCtrlClear, hlive, Bool.not_true, Bool.false_eq_true, if_false]

/-- Settles O12: each command where its conditions hold. -/
theorem ledgerLimitsRestartsAndClear : Obligations.LedgerLimitsRestartsAndClear := by
  unfold Obligations.LedgerLimitsRestartsAndClear
  refine ⟨fun s hunder himage hopen hlate => ?_, fun s t hat hdue hpower hreset => ?_, fun s p image hstep hsource hfits => ?_,
    fun s v hservice => ?_⟩
  · rw [exec_bootStepTimeout, doBootStepTimeout_of_late hunder himage hopen hlate]
    rfl
  · rw [exec_bootRestart, doBootRestart_of_due hat hdue hpower hreset]
  · rw [exec_bootImageArrival, doBootImageArrival_of_awaited hstep hsource hfits]
  · rw [exec_ldgCtrlClear, doLdgCtrlClear_of_live (State.live_of_inService hservice)]

end Sys2Proof.Machine
end

section
/-!
SUPPORT. Power, adaptive clocks and thermal control (spec 17 R308 to R318; spec 22 R356): one equation for each outcome of a loop, a trip,
a rail fault, a transition and a pad, and O14 (AdaptiveClockLoop), O15 (PowerMeasurementAndCap), O16 (ThermalAndSupplyStops) and O17
(PowerTransitionsAndPads) put together from them.
-/
namespace Sys2Proof.Machine

/-! ## Each command of the power controller runs its own effect -/

theorem exec_dvfsLoopTick (s : State) : exec .dvfsLoopTick s = .next (s.afterStill (doDvfsLoopTick s)) :=
  ranStill_eq_next_afterStill doDvfsLoopTick s

theorem exec_droopCeilingRecovery (d : Fin 4) (s : State) :
    exec (.droopCeilingRecovery d) s = .next (s.afterStill (doDroopCeilingRecovery d s)) :=
  ranStill_eq_next_afterStill (doDroopCeilingRecovery d) s

theorem exec_droopSensorTrip (d : Fin 4) (s : State) : exec (.droopSensorTrip d) s = .next (s.afterStill (doDroopSensorTrip d s)) :=
  ranStill_eq_next_afterStill (doDroopSensorTrip d) s

theorem exec_powerMeasureTick (v i : Nat) (s : State) :
    exec (.powerMeasureTick v i) s = .next (s.afterStill (doPowerMeasureTick v i s)) :=
  ranStill_eq_next_afterStill (doPowerMeasureTick v i) s

theorem exec_capLoopTick (s : State) : exec .capLoopTick s = .next (s.afterStill (doCapLoopTick s)) :=
  ranStill_eq_next_afterStill doCapLoopTick s

theorem exec_thermalLoopTick (t : Temps) (s : State) : exec (.thermalLoopTick t) s = .next (s.afterStill (doThermalLoopTick t s)) :=
  ranStill_eq_next_afterStill (doThermalLoopTick t) s

theorem exec_thermalTrip (s : State) : exec .thermalTrip s = .next (s.afterStill (doThermalTrip s)) :=
  ranStill_eq_next_afterStill doThermalTrip s

theorem exec_brownout (o : Bool) (s : State) : exec (.brownout o) s = .next (s.afterStill (doBrownout o s)) :=
  ranStill_eq_next_afterStill (doBrownout o) s

theorem exec_thermalTripRestart (t : Temps) (s : State) :
    exec (.thermalTripRestart t) s = .next (s.afterStill (doThermalTripRestart t s)) :=
  ranStill_eq_next_afterStill (doThermalTripRestart t) s

theorem exec_brownoutRestart (v : Nat) (s : State) : exec (.brownoutRestart v) s = .next (s.afterStill (doBrownoutRestart v s)) :=
  ranStill_eq_next_afterStill (doBrownoutRestart v) s

theorem exec_oeOvertemp (k : Fin 7) (s : State) : exec (.oeOvertemp k) s = .next (s.after (doOeOvertemp k s)) :=
  ran_eq_next_after (doOeOvertemp k) s

theorem exec_oeCooled (k : Fin 7) (s : State) : exec (.oeCooled k) s = .next (s.after (doOeCooled k s)) :=
  ran_eq_next_after (doOeCooled k) s

theorem exec_dieRailFault (d : Fin 4) (s : State) : exec (.dieRailFault d) s = .next (s.after (doDieRailFault d s)) :=
  ran_eq_next_after (doDieRailFault d) s

theorem exec_stackRailFault (k : Fin 8) (s : State) : exec (.stackRailFault k) s = .next (s.after (doStackRailFault k s)) :=
  ran_eq_next_after (doStackRailFault k) s

theorem exec_pwcModeWrite (v : Word) (s : State) : exec (.pwcModeWrite v) s = .next (s.afterStill (doPwcModeWrite v s)) :=
  ranStill_eq_next_afterStill (doPwcModeWrite v) s

theorem exec_powerTransitionStart (irq : Bool) (s : State) :
    exec (.powerTransitionStart irq) s = .next (s.after (doPowerTransitionStart irq s)) :=
  ran_eq_next_after (doPowerTransitionStart irq) s

theorem exec_dieOffExitComplete (d : Fin 4) (bad : List (Nat × Nat)) (lost : List (Fin 8)) (s : State) :
    exec (.dieOffExitComplete d bad lost) s = .next (s.after (doDieOffExitComplete d bad lost s)) :=
  ran_eq_next_after (doDieOffExitComplete d bad lost) s

theorem exec_padHoldWrite (v : Word) (s : State) : exec (.padHoldWrite v) s = .next (s.afterStill (doPadHoldWrite v s)) :=
  ranStill_eq_next_afterStill (doPadHoldWrite v) s

/-! ## The adaptive clock loop (R313, R314) -/

/-- A die's power after the droop rule of a loop period. -/
def State.loopPower (s : State) (d : Fin 4) : DiePower := (s.die d).pwr.droop (s.curStep d)

/-- The step to which a die goes in a loop period. -/
def State.loopStep (s : State) (d : Fin 4) : Nat :=
  nextStep (s.curStep d)
    (min (s.loopPower d).thermCeil (min (s.loopPower d).droopCeil (min (s.loopPower d).capCeil (s.maxStep d))))

/-- A die's DVFS register after a loop period. -/
def State.loopDvfs (s : State) (d : Fin 4) (w : Word) : Word :=
  fput dvfsLimit (limitCode (s.loopStep d) (s.loopPower d).thermCeil (s.loopPower d).droopCeil (s.loopPower d).capCeil (s.maxStep d))
    (fput dvfsCurStep (s.loopStep d) (fput dvfsVoltMv (min 1023 (s.voltOf d (s.loopStep d))) w))

/-- The state with its dies and their DVFS registers set. -/
def State.withLoop (s : State) (ds : Vector Die 4) (ws : Vector Word 4) : State :=
  { s with dies := ds, pwc := { s.pwc with dvfs := ws } }

theorem vmod_vmod {α : Type} {n : Nat} (v : Vector α n) (i : Fin n) (f g : α → α) :
    vmod (vmod v i f) i g = vmod v i fun x => g (f x) := by
  rw [vmod, vget_vmod_self, vmod, vset_vset, vmod]

theorem State.loopDie_eq (s : State) (d : Fin 4) :
    s.loopDie d = s.withLoop (vmod s.dies d fun x => { x with pwr := s.loopPower d }) (vmod s.pwc.dvfs d (s.loopDvfs d)) := by
  have hdies : (s.modDie d fun x => { x with pwr := x.pwr.droop (s.curStep d) }) = s.modDie d fun x => { x with pwr := s.loopPower d } :=
    State.modDie_congr rfl
  have hdie : ((s.modDie d fun x => { x with pwr := s.loopPower d }).die d).pwr = s.loopPower d := by
    rw [State.die, State.modDie, vget_vmod_self]
  simp only [State.loopDie, hdies, hdie, State.setAclk, State.modPwc, vmod_vmod]
  rfl

theorem State.vf_loopDie (s : State) (d : Fin 4) : (s.loopDie d).pwc.vf = s.pwc.vf := by
  rw [s.loopDie_eq]
  rfl

section
variable {s : State} {d e : Fin 4} (hne : e ≠ d)
include hne

theorem State.die_loopDie : (s.loopDie d).die e = s.die e := by
  rw [s.loopDie_eq]
  exact vget_vset_of_ne _ _ hne

theorem State.dvfs_loopDie : vget (s.loopDie d).pwc.dvfs e = vget s.pwc.dvfs e := by
  rw [s.loopDie_eq]
  exact vget_vset_of_ne _ _ hne

theorem State.loopPower_loopDie : (s.loopDie d).loopPower e = s.loopPower e := by
  simp only [State.loopPower, State.curStep, State.die_loopDie hne, State.dvfs_loopDie hne]

theorem State.loopDvfs_loopDie : (s.loopDie d).loopDvfs e = s.loopDvfs e := by
  funext w
  simp only [State.loopDvfs, State.loopStep, State.loopPower_loopDie hne, State.curStep, State.maxStep, State.voltOf,
    State.dvfs_loopDie hne, s.vf_loopDie]

end

theorem forEach_cons {α : Type} (a : α) (l : List α) (f : State → α → State) (s : State) :
    forEach (a :: l) f s = forEach l f (f s a) := rfl

/-- The loop periods of several dies, one after another: no die's depends on another's. -/
theorem State.forEach_loopDie {l : List (Fin 4)} (hl : l.Nodup) (s : State) :
    forEach l State.loopDie s = s.withLoop (l.foldl (fun v d => vmod v d fun x => { x with pwr := s.loopPower d }) s.dies)
      (l.foldl (fun v d => vmod v d (s.loopDvfs d)) s.pwc.dvfs) := by
  induction l generalizing s with
  | nil => rfl
  | cons d l ih =>
    obtain ⟨hd, hl⟩ := List.nodup_cons.1 hl
    have hne : ∀ e ∈ l, e ≠ d := fun e he h => hd (h ▸ he)
    have hdies : ∀ v : Vector Die 4, l.foldl (fun v e => vmod v e fun x => { x with pwr := (s.loopDie d).loopPower e }) v =
        l.foldl (fun v e => vmod v e fun x => { x with pwr := s.loopPower e }) v := fun v =>
      List.foldl_ext _ _ v fun v e he => by rw [State.loopPower_loopDie (hne e he)]
    have hdvfs : ∀ v : Vector Word 4, l.foldl (fun v e => vmod v e ((s.loopDie d).loopDvfs e)) v =
        l.foldl (fun v e => vmod v e (s.loopDvfs e)) v := fun v =>
      List.foldl_ext _ _ v fun v e he => by rw [State.loopDvfs_loopDie (hne e he)]
    rw [forEach_cons, ih hl, hdies, hdvfs, s.loopDie_eq]
    rfl

theorem doDvfsLoopTick_of_allUp {s : State} (hruns : ∀ d, s.loopRuns d = true) :
    doDvfsLoopTick s = s.withLoop (vmap s.dies fun d x => { x with pwr := s.loopPower d }) (vmap s.pwc.dvfs s.loopDvfs) := by
  rw [doDvfsLoopTick, List.filter_eq_self.2 fun d _ => hruns d]
  exact State.forEach_loopDie (List.nodup_finRange 4) s

section
variable {s : State} {d : Fin 4} (hruns : s.loopRuns d = true)
include hruns

theorem doDroopCeilingRecovery_of_free (hfree : 100 ≤ (s.die d).pwr.droopFree) :
    doDroopCeilingRecovery d s = s.modDie d fun x =>
      { x with pwr := { x.pwr with droopCeil := min 28 (x.pwr.droopCeil + 1), droopFree := 0 } } := by
  simp only [doDroopCeilingRecovery, hruns, Nat.not_lt.2 hfree, Bool.not_true, Bool.false_eq_true, or_self, if_false]

theorem doDroopSensorTrip_of_runs :
    doDroopSensorTrip d s = s.modDie d fun x => { x with pwr := { x.pwr with stretched := x.pwr.stretched + 1 } } := by
  simp only [doDroopSensorTrip, hruns, Bool.not_true, Bool.false_eq_true, if_false]

end

theorem doDroopCeilingRecovery_of_recent {s : State} {d : Fin 4} (hrecent : (s.die d).pwr.droopFree < 100) :
    doDroopCeilingRecovery d s = s := if_pos (.inr hrecent)

theorem nextStep_of_lt {cur target : Nat} (h : target < cur) : nextStep cur target = target := if_pos h

theorem nextStep_of_gt {cur target : Nat} (h : cur < target) : nextStep cur target = cur + 1 := by
  rw [nextStep, if_neg (by omega), if_pos h]

theorem nextStep_self (cur : Nat) : nextStep cur cur = cur := by
  rw [nextStep, if_neg (by omega), if_neg (by omega)]

theorem DiePower.droop_of_heavy {p : DiePower} (cur : Nat) (h : 64 < p.stretched) :
    p.droop cur = { p with droopCeil := cur - 1, droopFree := 0, stretched := 0 } := if_pos h

theorem DiePower.droop_of_light {p : DiePower} (cur : Nat) (h : p.stretched ≤ 64) :
    p.droop cur = { p with droopFree := p.droopFree + 1, stretched := 0 } := if_neg (Nat.not_lt.2 h)

theorem State.loopRuns_of_up {s : State} {d : Fin 4} (hservice : s.boot.inService = true) (hserves : s.dieServes d = true)
    (hclock : (s.die d).pwr.aclkOn = true) : s.loopRuns d = true := by
  rw [State.loopRuns, hservice, hserves, hclock]
  rfl

/-- Settles O14: a loop period die by die, a recovery by its periods, a trip; the step and the droop rule by their cases. -/
theorem adaptiveClockLoop : Obligations.AdaptiveClockLoop := by
  unfold Obligations.AdaptiveClockLoop
  refine ⟨fun s hservice hup => ?_, fun s d hservice hserves hclock => ?_,
    fun cur target => ⟨nextStep_of_lt, nextStep_of_gt, nextStep_self cur⟩, fun p cur => ⟨fun hheavy => ?_, fun hlight => ?_⟩⟩
  · have hruns : ∀ d, s.loopRuns d = true := fun d => State.loopRuns_of_up hservice (hup d).1 (hup d).2
    rw [exec_dvfsLoopTick, doDvfsLoopTick_of_allUp hruns]
    rfl
  · have hruns := State.loopRuns_of_up hservice hserves hclock
    refine ⟨fun hfree => ?_, fun hrecent => ?_, ?_⟩
    · rw [exec_droopCeilingRecovery, doDroopCeilingRecovery_of_free hruns hfree]
    · rw [exec_droopCeilingRecovery, doDroopCeilingRecovery_of_recent hrecent]
    · rw [exec_droopSensorTrip, doDroopSensorTrip_of_runs hruns]
  · rw [DiePower.droop_of_heavy cur hheavy]
    exact ⟨rfl, rfl⟩
  · rw [DiePower.droop_of_light cur hlight]
    exact ⟨rfl, rfl, rfl⟩

/-! ## The power measurement and the cap (R315) -/

/-- The samples that a measurement leaves. -/
def State.sampled1s (s : State) (v i : Nat) : List Nat := ((v * i / 1000000) :: s.pwc.samples).take samplesPerS

/-- The averages, the peak and the fast guard that a measurement leaves. -/
def State.measured (s : State) (l : List Nat) (ms : Nat) : State :=
  { s with pwc := { s.pwc with
    samples := l, guard := nextGuard s.pwc.guard ms
    power := fput powerAvg1s (min 65535 (meanOf l)) (fput powerAvg1ms (min 65535 ms)
      (fput powerPeak1ms (max (fget powerPeak1ms s.pwc.power) (min 65535 ms)) s.pwc.power)) } }

theorem doPowerMeasureTick_of_live {s : State} (hlive : s.live = true) (v i : Nat) :
    doPowerMeasureTick v i s = (s.measured (s.sampled1s v i) (meanOf ((s.sampled1s v i).take samplesPerMs))).syncGate := by
  simp only [doPowerMeasureTick, hlive, Bool.not_true, Bool.false_eq_true, if_false]
  rfl

section
variable {s : State} {d : Fin 4}

theorem doCapLoopTick_of_above (habove : fget powerCap s.pwc.power < fget powerAvg1s s.pwc.power) (hdie : s.extremeDie true = some d) :
    doCapLoopTick s = s.modDie d fun x => { x with pwr := { x.pwr with capCeil := x.pwr.capCeil - 1 } } := by
  simp only [doCapLoopTick, habove, hdie, if_true]

theorem doCapLoopTick_of_below (hbelow : 100 * fget powerAvg1s s.pwc.power < 98 * fget powerCap s.pwc.power)
    (hdie : s.extremeDie false = some d) :
    doCapLoopTick s = s.modDie d fun x => { x with pwr := { x.pwr with capCeil := min 28 (x.pwr.capCeil + 1) } } := by
  have hnotAbove : ¬ fget powerCap s.pwc.power < fget powerAvg1s s.pwc.power := by omega
  simp only [doCapLoopTick, hnotAbove, hbelow, hdie, if_true, if_false]

theorem doCapLoopTick_of_between (hcap : fget powerAvg1s s.pwc.power ≤ fget powerCap s.pwc.power)
    (hnear : 98 * fget powerCap s.pwc.power ≤ 100 * fget powerAvg1s s.pwc.power) : doCapLoopTick s = s := by
  simp only [doCapLoopTick, Nat.not_lt.2 hcap, Nat.not_lt.2 hnear, if_false]

end

theorem nextGuard_of_above {g w : Nat} (h : 2850 < w) : nextGuard g w = min 8 (g + 1) := if_pos h

theorem nextGuard_of_below {g w : Nat} (h : w < 2800) : nextGuard g w = g - 1 := by
  rw [nextGuard, if_neg (by omega), if_pos h]

theorem nextGuard_of_between {g w : Nat} (hlo : 2800 ≤ w) (hhi : w ≤ 2850) : nextGuard g w = g := by
  rw [nextGuard, if_neg (by omega), if_neg (by omega)]

/-- Settles O15: a measurement, the cap loop by the side of the cap, the fast guard by the side of its two limits. -/
theorem powerMeasurementAndCap : Obligations.PowerMeasurementAndCap := by
  unfold Obligations.PowerMeasurementAndCap
  refine ⟨fun s v i hservice => ?_, fun s => ⟨fun habove d hdie => ?_, fun hbelow d hdie => ?_, fun hcap hnear => ?_⟩,
    fun g w => ⟨nextGuard_of_above, nextGuard_of_below, nextGuard_of_between⟩⟩
  · rw [exec_powerMeasureTick, doPowerMeasureTick_of_live (State.live_of_inService hservice)]
    rfl
  · rw [exec_capLoopTick, doCapLoopTick_of_above habove hdie]
  · rw [exec_capLoopTick, doCapLoopTick_of_below hbelow hdie]
  · rw [exec_capLoopTick, doCapLoopTick_of_between hcap hnear]

/-! ## Thermal control and stops (R316 to R318) -/

/-- The dies with their ceilings moved by their zones. -/
def State.heated (s : State) (t : Temps) : State :=
  { s with dies := vmap s.dies fun d x => { x with pwr := x.pwr.heat (zonesOf t s.pwc.thermCfg d) } }

/-- Heating dies one after another changes the dies alone. -/
theorem forEach_heat (t : Temps) (l : List (Fin 4)) (s : State) :
    forEach l (fun s d => s.modDie d fun x => { x with pwr := x.pwr.heat (zonesOf t s.pwc.thermCfg d) }) s =
      { s with dies := l.foldl (fun v d => vmod v d fun x => { x with pwr := x.pwr.heat (zonesOf t s.pwc.thermCfg d) }) s.dies } := by
  induction l generalizing s with
  | nil => rfl
  | cons d l ih =>
    rw [forEach_cons, ih]
    rfl

/-- The dies that their thermal ceilings hold down. -/
def State.heldDown (s : State) : BitVec 4 :=
  maskOf 4 ((allFin 4).filterMap fun d =>
    if (s.die d).pwr.thermCeil < 28 ∧ (s.die d).pwr.thermCeil ≤ s.curStep d then some d.1 else none)

/-- PWC.THERM_STATUS with the hottest zone, the hot engines and the held dies shown. -/
def State.showHeat (s : State) (t : Temps) : State :=
  s.modPwc fun p => { p with thermStatus := fput thermHottest (min 255 (hottestZone t).1) (fput thermZone (hottestZone t).2
    (fput thermOeHot (maskOf 7 ((List.range 7).filter fun k => decide (80 ≤ t.oeZones.getD k 0))).toNat
      (fput (11, 8) s.heldDown.toNat p.thermStatus))) }

theorem doThermalLoopTick_of_live {s : State} (hlive : s.live = true) (t : Temps) :
    doThermalLoopTick t s = ((s.heated t).showHeat t).syncGate := by
  have hheat := forEach_heat t (allFin 4) s
  simp only [doThermalLoopTick, hlive, Bool.not_true, Bool.false_eq_true, if_false, hheat]
  rfl

theorem State.stopOr_of_untampered {s : State} (hquiet : s.tampering = false) (cause : Nat) (how : StopEnd) (mp : Bool) :
    s.stopOr cause how mp = s.stop cause how mp := by
  rw [State.stopOr, hquiet]
  rfl

section
variable {s : State}

theorem doThermalTrip_of_live (hlive : s.live = true) (hquiet : s.tampering = false) :
    doThermalTrip s = (s.modPwc fun p => { p with thermStatus := fsat thermTrips 1 p.thermStatus }).stop stopThermal .trip true := by
  have hquiet' : (s.modPwc fun p => { p with thermStatus := fsat thermTrips 1 p.thermStatus }).tampering = false := hquiet
  simp only [doThermalTrip, hlive, Bool.not_true, Bool.false_eq_true, if_false, State.stopOr_of_untampered hquiet']

theorem doBrownout_of_live (hlive : s.live = true) (hquiet : s.tampering = false) (o : Bool) :
    doBrownout o s = s.stop stopBrownout (.brown o) false := by
  rw [doBrownout, if_pos (.inl hlive), State.stopOr_of_untampered hquiet]

theorem State.restartNow_of_free (htrip : s.pwc.tripped = false) (hbrown : s.pwc.brown = false) : s.restartNow = s.beginStart true := by
  rw [State.restartNow, htrip, hbrown]
  rfl

theorem doThermalTripRestart_of_cool {t : Temps} (htrip : s.pwc.tripped = true) (hbrown : s.pwc.brown = false)
    (hcool : zonesCool t = true) :
    doThermalTripRestart t s = (s.modPwc fun p => { p with tripped := false }).beginStart true := by
  simp only [doThermalTripRestart, htrip, hcool, Bool.not_true, Bool.false_eq_true, or_self, if_false]
  exact State.restartNow_of_free rfl hbrown

theorem doBrownoutRestart_of_supplied {v : Nat} (hbrown : s.pwc.brown = true) (htrip : s.pwc.tripped = false) (hlow : 40000 ≤ v)
    (hhigh : s.pwc.overVolt = true → v ≤ 60000) :
    doBrownoutRestart v s = (s.modPwc fun p => { p with brown := false }).beginStart true := by
  have hnotOver : ¬(s.pwc.overVolt = true ∧ 60000 < v) := fun h => Nat.not_lt.2 (hhigh h.1) h.2
  simp only [doBrownoutRestart, hbrown, Nat.not_lt.2 hlow, hnotOver, Bool.not_true, Bool.false_eq_true, or_self, if_false]
  exact State.restartNow_of_free htrip rfl

end

/-! ## Optical engines and rails (R317, R318) -/

section
variable {s : State} {k : Fin 7}

theorem doOeOvertemp_of_lit (hlive : s.live = true) (hports : k.1 ≠ 6) (hlit : s.pwc.oeDark.getLsbD k.1 = false) :
    doOeOvertemp k s = forEach (enginePorts k) (fun s p => (s.modPhy p fun y => { y with light := false }).portLose p 1)
      ((s.modPwc fun p => { p with oeDark := p.oeDark ||| BitVec.twoPow 7 k.1 }).log .pwc lgPower [3, k.1]) := by
  simp only [doOeOvertemp, hlive, hports, hlit, Bool.not_true, Bool.false_eq_true, or_self, if_false]

theorem doOeCooled_of_dark (hlive : s.live = true) (hports : k.1 ≠ 6) (hdark : s.pwc.oeDark.getLsbD k.1 = true) :
    doOeCooled k s = forEach (enginePorts k) (fun s p =>
      if s.portState p = pstLost ∧ s.portOn p then (s.modPhy p fun y => { y with reacqAt := s.aon + reacquireTicks }).trainPort p else s)
      (s.modPwc fun p => { p with oeDark := p.oeDark &&& ~~~(BitVec.twoPow 7 k.1) }) := by
  have hlive' : (s.modPwc fun p => { p with oeDark := p.oeDark &&& ~~~(BitVec.twoPow 7 k.1) }).live = true := hlive
  simp only [doOeCooled, hlive', hports, hdark, Bool.not_true, Bool.false_eq_true, if_false]

end

theorem doDieRailFault_of_serves {s : State} {d : Fin 4} (hclock : (s.die d).pwr.aclkOn = true) (hserves : s.dieServes d = true) :
    doDieRailFault d s =
      ((s.modDie d fun x => { x with pwr := { x.pwr with aclkOn := false } }).startFence d 1).log .pwc lgPower [4, d.1] := by
  simp only [doDieRailFault, hclock, Bool.not_true, Bool.false_eq_true, if_false, State.gateDie_of_serves hserves]

theorem doStackRailFault_of_up {s : State} {k : Fin 8} (hlive : s.live = true) (hup : fon stkLost (s.stk k).status = false) :
    doStackRailFault k s = (s.loseStack k 3).log .pwc lgPower [5, k.1] := by
  simp only [doStackRailFault, hlive, hup, Bool.not_true, Bool.false_eq_true, or_self, if_false]

/-- Settles O16: each loop, stop, restart and loss where its conditions hold. -/
theorem thermalAndSupplyStops : Obligations.ThermalAndSupplyStops := by
  unfold Obligations.ThermalAndSupplyStops
  refine ⟨fun s t hservice => ?_, fun s hservice hquiet => ⟨?_, fun o => ?_⟩, fun s t htrip hbrown hcool => ?_,
    fun s v hbrown htrip hlow hhigh => ?_, fun s k hservice hports => ⟨fun hlit => ?_, fun hdark => ?_⟩, fun s d hclock hserves => ?_,
    fun s k hservice hup => ?_⟩
  · rw [exec_thermalLoopTick, doThermalLoopTick_of_live (State.live_of_inService hservice)]
    rfl
  · rw [exec_thermalTrip, doThermalTrip_of_live (State.live_of_inService hservice) hquiet]
    rfl
  · rw [exec_brownout, doBrownout_of_live (State.live_of_inService hservice) hquiet]
  · rw [exec_thermalTripRestart, doThermalTripRestart_of_cool htrip hbrown hcool]
    rfl
  · rw [exec_brownoutRestart, doBrownoutRestart_of_supplied hbrown htrip hlow hhigh]
    rfl
  · rw [exec_oeOvertemp, doOeOvertemp_of_lit (State.live_of_inService hservice) hports hlit]
    rfl
  · rw [exec_oeCooled, doOeCooled_of_dark (State.live_of_inService hservice) hports hdark]
    rfl
  · rw [exec_dieRailFault, doDieRailFault_of_serves hclock hserves]
  · rw [exec_stackRailFault, doStackRailFault_of_up (State.live_of_inService hservice) hup]

/-! ## Transitions and pads (R308 to R312) -/

theorem doPwcModeWrite_of_inService {s : State} (hservice : s.boot.inService = true) (v : Word) :
    doPwcModeWrite v s = if fget modeTarget v ≤ 3 then s.modPwc fun p => { p with
      mode := fput modeArmed 1 (fput modeDieMask (fget modeDieMask v) (fput modeTarget (fget modeTarget v) 0)) } else s := by
  by_cases htarget : fget modeTarget v ≤ 3
  · simp only [doPwcModeWrite, hservice, Nat.not_lt.2 htarget, htarget, Bool.not_true, Bool.false_eq_true, or_self, if_true, if_false]
  · simp only [doPwcModeWrite, hservice, Nat.not_le.1 htarget, htarget, or_true, if_true, if_false]

theorem doPowerTransitionStart_of_interrupt (s : State) : doPowerTransitionStart true s = s := by
  simp only [doPowerTransitionStart, true_or, if_true]

section
variable {s : State} (harmed : fon modeArmed s.pwc.mode = true)
include harmed

theorem doPowerTransitionStart_active (htarget : fget modeTarget s.pwc.mode = 0) (hmask : fget modeDieMask s.pwc.mode = 0) :
    doPowerTransitionStart false s = (s.disarmMode.modPwc fun p => { p with state := pwActive }).powerDone := by
  simp only [doPowerTransitionStart, harmed, htarget, hmask, Bool.not_true, Bool.false_eq_true, or_self, if_true, if_false]

theorem doPowerTransitionStart_idle (htarget : fget modeTarget s.pwc.mode = 1) (hprogram : s.anyProgram = false) :
    doPowerTransitionStart false s = (s.disarmMode.modPwc fun p => { p with state := pwIdle }).powerDone := by
  simp only [doPowerTransitionStart, harmed, htarget, hprogram, Bool.not_true, Bool.false_eq_true, or_self, if_false]

theorem doPowerTransitionStart_dieOff (htarget : fget modeTarget s.pwc.mode = 2)
    (hfree : ∀ d ∈ s.offTargets (fget modeDieMask s.pwc.mode), s.dieBusy d = false ∧ s.programOn d = false) :
    doPowerTransitionStart false s = (forEach (s.offTargets (fget modeDieMask s.pwc.mode)) State.dieOff s.disarmMode).powerDone := by
  have hnone : ((s.offTargets (fget modeDieMask s.pwc.mode)).any fun d => s.dieBusy d || s.programOn d) = false :=
    List.any_eq_false.2 fun d hd => by
      obtain ⟨hbusy, hprogram⟩ := hfree d hd
      simp [hbusy, hprogram]
  simp only [doPowerTransitionStart, harmed, htarget, hnone, Bool.not_true, Bool.false_eq_true, or_self, if_false]

theorem doPowerTransitionStart_watch (htarget : fget modeTarget s.pwc.mode = 3) (hcmd : s.pwc.cmd = none) (hprogram : s.anyProgram = false)
    (haon : fon clkFaultAonFallback s.pwc.clkFault = false) : doPowerTransitionStart false s = s.enterWatch := by
  simp only [doPowerTransitionStart, harmed, htarget, hcmd, hprogram, haon, Bool.not_true, Bool.or_self, Bool.false_eq_true, or_self,
    if_false]

end

/-- A die at the end of its exit from DIE_OFF: its clock runs at step 0 and its pads are released. -/
def State.poweredUp (s : State) (d : Fin 4) : State :=
  ((s.modDie d fun x => { x with pwr := { x.pwr with off := false, aclkOn := true, stretched := 0 } }).setAclk d 0).modPwc fun p =>
    { p with padHold := p.padHold &&& ~~~(padBits d), exiting := p.exiting &&& ~~~(BitVec.twoPow 4 d.1) }

/-- How a die that leaves DIE_OFF fails its command: it does not come up, or it loses a stack. -/
def exitFail (d : Fin 4) (up : Bool) (lost : List (Fin 8)) : Option (Half × Half) :=
  if !up then some (stDieLost, partDie d) else
    match (allFin 8).find? fun k => lost.contains k && k.1 / 2 == d.1 with
    | some k => some (stStackLost, partStack k)
    | none => none

theorem exitFail_of_whole (d : Fin 4) : exitFail d true [] = none := by
  have hnone : (allFin 8).find? (fun k => List.contains [] k && k.1 / 2 == d.1) = none := List.find?_eq_none.2 fun k _ => by simp
  simp only [exitFail, hnone, Bool.not_true, Bool.false_eq_true, if_false]

/-- The first failure of a POWER command is kept. -/
def State.noteExit (s : State) (fail : Option (Half × Half)) : State := s.modPwc fun p => { p with cmdFail := p.cmdFail.or fail }

theorem State.noteExit_none (s : State) : s.noteExit none = s := by
  rw [State.noteExit, State.modPwc, Option.or_none]

theorem doDieOffExitComplete_of_exiting {s : State} {d : Fin 4} (hbit : s.pwc.exiting.getLsbD d.1 = true) (bad : List (Nat × Nat))
    (lost : List (Fin 8)) :
    doDieOffExitComplete d bad lost s =
      let x := (s.poweredUp d).rejoinDie d bad lost
      let t := x.1.noteExit (exitFail d x.2 lost)
      if t.pwc.exiting = 0 then t.powerDone else t := by
  simp only [doDieOffExitComplete, hbit, Bool.not_true, Bool.false_eq_true, if_false]
  rfl

theorem doDieOffExitComplete_of_last {s : State} {d : Fin 4} {bad : List (Nat × Nat)} (hexit : s.pwc.exiting = BitVec.twoPow 4 d.1)
    (hup : ((s.poweredUp d).rejoinDie d bad []).2 = true) (hlast : ((s.poweredUp d).rejoinDie d bad []).1.pwc.exiting = 0) :
    doDieOffExitComplete d bad [] s = ((s.poweredUp d).rejoinDie d bad []).1.powerDone := by
  have hbit : s.pwc.exiting.getLsbD d.1 = true := by simp [hexit]
  simp only [doDieOffExitComplete_of_exiting hbit, hup, exitFail_of_whole, State.noteExit_none, hlast, if_true]

/-- Settles O17: an armed mode by its target, a transition by its interrupt and by the armed target, the last exit, and each pad bit. -/
theorem powerTransitionsAndPads : Obligations.PowerTransitionsAndPads := by
  unfold Obligations.PowerTransitionsAndPads
  refine ⟨fun s v hservice => ?_, fun s => ?_, fun s harmed => ⟨fun htarget hmask => ?_, fun htarget hprogram => ?_,
    fun htarget hfree => ?_, fun htarget hcmd hprogram haon => ?_⟩, fun s d bad hexit hup hlast => ?_, fun s v => exec_padHoldWrite v s⟩
  · rw [exec_pwcModeWrite, doPwcModeWrite_of_inService hservice]
    rfl
  · rw [exec_powerTransitionStart, doPowerTransitionStart_of_interrupt]
  · rw [exec_powerTransitionStart, doPowerTransitionStart_active harmed htarget hmask]
    rfl
  · rw [exec_powerTransitionStart, doPowerTransitionStart_idle harmed htarget hprogram]
    rfl
  · rw [exec_powerTransitionStart, doPowerTransitionStart_dieOff harmed htarget hfree]
    rfl
  · rw [exec_powerTransitionStart, doPowerTransitionStart_watch harmed htarget hcmd hprogram haon]
  · rw [exec_dieOffExitComplete, doDieOffExitComplete_of_last hexit hup hlast]
    rfl

end Sys2Proof.Machine
end

section
/-!
SUPPORT. The commands of power and of the security block (spec 17 R308 to R310; spec 18 R321 to R323, R327, R329; spec 07 R142): one
equation for each outcome of a POWER command, of ATTEST and LIFECYCLE, of a tamper event and of the end of a wipe's pass, and O54
(PowerAndSecurityCommands) put together from them.
-/
namespace Sys2Proof.Machine

/-! ## Each command runs its own effect -/

theorem exec_powerActive (h : Quad) (s : State) : exec (.powerActive h) s = .next (s.afterStill (doPowerActive h s)) :=
  ranStill_eq_next_afterStill (doPowerActive h) s

theorem exec_powerIdle (h : Quad) (s : State) : exec (.powerIdle h) s = .next (s.afterStill (doPowerIdle h s)) :=
  ranStill_eq_next_afterStill (doPowerIdle h) s

theorem exec_powerDieOff (h : Quad) (s : State) : exec (.powerDieOff h) s = .next (s.afterStill (doPowerDieOff h s)) :=
  ranStill_eq_next_afterStill (doPowerDieOff h) s

theorem exec_powerWatch (h : Quad) (s : State) : exec (.powerWatch h) s = .next (s.afterStill (doPowerWatch h s)) :=
  ranStill_eq_next_afterStill (doPowerWatch h) s

theorem exec_attest (h : Quad) (s : State) : exec (.attest h) s = .next (s.afterStill (doAttest h s)) :=
  ranStill_eq_next_afterStill (doAttest h) s

theorem exec_lifecycle (h : Quad) (src : HostData) (s : State) :
    exec (.lifecycle h src) s = .next (s.afterStill (doLifecycle h src s)) :=
  ranStill_eq_next_afterStill (doLifecycle h src) s

theorem exec_tamperEvent (light voltage clock : Bool) (s : State) :
    exec (.tamperEvent light voltage clock) s = .next (s.afterStill (doTamperEvent light voltage clock s)) :=
  ranStill_eq_next_afterStill (doTamperEvent light voltage clock) s

theorem exec_vaultWipeComplete (bad : Option Nat) (s : State) :
    exec (.vaultWipeComplete bad) s = .next (s.afterStill (doVaultWipeComplete bad s)) :=
  ranStill_eq_next_afterStill (doVaultWipeComplete bad) s

/-! ## POWER waits for its transition, or is refused (R309) -/

/-- A command that begins is the one its handle names. -/
theorem State.cmd_of_begins {s : State} {h : Quad} {opc : Nat} {c : Command} (hbegins : s.begins h opc = some c) : s.cmd? h = some c := by
  unfold State.begins at hbegins
  split at hbegins
  · cases hbegins
  · next c' hcmd =>
    dsimp only at hbegins
    split at hbegins
    · rw [hcmd, hbegins]
    · cases hbegins

/-- A POWER command becomes the one that waits for its transition, with the dies it names. -/
def State.awaitPower (s : State) (h : Quad) (mask : Nat) : State :=
  s.modPwc fun p => { p with cmd := some h, cmdFail := none, cmdDies := BitVec.ofNat 4 mask }

section
variable {s : State} {h : Quad} {c : Command} {state : Nat} {ok : List (Fin 4) → State → Option Half}

theorem State.powerCmd_of_begins (hbegins : s.begins h 0x50 = some c) (hstate : c.arg 8 1 = state) (hnone : s.pwc.cmd = none)
    (f : List (Fin 4) → State → State) :
    s.powerCmd h state ok f = match ok (maskDies (c.arg 9 1)) (s.running h) with
      | some x => (s.running h).denied h x
      | none => f (maskDies (c.arg 9 1)) ((s.running h).awaitPower h (c.arg 9 1)) := by
  have hgo : ¬(c.arg 8 1 ≠ state ∨ s.pwc.cmd.isSome = true) := by simp [hstate, hnone]
  simp only [State.powerCmd, State.cmd_of_begins hbegins, if_neg hgo, State.start_of_begins hbegins]
  rfl

theorem State.powerCmd_of_allowed (hbegins : s.begins h 0x50 = some c) (hstate : c.arg 8 1 = state) (hnone : s.pwc.cmd = none)
    (hok : ok (maskDies (c.arg 9 1)) (s.running h) = none) (f : List (Fin 4) → State → State) :
    s.powerCmd h state ok f = f (maskDies (c.arg 9 1)) ((s.running h).awaitPower h (c.arg 9 1)) := by
  rw [State.powerCmd_of_begins hbegins hstate hnone, hok]

theorem State.powerCmd_of_refused {x : Half} (hbegins : s.begins h 0x50 = some c) (hstate : c.arg 8 1 = state) (hnone : s.pwc.cmd = none)
    (hno : ok (maskDies (c.arg 9 1)) (s.running h) = some x) (f : List (Fin 4) → State → State) :
    s.powerCmd h state ok f = (s.running h).denied h x := by
  rw [State.powerCmd_of_begins hbegins hstate hnone, hno]

end

/-! ## ATTEST delivers its quote (R327) -/

section
variable {s : State} {h : Quad} {c : Command}

theorem doAttest_of_delivered (hbegins : s.begins h 0x51 = some c)
    (hsink : ((s.running h).sink (c.arg 24 8) ((s.running h).quote (c.arg 8 16))).2 = none) :
    doAttest h s = ((s.running h).sink (c.arg 24 8) ((s.running h).quote (c.arg 8 16))).1.finalOk h [] := by
  simp only [doAttest, State.start_of_begins hbegins, hsink]

theorem doAttest_of_undelivered {f : Half × Half} (hbegins : s.begins h 0x51 = some c)
    (hsink : ((s.running h).sink (c.arg 24 8) ((s.running h).quote (c.arg 8 16))).2 = some f) :
    doAttest h s = ((s.running h).sink (c.arg 24 8) ((s.running h).quote (c.arg 8 16))).1.final h f.1 f.2 := by
  simp only [doAttest, State.start_of_begins hbegins, hsink]

/-! ## LIFECYCLE: the transition, the authorisation, the wipe (R321 to R323) -/

theorem doLifecycle_of_noTransition (src : HostData) (hbegins : s.begins h 0x52 = some c) (hwipe : s.sec.wipe = none)
    (hsigners : lifeSigners (s.running h).sec.fuses.lifeState (c.arg 8 1) = none) :
    doLifecycle h src s = (s.running h).denied h dtLifeCycle := by
  simp only [doLifecycle, hwipe, Option.isSome_none, Bool.false_eq_true, if_false, State.start_of_begins hbegins, hsigners]

theorem doLifecycle_of_transition {src : HostData} {signers : List Nat} {t : State} {b : List Byte} (hbegins : s.begins h 0x52 = some c)
    (hwipe : s.sec.wipe = none) (hsigners : lifeSigners (s.running h).sec.fuses.lifeState (c.arg 8 1) = some signers)
    (hprogram : (s.running h).anyProgram = false)
    (hcount : ¬((s.running h).sec.fuses.lifeState = 4 ∧ c.arg 8 1 = 3 ∧ 3 ≤ (s.running h).sec.fuses.rmaCount))
    (hsource : (s.running h).source (c.arg 16 8) manifestBytes src = (t, .ok b)) :
    doLifecycle h src s = match t.authFault b (c.arg 8 1) with
      | some x => t.bad h (0x100#16 + BitVec.ofNat 16 x)
      | none => if t.authFits b (c.arg 8 1) signers then
          (t.modSec fun x => { x with lifecycle := some (h, c.arg 8 1, slice b 0xD00 256), wipe := some (1, 1) })
        else t.denied h dtLifeCycle := by
  simp only [doLifecycle, hwipe, Option.isSome_none, Bool.false_eq_true, if_false, State.start_of_begins hbegins, hsigners, hprogram,
    false_or, hcount, State.withSource_of_ok h hsource]
  cases t.authFault b (c.arg 8 1) with
  | some x => rfl
  | none => cases t.authFits b (c.arg 8 1) signers <;> rfl

end

/-! ## Tamper events (R329) -/

/-- What every tamper event does first: it is recorded, and a LIFECYCLE under way is abandoned. -/
def State.noteTamper (s : State) (source : Nat) : State :=
  (s.recordTamper source).modSec fun y => { y with lifecycle := none, fuseHeld := false }

section
variable {s : State} {light voltage clock : Bool} {x : Nat}

theorem doTamperEvent_of_live (hsensor : s.tamperSensor light voltage clock = some x) (hpwr : (s.noteTamper x).boot.pwrOk = true)
    (hlive : (s.noteTamper x).live = true) : doTamperEvent light voltage clock s = (s.noteTamper x).startWipe 0 := by
  unfold State.noteTamper at *
  simp only [doTamperEvent, hsensor, hpwr, hlive, Bool.not_true, Bool.false_eq_true, if_false, if_true]

theorem doTamperEvent_of_notLive (hsensor : s.tamperSensor light voltage clock = some x) (hpwr : (s.noteTamper x).boot.pwrOk = true)
    (hlive : (s.noteTamper x).live = false) : doTamperEvent light voltage clock s = (s.noteTamper x).tamperStop := by
  unfold State.noteTamper at *
  simp only [doTamperEvent, hsensor, hpwr, hlive, Bool.not_true, Bool.false_eq_true, if_false]

theorem doTamperEvent_of_unpowered (hsensor : s.tamperSensor light voltage clock = some x) (hpwr : (s.noteTamper x).boot.pwrOk = false) :
    doTamperEvent light voltage clock s = s.noteTamper x := by
  unfold State.noteTamper at *
  simp only [doTamperEvent, hsensor, hpwr, Bool.not_false, if_true]

end

/-! ## The end of a pass of the wipe (R142, R323) -/

section
variable {s : State} {pass why : Nat}

theorem doVaultWipeComplete_of_retry (hwipe : s.sec.wipe = some (pass, why)) (w : Nat) (hpass : pass < 3) :
    doVaultWipeComplete (some w) s = (s.modHub HubMem.wipeVault).modSec fun x => { x with wipe := some (pass + 1, why) } := by
  simp only [doVaultWipeComplete, hwipe, Option.isNone_some, Bool.false_eq_true, false_and, and_false, if_false, hpass, if_true]

theorem doVaultWipeComplete_of_failed (hwipe : s.sec.wipe = some (pass, why)) (w : Nat) (hpass : 3 ≤ pass) :
    doVaultWipeComplete (some w) s =
      let u := ((s.modHub HubMem.wipeVault).modSec fun x => { x with
        wipe := none, vaultHeld := true, status := fput secWipeFail 1 x.status }).log .sec lgWipe [0, w]
      if why = 0 then u.tamperStop else u.lifeDone false := by
  simp only [doVaultWipeComplete, hwipe, Option.isNone_some, Bool.false_eq_true, false_and, and_false, if_false, Nat.not_lt.2 hpass]

theorem doVaultWipeComplete_of_clean (hwipe : s.sec.wipe = some (pass, why))
    (hidle : (s.marb.running.any fun a => a.resources.contains (codeSec, 0)) = false) :
    doVaultWipeComplete none s =
      let u := ((s.modHub HubMem.wipeVault).modSec fun x => { x with wipe := none }).log .sec lgWipe [1]
      if why = 0 then u.tamperStop else u.lifeDone true := by
  simp only [doVaultWipeComplete, hwipe, hidle, Bool.false_eq_true, and_false, if_false]

end

/-- Settles O54: each POWER command by the one law of commands that wait for a transition, the others by the equation of their outcome. -/
theorem powerAndSecurityCommands : Obligations.PowerAndSecurityCommands := by
  refine ⟨⟨fun s h cmd hbegins hstate hnone => ⟨fun hok => ?_, fun x hno => ?_⟩,
      fun s h cmd hbegins hstate hnone => ⟨fun hok => ?_, fun x hno => ?_⟩,
      fun s h cmd hbegins hstate hnone => ⟨fun hok => ?_, fun x hno => ?_⟩,
      fun s h cmd hbegins hstate hnone => ⟨fun hok => ?_, fun x hno => ?_⟩⟩,
    fun s h c hbegins => ⟨fun hsink => ?_, fun f hsink => ?_⟩,
    fun s h src c hbegins hwipe => ⟨fun hsigners => ?_, fun signers t b hsigners hprogram hcount hsource => ?_⟩,
    fun s light voltage clock x hsensor => ⟨fun hpwr hlive => ?_, fun hpwr hlive => ?_, fun hpwr => ?_⟩,
    fun s pass why w hwipe => ⟨fun hpass => ?_, fun hpass => ?_, fun hidle => ?_⟩⟩
  · rw [exec_powerActive, doPowerActive, State.powerCmd_of_allowed hbegins hstate hnone hok]
    rfl
  · rw [exec_powerActive, doPowerActive, State.powerCmd_of_refused hbegins hstate hnone hno]
  · rw [exec_powerIdle, doPowerIdle, State.powerCmd_of_allowed hbegins hstate hnone hok]
    rfl
  · rw [exec_powerIdle, doPowerIdle, State.powerCmd_of_refused hbegins hstate hnone hno]
  · rw [exec_powerDieOff, doPowerDieOff, State.powerCmd_of_allowed hbegins hstate hnone hok]
    rfl
  · rw [exec_powerDieOff, doPowerDieOff, State.powerCmd_of_refused hbegins hstate hnone hno]
  · rw [exec_powerWatch, doPowerWatch, State.powerCmd_of_allowed hbegins hstate hnone hok]
    rfl
  · rw [exec_powerWatch, doPowerWatch, State.powerCmd_of_refused hbegins hstate hnone hno]
  · rw [exec_attest, doAttest_of_delivered hbegins hsink]
  · rw [exec_attest, doAttest_of_undelivered hbegins hsink]
  · rw [exec_lifecycle, doLifecycle_of_noTransition src hbegins hwipe hsigners]
  · rw [exec_lifecycle]
    exact congrArg (fun t => Host.Outcome.next (s.afterStill t)) (doLifecycle_of_transition hbegins hwipe hsigners hprogram hcount hsource)
  · rw [exec_tamperEvent, doTamperEvent_of_live hsensor hpwr hlive]
    rfl
  · rw [exec_tamperEvent, doTamperEvent_of_notLive hsensor hpwr hlive]
    rfl
  · rw [exec_tamperEvent, doTamperEvent_of_unpowered hsensor hpwr]
    rfl
  · rw [exec_vaultWipeComplete, doVaultWipeComplete_of_retry hwipe w hpass]
  · rw [exec_vaultWipeComplete, doVaultWipeComplete_of_failed hwipe w hpass]
  · rw [exec_vaultWipeComplete, doVaultWipeComplete_of_clean hwipe hidle]

end Sys2Proof.Machine
end

section
/-!
SUPPORT. Registers over BAR0 and the debug protocol over MP (spec 21 R344 to R347; spec 20 R341; spec 11 R214; spec 18 R330): one equation
for each outcome of an access, and O55 (RegisterAccesses) and O56 (DebugRequestsNeedDebugOpen) put together from them.
-/
namespace Sys2Proof.Machine

/-! ## Each command runs its own effect -/

theorem exec_rcRegisterRead (a : Agent) (off size : Nat) (s : State) :
    exec (.rcRegisterRead a off size) s = .next (s.afterStill (s.readBar0 a off size)) :=
  ranStill_eq_next_afterStill (doRcRegisterRead a off size) s

theorem exec_wideRegisterRead (a : Agent) (off size : Nat) (s : State) :
    exec (.wideRegisterRead a off size) s = .next (s.afterStill (s.readBar0 a off size)) :=
  ranStill_eq_next_afterStill (doWideRegisterRead a off size) s

theorem exec_registerWrite (a : Agent) (off size : Nat) (v : Quad) (s : State) :
    exec (.registerWrite a off size v) s = .next (s.after (s.writeBar0 a off size v)) :=
  ran_eq_next_after (doRegisterWrite a off size v) s

theorem exec_stashBudgetWrite (r : Fin 4) (v : Quad) (s : State) :
    exec (.stashBudgetWrite r v) s = .next (s.after (doStashBudgetWrite r v s)) :=
  ran_eq_next_after (doStashBudgetWrite r v) s

/-! ## A read of a part of a register's slot (R341, R345) -/

section
variable {s : State} {a : Agent} {r : Reg} {i : Nat}

theorem State.regRead_zero (s : State) (a : Agent) (r : Reg) :
    s.regRead a r 0 = (s.regValue r, (s.keepSnap a r (s.regValue r)).regClear r) := rfl

theorem State.regRead_of_narrow (hpart : i ≠ 0) (hnarrow : r.bytes = 4) : s.regRead a r i = (0, s) := by
  rw [State.regRead, if_neg hpart, if_pos hnarrow]

theorem State.regRead_of_kept {x : Snapshot} (hpart : i ≠ 0) (hwide : r.bytes ≠ 4)
    (hkept : (s.snaps a).find? (fun y => y.off == r.addr) = some x) : s.regRead a r i = (x.val.toNat / 2 ^ (8 * i), s) := by
  rw [State.regRead, if_neg hpart, if_neg hwide, hkept]

end

/-! ## An access over BAR0: who reaches it, its form, what it names (R344, R292) -/

section
variable {s : State} {a : Agent} {off size : Nat}

theorem State.readBar0_of_unreached (hreach : s.reaches a = false) : s.readBar0 a off size = s := by
  simp only [State.readBar0, hreach, Bool.not_false, if_true]

theorem State.readBar0_of_malformed (hreach : s.reaches a = true) (hform : accessOk off size = false) :
    s.readBar0 a off size = s.emit (.unsupported a) := by
  simp only [State.readBar0, hreach, hform, Bool.not_true, Bool.not_false, Bool.false_eq_true, if_false, if_true]

theorem State.readBar0_of_reg {r : Reg} {i v : Nat} {t : State} (hreach : s.reaches a = true) (hform : accessOk off size = true)
    (hreg : regAt off = some (r, i)) (hread : s.regRead a r i = (v, t)) :
    s.readBar0 a off size = t.emit (.registerData a (BitVec.ofNat 64 (v % 2 ^ (8 * size)))) := by
  simp only [State.readBar0, hreach, hform, Bool.not_true, Bool.false_eq_true, if_false, hreg, hread]

theorem State.readBar0_of_unnamed (hreach : s.reaches a = true) (hform : accessOk off size = true) (hreg : regAt off = none)
    (hoff : off < cxlBlock) : s.readBar0 a off size = s.emit (.registerData a 0) := by
  simp only [State.readBar0, hreach, hform, Bool.not_true, Bool.false_eq_true, if_false, hreg, Nat.not_le.2 hoff, Nat.zero_mod]
  rfl

theorem State.writeBar0_of_unreached (v : Quad) (hreach : s.reaches a = false) : s.writeBar0 a off size v = s := by
  simp only [State.writeBar0, hreach, Bool.not_false, if_true]

theorem State.writeBar0_of_malformed (v : Quad) (hreach : s.reaches a = true) (hform : accessOk off size = false) :
    s.writeBar0 a off size v = s.emit (.unsupported a) := by
  simp only [State.writeBar0, hreach, hform, Bool.not_true, Bool.not_false, Bool.false_eq_true, if_false, if_true]

theorem State.writeBar0_of_unnamed (v : Quad) (hreach : s.reaches a = true) (hform : accessOk off size = true)
    (hreg : regAt off = none) : s.writeBar0 a off size v = s := by
  simp only [State.writeBar0, hreach, hform, Bool.not_true, Bool.false_eq_true, if_false, hreg]

theorem State.writeBar0_of_reg {r : Reg} {i : Nat} (v : Quad) (hreach : s.reaches a = true) (hform : accessOk off size = true)
    (hreg : regAt off = some (r, i)) : s.writeBar0 a off size v = s.regWrite a r (byteMask i size) (v <<< (8 * i)) := by
  simp only [State.writeBar0, hreach, hform, Bool.not_true, Bool.false_eq_true, if_false, hreg]

theorem State.regWrite_of_blockOut {d : Fin 4} (k : DieReg) (m v : Quad) (hout : s.blockOut d = true) :
    s.regWrite a (.die d k) m v = s.modHost fun h => { h with memErr := fsat memErrRegDropped 1 h.memErr } := by
  simp only [State.regWrite, hout, if_true]

end

/-- What O55 says of one of the two read commands, which both run `State.readBar0`. -/
theorem readBar0_cases {c : Agent → Nat → Nat → Instr}
    (hexec : ∀ a off size s, exec (c a off size) s = .next (s.afterStill (s.readBar0 a off size)))
    (s : State) (a : Agent) (off size : Nat) :
    (s.reaches a = false → exec (c a off size) s = .next (s.afterStill s)) ∧
    (s.reaches a = true → accessOk off size = false → exec (c a off size) s = .next (s.afterStill (s.emit (.unsupported a)))) ∧
    (s.reaches a = true → accessOk off size = true →
      (∀ r, regAt off = some (r, 0) → exec (c a off size) s = .next (s.afterStill
        (((s.keepSnap a r (s.regValue r)).regClear r).emit (.registerData a (BitVec.ofNat 64 (s.regValue r % 2 ^ (8 * size))))))) ∧
      (∀ r i x, regAt off = some (r, i) → i ≠ 0 → r.bytes ≠ 4 → ((s.snaps a).find? fun y => y.off == r.addr) = some x →
        exec (c a off size) s = .next (s.afterStill
          (s.emit (.registerData a (BitVec.ofNat 64 (x.val.toNat / 2 ^ (8 * i) % 2 ^ (8 * size))))))) ∧
      (∀ r i, regAt off = some (r, i) → i ≠ 0 → r.bytes = 4 → exec (c a off size) s = .next (s.afterStill (s.emit (.registerData a 0)))) ∧
      (regAt off = none → off < cxlBlock → exec (c a off size) s = .next (s.afterStill (s.emit (.registerData a 0))))) := by
  rw [hexec]
  refine ⟨fun hreach => ?_, fun hreach hform => ?_, fun hreach hform => ⟨fun r hreg => ?_, fun r i x hreg hpart hwide hkept => ?_,
    fun r i hreg hpart hnarrow => ?_, fun hreg hoff => ?_⟩⟩
  · rw [State.readBar0_of_unreached hreach]
  · rw [State.readBar0_of_malformed hreach hform]
  · rw [State.readBar0_of_reg hreach hform hreg (s.regRead_zero a r)]
  · rw [State.readBar0_of_reg hreach hform hreg (State.regRead_of_kept hpart hwide hkept)]
  · rw [State.readBar0_of_reg hreach hform hreg (State.regRead_of_narrow hpart hnarrow), Nat.zero_mod]
    rfl
  · rw [State.readBar0_of_unnamed hreach hform hreg hoff]

/-- Settles O55: both reads by the cases of a read of BAR0, writes by the equation of each outcome. -/
theorem registerAccesses : Obligations.RegisterAccesses := by
  refine ⟨⟨readBar0_cases exec_rcRegisterRead, readBar0_cases exec_wideRegisterRead⟩,
    fun s a off size v => ⟨fun hreach => ?_, fun hreach hform => ?_, fun hreach hform hreg => ?_,
      fun r i hreach hform hreg => ⟨?_, fun d k hdie hout => ?_⟩⟩,
    fun s r v => exec_stashBudgetWrite r v s⟩
  · rw [exec_registerWrite, State.writeBar0_of_unreached v hreach]
  · rw [exec_registerWrite, State.writeBar0_of_malformed v hreach hform]
  · rw [exec_registerWrite, State.writeBar0_of_unnamed v hreach hform hreg]
  · rw [exec_registerWrite, State.writeBar0_of_reg v hreach hform hreg]
    rfl
  · rw [hdie, State.regWrite_of_blockOut k _ _ hout]

/-! ## The debug protocol (R330) -/

section
variable {s : State} {r : DebugRequest}

theorem exec_mpDebugRequest_eq (r : DebugRequest) (s : State) : exec (.mpDebugRequest r) s = execMpDebugRequest r s := rfl

theorem exec_mpDebugRequest_of_closed (r : DebugRequest) (hclosed : s.debugOpen = false) :
    exec (.mpDebugRequest r) s = .next (s.after s) := by
  rw [exec_mpDebugRequest_eq, execMpDebugRequest.eq_def, hclosed]
  rfl

theorem exec_mpDebugRequest_of_served (hopen : s.debugOpen = true) (hscan : ∀ d, r ≠ .scan d) (hhas : debugAbsent r = false) :
    exec (.mpDebugRequest r) s = .next (s.after (s.debugServe r)) := by
  rw [exec_mpDebugRequest_eq, execMpDebugRequest.eq_def, hopen, if_neg (by decide)]
  cases r with
  | scan d => exact absurd rfl (hscan d)
  | _ => exact if_neg (Bool.eq_false_iff.1 hhas)

theorem exec_mpDebugRequest_of_absent (hopen : s.debugOpen = true) (hhas : debugAbsent r = true) :
    exec (.mpDebugRequest r) s = .fault .noSuchAddress := by
  rw [exec_mpDebugRequest_eq, execMpDebugRequest.eq_def, hopen, if_neg (by decide)]
  cases r with
  | scan d => cases hhas
  | _ => exact if_pos hhas

theorem exec_mpDebugRequest_scan (hopen : s.debugOpen = true) (d : Fin 4) : exec (.mpDebugRequest (.scan d)) s = .refused .scanChain := by
  rw [exec_mpDebugRequest_eq, execMpDebugRequest.eq_def, hopen, if_neg (by decide)]

theorem State.debugServe_readRegister {off i : Nat} {x : Reg} (hreg : regAt off = some (x, i)) :
    s.debugServe (.readRegister off) = (s.regRead .mcp x i).2.emit (.debugData [(s.regRead .mcp x i).1 % 2 ^ 64]) := by
  simp only [State.debugServe, hreg]

theorem State.debugServe_readRegister_of_unnamed {off : Nat} (hreg : regAt off = none) :
    s.debugServe (.readRegister off) = s.emit (.debugData [0]) := by
  simp only [State.debugServe, hreg]

theorem State.debugServe_writeRegister {off : Nat} {x : Reg} (v : Quad) (hreg : regAt off = some (x, 0)) :
    s.debugServe (.writeRegister off v) = s.regWrite .mcp x (BitVec.allOnes 64) v := by
  simp only [State.debugServe, hreg]

/-- A debug write that does not name bit 0 of a register has no effect. -/
theorem State.debugServe_writeRegister_of_unnamed {off : Nat} (v : Quad) (hreg : ∀ x, regAt off ≠ some (x, 0)) :
    s.debugServe (.writeRegister off v) = s := by
  match hat : regAt off with
  | none => simp only [State.debugServe, hat]
  | some (x, 0) => exact absurd hat (hreg x)
  | some (x, i + 1) => simp only [State.debugServe, hat]

end

/-- Settles O56: what a request answers by whether debug is open and the address exists, then what the served request does. -/
theorem debugRequestsNeedDebugOpen : Obligations.DebugRequestsNeedDebugOpen := by
  refine ⟨fun s r hclosed => exec_mpDebugRequest_of_closed r hclosed, fun s hopen => ?_⟩
  have served (r : DebugRequest) (hscan : ∀ d, r ≠ .scan d) (hhas : debugAbsent r = false) :=
    exec_mpDebugRequest_of_served hopen hscan hhas
  refine ⟨fun c => served _ nofun rfl, fun c => served _ nofun rfl, fun c => served _ nofun rfl, fun off r i hreg => ?_,
    fun off r v hreg => ?_, fun off hreg => ?_, fun off v hreg => ?_, fun m a hhas => served _ nofun ?_,
    fun m a b hhas => served _ nofun ?_, fun m a hhas => exec_mpDebugRequest_of_absent hopen ?_,
    fun m a b hhas => exec_mpDebugRequest_of_absent hopen ?_,
    fun d => exec_mpDebugRequest_scan hopen d, fun bank addr data => served _ nofun rfl⟩
  · rw [served (.readRegister _) nofun rfl, State.debugServe_readRegister hreg]
  · rw [served (.writeRegister _ _) nofun rfl, State.debugServe_writeRegister v hreg]
  · rw [served (.readRegister _) nofun rfl, State.debugServe_readRegister_of_unnamed hreg]
  · rw [served (.writeRegister _ _) nofun rfl, State.debugServe_writeRegister_of_unnamed v hreg]
  all_goals simp only [debugAbsent, hhas, Bool.not_true, Bool.not_false]

end Sys2Proof.Machine
end
